-- ==== Sys2Proof/Word.lean ====
section
/-!
DEFINITION. The word types of the NVM3-300: 8-bit bytes, 16-bit and 32-bit words, as spec/03_program_image.md
R56, R59 and spec/02_register_pages.md R36 use them.
-/
namespace Sys2Proof

/-- One byte of a memory, a frame or a record. -/
abbrev Byte := BitVec 8

/-- A 16-bit quantity: a fault code, a detail slot. -/
abbrev Half := BitVec 16

/-- A 32-bit register or PIM word (R36, R56). -/
abbrev Word := BitVec 32

/-- A 64-bit quantity: two registers or two PIM words, low word first. -/
abbrev Dword := BitVec 64

end Sys2Proof
end

