-- ==== Sys2Proof/Syntax.lean ====
section
/-!
DEFINITION. The commands of the NVM3-300: one constructor of `Instr` for each row of spec/opcode_table.json, with the
operands that the environment decides (a value the host writes, a pin level, a received frame, a disturbance of one
lane). What the module's own state decides is not an operand.
-/
namespace Sys2Proof

/-- The two PCI Express functions (spec/02_register_pages.md R30). -/
inductive Pf where
  | pf0 | pf1
deriving DecidableEq, Repr

/-- The two network planes (spec/11_train_network.md R286). -/
inductive Plane where
  | a | b
deriving DecidableEq, Repr

/-- The two PLLs (spec/16_clocks_and_power.md R407). -/
inductive Pll where
  | a | b
deriving DecidableEq, Repr

/-- A value for each of the lanes A, B and C. -/
structure Tri where
  a : Dword
  b : Dword
  c : Dword
deriving DecidableEq, Repr

/-- No deviation in any lane. -/
def Tri.none : Tri := ⟨0, 0, 0⟩

/-- Bits of a stored PIM codeword that have flipped: data bits in [63:0], check bits in [71:64]
(spec/06_triplex_execution.md R180). -/
structure PimFlip where
  line : BitVec 20
  cw   : BitVec 2
  bits : BitVec 72
deriving DecidableEq, Repr

/-- What disturbs PIM at a read: stored bits that have flipped since the read before, line-address bits that are wrong in
this read, and lanes whose own check finds the line uncorrectable (R180 to R182). -/
structure PimErr where
  flips : List PimFlip
  addr  : BitVec 20
  lanes : BitVec 3
deriving DecidableEq, Repr

/-- An undisturbed read. -/
def PimErr.none : PimErr := ⟨[], 0, 0⟩

/-- What disturbs one write request in the lanes (R164, R165): each lane's deviation (an exclusive-or) in the request
([31:0] address, [35:32] byte mask, [36] target) and in the data, each voter copy's deviation in the request it forms, the
lanes that omit the request, and the lanes that make another one alone before it. -/
structure WriteUpset where
  req     : Tri
  data    : Tri
  vc      : Tri
  omitted : BitVec 3
  alone   : BitVec 3
deriving DecidableEq, Repr

/-- An undisturbed write request. -/
def WriteUpset.none : WriteUpset := ⟨Tri.none, Tri.none, Tri.none, 0, 0⟩

/-- What disturbs the lanes and PIM while one block, or one COND, is executed (R162 to R167, R171, R181, R182, R139): each
lane's deviation in its read addresses (the descriptor or segment entry first, then the operands or the COND), what disturbs
its write requests in their order, lanes that make one more request alone, each lane's deviation in the bits it writes into
its own LCR, pipe words that flip (lane, word, bits), what disturbs PIM, and PEs counted beyond the block's cost.
`Upset.none` is undisturbed execution. -/
structure Upset where
  rd      : List Tri
  wr      : List WriteUpset
  extra   : BitVec 3
  lcr     : Tri
  pipe    : List (Fin 3 × Byte × Word)
  pim     : PimErr
  extraPe : Nat
deriving DecidableEq, Repr

/-- Undisturbed execution. -/
def Upset.none : Upset := ⟨[], [], 0, Tri.none, [], PimErr.none, 0⟩

/-- What disturbs the K0 parts of the lanes in one K0 clock (R163, R165, spec/07_field_io.md R193, R215,
spec/08_reflex_and_reaction.md R225): the bits of each reflex copy's de-energise vector that are wrong in this clock, the rule
latches that have flipped, and, flipped too, filtered inputs ([31:0], bit 8g + k), enable latches ([35:32]) and committed LCR
bits ([55:36]). -/
structure CopyUpset where
  vec   : Tri
  latch : Tri
  k0    : Tri
deriving DecidableEq, Repr

/-- Undisturbed K0 parts. -/
def CopyUpset.none : CopyUpset := ⟨Tri.none, Tri.none, Tri.none⟩

/-- How the clocks came up in BOOT (spec/17_start_up_and_update.md R431, R432). -/
structure ClockUp where
  tcxo : Bool
  pllA : Bool
  pllB : Bool
deriving DecidableEq, Repr

/-- The results of the self-tests of BOOT (R431, R432): lanes that failed, the PIM line that failed, the voter compare
test and the decimation calibration. -/
structure SelfTest where
  lanes : BitVec 3
  line  : Option (BitVec 20)
  voter : Bool
  dec   : Bool
deriving DecidableEq, Repr

/-- The pages that hold a table window (spec/02_register_pages.md R46). -/
inductive Win where
  | frc | trd | twp | mvb | brg
deriving DecidableEq, Repr

/-- A host AtomicOp (spec/14_host_and_mailboxes.md R365). -/
inductive AtomicKind where
  | fetchAdd | swap | cas
deriving DecidableEq, Repr

/-- A host AtomicOp with its width in bytes, the BAR and offset it addresses and its operands (`x` is the addend, the
swap value or the compare value, `y` the value a CAS stores). -/
structure AtomicReq where
  kind  : AtomicKind
  width : Nat
  bar2  : Bool
  off   : BitVec 24
  x     : Dword
  y     : Dword
deriving DecidableEq, Repr

/-- How the repeated PIM read of a retry ends (spec/06_triplex_execution.md R182). -/
inductive RetryOut where
  | good | addrClass | sameData
deriving DecidableEq, Repr

/-- What stands on the field side's terminals and meters at one upstream frame (spec/07_field_io.md R191, R192, R196, R208,
R210): the voltage of each input and of each output against M in mV (0 beyond the end), how an input or output between its off
and on limits reads, the measured test sources, open-load and clamp detection, and the meter reading of the frame's detail
slot (load current or temperature). -/
structure FieldPins where
  inV   : List Int
  outV  : List Int
  mid   : BitVec 12
  tsr   : BitVec 2
  open' : BitVec 4
  clamp : BitVec 4
  meter : Half
deriving DecidableEq, Repr

/-- The side of a field link that receives. -/
inductive LinkEnd where
  | logic | field
deriving DecidableEq, Repr

/-- The sixteen stream samples of each sigma-delta channel since the last grid instant, first sample in bit 0, and the
channels whose integrator parity or datapath comparison failed (spec/10_decimation.md R267, R269, R278). -/
structure DsRound where
  bits  : List (BitVec 16)
  dperr : BitVec 16
deriving DecidableEq, Repr

/-- An ARP request or reply. -/
structure Arp where
  reply   : Bool
  senderMac : BitVec 48
  senderIp  : Word
  targetIp  : Word
deriving DecidableEq, Repr

/-- A TRDP process-data datagram (spec/11_train_network.md R297, R299). `fcsOk`: the header FCS passes. `scUpset`: the
second SC-32 unit disagrees with the first on this copy (R309). -/
structure PdFrame where
  srcIp   : Word
  dstIp   : Word
  srcPort : Half
  dstPort : Half
  ttl     : Byte
  dscp    : BitVec 6
  seq     : Word
  version : Half
  msgType : Half
  comId   : Word
  etbTopo : Word
  opTopo  : Word
  dsLen   : Nat
  reserved : Word
  replyCom : Word
  replyIp : Word
  fcsOk   : Bool
  scUpset : Bool
  data    : List Byte
deriving DecidableEq, Repr

/-- The messages of the PTP ordinary clock (spec/13_time.md R342). -/
inductive PtpKind where
  | sync | followUp | delayReq | delayResp | pdelayReq | pdelayResp | pdelayRespFollowUp | announce | other
deriving DecidableEq, Repr

/-- What every PTP message carries: plane of arrival, clock identity of its sender, domain, sequence number, and the
corrections it has gathered, in ns. -/
structure PtpHdr where
  plane  : Plane
  src    : Dword
  domain : Byte
  seq    : Half
  corr   : Int
deriving DecidableEq, Repr

/-- The data set of an Announce message that the BMCA compares (R342). -/
structure Announce where
  gm    : Dword
  p1    : Byte
  p2    : Byte
  cls   : Byte
  acc   : Byte
  var   : Half
  steps : Half
  utc   : Option Half
deriving DecidableEq, Repr

/-- A PTP message as received at P3: `twoStep` of a Sync, the timestamp it carries, its own receive timestamp, and the
Announce data set. -/
structure PtpMsg where
  kind    : PtpKind
  hdr     : PtpHdr
  twoStep : Bool
  origin  : Nat
  rx      : Nat
  ann     : Announce
deriving DecidableEq, Repr

/-- What an Ethernet frame carries. -/
inductive NetBody where
  | arp (a : Arp)
  | pd (p : PdFrame)
  | ptp (m : PtpMsg)
  | pause
  | other (ethType : Half) (bytes : List Byte)
deriving DecidableEq, Repr

/-- An Ethernet frame: addresses, VLAN tag (PCP and VID), length in bytes, FCS verdict and content. -/
structure EthFrame where
  dst   : BitVec 48
  src   : BitVec 48
  tag   : Option (BitVec 3 × BitVec 12)
  len   : Nat
  fcsOk : Bool
  body  : NetBody
deriving DecidableEq, Repr

/-- A CAN or CAN FD data frame, or a remote frame; `esi` is the ESI bit of an FD frame (spec/12_bridges.md R317). -/
structure CanFrame where
  ext  : Bool
  fd   : Bool
  brs  : Bool
  esi  : Bool
  rtr  : Bool
  id   : BitVec 29
  data : List Byte
deriving DecidableEq, Repr

/-- How an attempt to send a CAN frame ends (R319). -/
inductive CanTxEnd where
  | sent | lostArbitration | error
deriving DecidableEq, Repr

/-- The CAN error conditions of ISO 11898-1 that change the counters (R319): the amounts by which the transmit and the
receive error counter grow. -/
structure CanErr where
  dTec : Nat
  dRec : Nat
deriving DecidableEq, Repr

/-- The messages between a twin unit and the Owl referee (spec/18_twin_modules.md R466). -/
structure OwlMsg where
  unit   : BitVec 1
  pair   : Half
  seq    : Word
  time   : Dword
  holder : BitVec 1
  valid  : Bool
  crcOk  : Bool
deriving DecidableEq, Repr

/-- A frame of the TWIN link: its 16 payload bytes, byte 0 in bits [7:0], and whether its CRC passes (R460). -/
structure TwinFrame where
  pay   : BitVec 128
  crcOk : Bool
deriving DecidableEq, Repr

/-- A frame as the three lanes' deserialisers of the TWIN link hold it (spec/06_triplex_execution.md R168). -/
structure TwinRx where
  a : TwinFrame
  b : TwinFrame
  c : TwinFrame
deriving DecidableEq, Repr

/-- What wakes the module from SLUMBER (spec/16_clocks_and_power.md R421). -/
inductive WakeCause where
  | code | alarm | resetContact | can (k : Fin 4)
deriving DecidableEq, Repr

/-- The commands, in the order of spec/opcode_table.json. -/
inductive Instr where
  -- supply, reset and BOOT
  | mainSupplyUp
  | rstNAssert
  | rstNRelease
  | resetRequest (pf : Pf) (v : Word)
  | resetRingWritten
  | supplyFail
  | mainRailsFall
  | bootClocksDone (r : ClockUp)
  | selfTestsDone (r : SelfTest)
  | addressingDone (present : Bool)
  | imageLoadDone (flashOk otpOk : Bool)
  | safeHostNotify
  | safeTwinRelinquish
  -- host register and memory accesses
  | regWrite (pf : Pf) (off : BitVec 20) (size : Nat) (v : Dword)
  | pageLock (pf : Pf) (page : Byte) (v : Word)
  | winSelect (w : Win) (pf : Pf) (v : Word)
  | winSelectDone (w : Win)
  | forceCommit (pf : Pf)
  | forceRelease (pf : Pf)
  | forceReleaseAll (pf : Pf)
  | trdWinCommit (pf : Pf)
  | twpWinCommit (pf : Pf)
  | brgWinCommit (pf : Pf)
  | mvbWinCommit (pf : Pf)
  | semWrite (k : Fin 32) (mid : BitVec 4) (v : Word)
  | atomicOp (pf : Pf) (r : AtomicReq)
  | noticeSramWrite (pf : Pf) (off : BitVec 24) (data : List Byte)
  -- tasks and engine modes
  | taskPeriodicTrigger (t : Fin 8)
  | triggerAdmit
  | shadowCopyDone (t : Fin 8)
  | segmentCond (u : Upset)
  | activationComplete (sig : Tri)
  | commit (lcr : Tri) (tel : List WriteUpset := [])
  | startCommand (pf : Pf)
  | stopCommand (pf : Pf)
  | breakpointHalt
  | holdResume (pf : Pf)
  | holdStep (pf : Pf) (u : Upset)
  | dbgStop (pf : Pf)
  | changePauseBegin
  | changePauseEnd
  -- the blocks
  | bAnd (u : Upset)
  | bOr (u : Upset)
  | bXor (u : Upset)
  | bNot (u : Upset)
  | bShl (u : Upset)
  | bShr (u : Upset)
  | bRol (u : Upset)
  | bRor (u : Upset)
  | bMove (u : Upset)
  | bEq (u : Upset)
  | bNe (u : Upset)
  | bLt (u : Upset)
  | bLe (u : Upset)
  | bGt (u : Upset)
  | bGe (u : Upset)
  | bWin (u : Upset)
  | bHyst (u : Upset)
  | bAdd (u : Upset)
  | bSub (u : Upset)
  | bMul (u : Upset)
  | bDiv (u : Upset)
  | bMod (u : Upset)
  | bAddS (u : Upset)
  | bSubS (u : Upset)
  | bMulS (u : Upset)
  | bAbs (u : Upset)
  | bSqrt (u : Upset)
  | bMuldiv (u : Upset)
  | bTrunc (u : Upset)
  | bConv (u : Upset)
  | bSel (u : Upset)
  | bMux (u : Upset)
  | bMin (u : Upset)
  | bMax (u : Upset)
  | bLimit (u : Upset)
  | bRTrig (u : Upset)
  | bFTrig (u : Upset)
  | bSr (u : Upset)
  | bRs (u : Upset)
  | bTon (u : Upset)
  | bTof (u : Upset)
  | bTp (u : Upset)
  | bTacc (u : Upset)
  | bCtu (u : Upset)
  | bCtd (u : Upset)
  | bCtud (u : Upset)
  | bLag1 (u : Upset)
  | bDebnc (u : Upset)
  | bMavg (u : Upset)
  | bRatel (u : Upset)
  | bPi (u : Upset)
  | bPid (u : Upset)
  | bLin (u : Upset)
  | bScale (u : Upset)
  | bLookup (u : Upset)
  | bSeq (u : Upset)
  | bSeqt (u : Upset)
  | bGuard (u : Upset)
  | bReset (u : Upset)
  | bAntiv (u : Upset)
  | bEquiv (u : Upset)
  | bFbmon (u : Upset)
  | bSpeed (u : Upset)
  | bCmparm (u : Upset)
  | bSmosel (u : Upset)
  | bQchk (u : Upset)
  | bPack (u : Upset)
  | bUnpack (u : Upset)
  | bBswap (u : Upset)
  | bMbsend (u : Upset)
  | bMbrecv (u : Upset)
  | bRecev (u : Upset)
  -- lanes, voting and PIM
  | agreementEpoch (u : WriteUpset := WriteUpset.none)
  | inputAgreementOdd
  | globalSignature (sig : Tri)
  | resyncStart
  | resyncEngineLoaded (differ : Bool)
  | resyncK0Load (differ : Bool)
  | laneRejoin (sig : Tri)
  | resyncStarved
  | signatureSnapshot (pf : Pf)
  | pimWriteback
  | pimRetryEnd (o : RetryOut)
  | scrubLine (e : PimErr)
  -- field groups
  | downstreamFrameTx (g : Fin 4)
  | fieldDownstreamRx (g : Fin 4) (noise : BitVec 96) (railLow : Bool)
  | fieldDownstreamMissing (g : Fin 4)
  | fieldLatchClear (g : Fin 4)
  | fieldUpstreamTx (g : Fin 4) (p : FieldPins)
  | receiverLock (g : Fin 4) (e : LinkEnd)
  | upstreamFrameRx (g : Fin 4) (noise : BitVec 96)
  | upstreamFrameMissing (g : Fin 4)
  | linkLoss (g : Fin 4)
  | linkAccept (g : Fin 4)
  | inputFilterAccept (g : Fin 4) (k : Fin 8)
  | classMismatch (g : Fin 4)
  | laneWordInvalid (g : Fin 4) (lane : Fin 3)
  | fieldSideReset (g : Fin 4)
  | fieldSideRestart (g : Fin 4)
  | testSourcePulseStart (g : Fin 4) (t : Fin 2)
  | testSourcePulseEnd (g : Fin 4) (t : Fin 2)
  | comparatorTest (g : Fin 4) (failed : BitVec 8)
  | testPulseStart (g : Fin 4) (k : Fin 4)
  | testPulseEnd (g : Fin 4) (k : Fin 4)
  | testPulseRequest (pf : Pf) (g : Fin 4) (v : Word)
  | outputStuckOn (g : Fin 4) (k : Fin 4)
  | outputShort (g : Fin 4) (k : Fin 4)
  | openLoad (g : Fin 4) (k : Fin 4)
  | pairDiscrepancy (g : Fin 4) (p : Fin 2)
  | outputTrip (g : Fin 4) (k : Fin 4) (overTemp : Bool)
  | supplyThresholdCross (g : Fin 4) (mv : Nat)
  | supplyCutoff (g : Fin 4)
  | supplyReady (g : Fin 4)
  | reflexEvaluate (u : CopyUpset)
  | resetButtonStuck (r : Fin 64)
  -- axes and monitors
  | axisEdge (ax : Fin 12) (lanes : BitVec 3) (pa pb : Bool)
  | zMark (ax : Fin 12) (lanes : BitVec 3)
  | ssiFrameStart (ax : Fin 12) (dataLow : Bool)
  | ssiFrameEnd (ax : Fin 12) (ra : Word) (errBit complete : Bool) (rb rc : Word := ra)
  | lineFault (ax : Fin 12) (bad : Bool := true)
  | axisFaultClear (ax : Fin 12)
  | slotEvaluate
  | presetApply (ax : Fin 12)
  | speedWindowUpdate (m : Fin 24)
  | monitorEvaluate (m : Fin 24)
  | monitorItemWrite
  -- decimation
  | conversionRound (r : DsRound)
  | dscfgWrite (pf : Pf) (k : Fin 16) (v : Word)
  | fillEnd (k : Fin 16)
  | dsStuck (k : Fin 16)
  | noclk (k : Fin 16)
  | noclkClear (k : Fin 16)
  | decTestStart (pf : Pf) (tmd : Byte)
  | decTestStop (pf : Pf)
  -- train network
  | switchFrameRx (x : Plane) (port : Fin 4) (f : EthFrame)
  | switchFrameTx (x : Plane) (port : Fin 4)
  | p3FrameRx (x : Plane) (f : EthFrame)
  | pdPublish (e : Fin 1024)
  | p3FrameTx (x : Plane)
  | pdTimeout (e : Fin 2048)
  | telegramSend (t : Fin 256) (scUpset : Bool)
  | compareWindowClose (t : Fin 256)
  | telegramTimeout (t : Fin 256)
  | hostTxProduce (pf : Pf) (x : Plane) (v : Word)
  | hostTxSend (x : Plane)
  | hostRxConsume (pf : Pf) (x : Plane) (v : Word)
  | ethLinkChange (x : Plane) (port : Fin 2) (spd : BitVec 2)
  | addressAgeing (x : Plane) (mac : BitVec 48)
  | netCounterClear (pf : Pf) (x : Plane)
  -- bridges
  | canFrameRx (c : Fin 4) (f : CanFrame)
  | canTxStart (c : Fin 4)
  | canTxDone (c : Fin 4) (r : CanTxEnd)
  | canBusError (c : Fin 4) (e : CanErr)
  | canBusoffRecovery (c : Fin 4)
  | canRecoveryCmd (pf : Pf) (c : Fin 4)
  | mvbMasterFrame (fcode : BitVec 4) (addr : BitVec 12)
  | mvbSlaveFrame (line : Plane) (addr : BitVec 12) (data : List Byte)
  | mvbLineBad (line : Plane)
  | mvbSinkStale (e : Fin 256)
  | minivRelease (e : Fin 4096)
  | bridgePoll
  -- time
  | ptpSyncRx (h : PtpHdr) (twoStep : Bool) (origin t2 : Nat)
  | ptpFollowUpRx (h : PtpHdr) (origin : Nat)
  | ptpAnnounceRx (h : PtpHdr) (a : Announce)
  | ptpDelayRespRx (h : PtpHdr) (t4 : Nat)
  | ptpPdelayRx (h : PtpHdr) (kind : PtpKind) (stamp rx : Nat)
  | ptpSyncTx
  | ptpAnnounceTx
  | ptpDelayReqTx
  | ptpMasterLost
  | holdoverLong
  | timeSetCmd (pf : Pf)
  | timeSnapshot (pf : Pf)
  | mtimeSnapshot (pf : Pf)
  | tpinConfigWrite (pf : Pf) (n : Fin 8) (reg : Fin 8) (v : Word)
  | tpinPulseStart (n : Fin 8)
  | tpinPulseEnd (n : Fin 8)
  | tpinCaptureEdge (n : Fin 8) (rising : Bool) (ta tb tc : Nat)
  | rtcSet
  -- host link, mailboxes and doorbells
  | pcieLinkDown
  | functionLevelReset (pf : Pf)
  | perstAssert
  | mbTxWord (pf : Pf) (n : Fin 32) (v : Word)
  | mbTxCommit (pf : Pf) (n : Fin 32) (len : BitVec 5)
  | mbTxDiscard (pf : Pf) (n : Fin 32)
  | mbRxSelect (pf : Pf) (v : Word)
  | mbRxWindowReady (pf : Pf)
  | mbRxPop (pf : Pf) (n : Fin 32)
  | mbEndReset (pf : Pf) (n : Fin 32)
  | mbBindWrite (pf : Pf) (n : Fin 32) (v : Word)
  | c0MessageSend (pf : Pf)
  | privVectorSend (pf : Pf) (v : Fin 4)
  | statusBlockWrite (pf : Pf)
  | msixUnmask (pf : Pf) (v : Fin 32)
  -- recorder
  | recordIntake
  | openRecordExpiry
  | settSealCmd (pf : Pf)
  | settRestartCmd (pf : Pf)
  | settProtect (pf : Pf) (k : Fin 4)
  | settReleaseRange (pf : Pf) (k : Fin 4)
  | settRestartDone
  | settSnapshot (pf : Pf)
  | flashPageWrite (ok : Bool)
  | flushTimeout
  | blockErase (ok : Bool)
  | storeScanDone (discarded : Nat)
  | recordRead (pf : Pf) (lo : Word)
  | recordReadDone (crcBad : Bool := false)
  | extractRequest
  | extractDone
  | settMb2Command
  | flashControllerFault
  -- clocks and power
  | pllLockLost (p : Pll)
  | pllReady (p : Pll)
  | pllOutOfTolerance
  | tcxoFail
  | rtcCrystalFail
  | clockSwitchPllA (pf : Pf)
  | clockSwitchPllB (pf : Pf)
  | rtcSnapshot (pf : Pf)
  | governorTempSample (base die : Int)
  | opPgood
  | opDividerSwitch
  | opResume
  | opPgoodTimeout
  | coreUndervoltage
  | tokenFill (inputUj : Nat)
  | powerStateExit
  | powerStateEarlyExit
  | slumberRequest (pf : Pf)
  | hibernateRequest (pf : Pf)
  | sleepRingWritten
  | slumberWake (c : WakeCause)
  | wakeFallingEdge
  | dormouseDelayEnd (low : Bool)
  | dormouseQuietClear
  -- chain
  | chainTrainSend
  | chainTrainRx (pa : Nat) (valid : Bool) (pb pc : Nat := pa)
  | chainAbsentTimeout
  -- update
  | updOpen
  | updBlock
  | updBlockDone (spare : Bool)
  | updClose
  | updAbort
  | updKey
  | updRevoke
  | guardedVerifyDone (otpOk : Bool)
  | imageActivationDone
  | restoreDone (ok : Bool)
  | loaderRestart (flashOk : Bool)
  | otpProvision (pf : Pf) (v : Word)
  | otpProgramDone
  -- twin
  | twinHbSend
  | twinHbRx (f : TwinRx)
  | twinMirRx (f : TwinRx)
  | twinTrgRx (f : TwinRx)
  | twinMbwRx (f : TwinRx)
  | twinCmpRx (f : TwinRx)
  | twinXfrRx (f : TwinRx)
  | joinPassEnd (last : Bool)
  | joinRestart
  | mirrorOverrun
  | twinGrantRequest
  | heartbeatLost
  | requestRepeat
  | refGrantRx (m : OwlMsg)
  | refDenyRx (m : OwlMsg)
  | renewAckRx (m : OwlMsg)
  | renewAckTimeout
  | refereeRenewRx (m : OwlMsg)
  | refereeRequestRx (m : OwlMsg)
  | refereeRelinquishRx (m : OwlMsg)
  | twinRejoin (pf : Pf)
  -- diagnostics
  | gsageHour
  | diaCounterClear (pf : Pf)
  -- rows that stand last in the table
  | ptpDelayReqRx (h : PtpHdr) (t4 : Nat)
  | pcieLinkUp (gen : BitVec 2) (width : BitVec 4)
  | configSpaceWrite (pf : Pf) (bme msix : Bool)
  | dsStuckClear (k : Fin 16)
  | refereeGrantExpiry (k : Fin 8)
  | twinMirRefresh
  | rtcCrystalReady
deriving DecidableEq, Repr

end Sys2Proof
end

