-- ==== Sys2Proof/Decode.lean ====
section
/-!
DEFINITION. The command that a word spells by the bits of spec/opcode_table.json. No row of the table gives a bit, so no
word spells a command.
-/
namespace Sys2Proof

/-- No row of the table has fields, so every word is turned down. -/
def decodeTableWord (_nbits _w : Nat) : Option Instr := none

end Sys2Proof
end

