-- ==== Sys2Proof/Machine/Bits.lean ====
section
/-!
DEFINITION. Bit fields, sign and zero extension, byte order and saturating counters: the small word operations that the
meanings share (spec/03_program_image.md R56, R57, R59 for the byte order).
-/
namespace Sys2Proof.Machine

/-- The field of `n` bits of `w` whose lowest bit is `lo`, as a number. -/
def fld {k : Nat} (w : BitVec k) (lo n : Nat) : Nat := (w.toNat >>> lo) % 2 ^ n

/-- Bit `i` of `w`. -/
def bit {k : Nat} (w : BitVec k) (i : Nat) : Bool := w.getLsbD i

/-- A bit as a number. -/
def b2n (b : Bool) : Nat := if b then 1 else 0

/-- A bit as a word. -/
def b2w (b : Bool) : Word := if b then 1 else 0

/-- A word from a number (modulo 2^32). -/
def wd (n : Nat) : Word := BitVec.ofNat 32 n

/-- A word from an integer (modulo 2^32). -/
def wi (n : Int) : Word := BitVec.ofInt 32 n

/-- `w` with bit `i` made `b`. -/
def setBit {k : Nat} (w : BitVec k) (i : Nat) (b : Bool) : BitVec k :=
  if b then w ||| BitVec.ofNat k (2 ^ i) else w &&& ~~~ BitVec.ofNat k (2 ^ i)

/-- `w` with the `n` bits from `lo` replaced by the low bits of `v`. -/
def setFld {k : Nat} (w : BitVec k) (lo n : Nat) (v : Nat) : BitVec k :=
  let m := BitVec.ofNat k ((2 ^ n - 1) <<< lo)
  (w &&& ~~~ m) ||| (BitVec.ofNat k (v <<< lo) &&& m)

/-- The low `n` bits of `w`, sign-extended, as an integer. -/
def sfld {k : Nat} (w : BitVec k) (lo n : Nat) : Int :=
  let v := fld w lo n
  if 2 ^ (n - 1) ≤ v ∧ 0 < n then (v : Int) - 2 ^ n else v

/-- A counter that stops at `top`. -/
def satInc (w : Word) (top : Nat) : Word := if w.toNat < top then w + 1 else w

/-- A counter in a field of a register that stops at its greatest value. -/
def satIncFld (w : Word) (lo n : Nat) : Word :=
  let v := fld w lo n
  if v + 1 < 2 ^ n then setFld w lo n (v + 1) else w

/-- A value that stops at `top`. -/
def satNat (top v : Nat) : Nat := if v ≤ top then v else top

/-- The low and high halves of a double word. -/
def lo32 (d : Dword) : Word := d.truncate 32
def hi32 (d : Dword) : Word := (d >>> 32).truncate 32

/-- A double word from its halves. -/
def dword (hi lo : Word) : Dword := (hi.zeroExtend 64 <<< 32) ||| lo.zeroExtend 64

/-- The two halves of a 64-bit number. -/
def loN (n : Nat) : Word := BitVec.ofNat 32 n
def hiN (n : Nat) : Word := BitVec.ofNat 32 (n >>> 32)

/-- The number in two registers, low word first. -/
def nat64 (lo hi : Word) : Nat := hi.toNat * 2 ^ 32 + lo.toNat

/-- Byte `i` of a value, byte 0 in bits [7:0]. -/
def byteOf {k : Nat} (w : BitVec k) (i : Nat) : Byte := BitVec.ofNat 8 (w.toNat >>> (8 * i))

/-- The `n` bytes of a value, least significant first. -/
def bytesLE {k : Nat} (w : BitVec k) (n : Nat) : List Byte := (List.range n).map (byteOf w)

/-- The `n` bytes of a number, least significant first. -/
def natBytesLE (w n : Nat) : List Byte := (List.range n).map fun i => BitVec.ofNat 8 (w >>> (8 * i))

/-- The `n` bytes of a number, most significant first. -/
def natBytesBE (w n : Nat) : List Byte := (natBytesLE w n).reverse

/-- The number whose bytes these are, least significant first. -/
def leNat (bs : List Byte) : Nat := bs.foldr (fun b a => a * 256 + b.toNat) 0

/-- The number whose bytes these are, most significant first. -/
def beNat (bs : List Byte) : Nat := bs.foldl (fun a b => a * 256 + b.toNat) 0

/-- A word whose byte order is reversed. -/
def bswap32 (w : Word) : Word := wd (beNat (bytesLE w 4))

/-- How many bits of `w` below `n` are 1. -/
def popCount {k : Nat} (w : BitVec k) : Nat := (List.range k).countP fun i => w.getLsbD i

/-- The word with bit `i` = `f i` for i below 32. -/
def packBits (n : Nat) (f : Nat → Bool) : Word :=
  (List.range n).foldl (fun a i => if f i then a ||| wd (2 ^ i) else a) 0

/-- The middle one of three numbers (R169, R257). -/
def median3 (a b c : Int) : Int := max (min a b) (min (max a b) c)

/-- The bit that at least two of three have. -/
def maj3 (a b c : Bool) : Bool := (a && b) || (a && c) || (b && c)

/-- Whole units of `u` in `t`, rounded up. -/
def ceilDiv (t u : Nat) : Nat := (t + u - 1) / u

/-- The first multiple of `u` after `t`. -/
def nextWhole (t u : Nat) : Nat := (t / u + 1) * u

/-- The first multiple of `u` at or after `t`. -/
def wholeAtOrAfter (t u : Nat) : Nat := ceilDiv t u * u

/-- A list with the element at `i` changed. -/
def modAt {α : Type} (l : List α) (i : Nat) (f : α → α) : List α :=
  match l, i with
  | [], _ => []
  | a :: r, 0 => f a :: r
  | a :: r, i + 1 => a :: modAt r i f

/-- A vector with the element at `i` changed. -/
def Vec.upd {α : Type} {n : Nat} (v : Vector α n) (i : Fin n) (f : α → α) : Vector α n :=
  v.set i.val (f (v[i.val]'i.isLt)) i.isLt

/-- The element at a number, or `d` beyond the end. -/
def Vec.at {α : Type} {n : Nat} (v : Vector α n) (i : Nat) (d : α) : α := v.toList.getD i d

/-- The vector with the element at a number changed; unchanged beyond the end. -/
def Vec.updAt {α : Type} {n : Nat} (v : Vector α n) (i : Nat) (f : α → α) : Vector α n :=
  if h : i < n then v.set i (f (v[i]'h)) h else v

/-- Bits of a number from a list of conditions, bit 0 first. -/
def flagsN (l : List Bool) : Nat := l.foldr (fun b n => b2n b + 2 * n) 0

end Sys2Proof.Machine
end

