-- ==== Sys2Proof/Machine/Crc.lean ====
section
/-!
DEFINITION. The cyclic codes of the module, computed bit by bit (spec/03_program_image.md R86, spec/06_triplex_execution.md
R171, spec/07_field_io.md R206, R209, spec/11_train_network.md R305, spec/15_sett_recorder.md R390,
spec/18_twin_modules.md R460).
-/
namespace Sys2Proof.Machine

/-- The `n` low bits of a number, most significant first. -/
def bitsMsb (v n : Nat) : List Bool := (List.range n).map fun i => v.testBit (n - 1 - i)

/-- The bits of bytes, each byte most significant bit first. -/
def bytesMsb (bs : List Byte) : List Bool := bs.flatMap fun b => bitsMsb b.toNat 8

/-- One bit enters a code that is not reflected. -/
def crcStep {w : Nat} (poly : BitVec w) (r : BitVec w) (b : Bool) : BitVec w :=
  if r.msb != b then (r <<< 1) ^^^ poly else r <<< 1

/-- A code that is not reflected, over bits in the order given. -/
def crcMsb {w : Nat} (poly init : BitVec w) (bits : List Bool) : BitVec w := bits.foldl (crcStep poly) init

/-- One bit enters a reflected code. -/
def crcStepR {w : Nat} (poly : BitVec w) (r : BitVec w) (b : Bool) : BitVec w :=
  if r.getLsbD 0 != b then (r >>> 1) ^^^ poly else r >>> 1

/-- A reflected code over bytes, each least significant bit first; `poly` is the reflected polynomial. -/
def crcLsb {w : Nat} (poly init : BitVec w) (bs : List Byte) : BitVec w :=
  bs.foldl (fun r b => (List.range 8).foldl (fun r i => crcStepR poly r (b.getLsbD i)) r) init

/-- The CRC-8 of lane words and of HCHK (R206): polynomial 0x2f, initial value 0xff. -/
def crc8 (bits : List Bool) : Byte := crcMsb 0x2f 0xff bits

/-- The CRC-16 of upstream frames (R209): polynomial 0x8bb7, initial value 0xffff. -/
def crc16 (bits : List Bool) : Half := crcMsb 0x8bb7 0xffff bits

/-- The Ethernet CRC-32 of IEEE 802.3 over bytes. -/
def crc32 (bs : List Byte) : Word := ~~~ crcLsb (0xedb88320 : Word) 0xffffffff bs

/-- The CRC-32C (Castagnoli) over bytes. -/
def crc32c (bs : List Byte) : Word := ~~~ crcLsb (0x82f63b78 : Word) 0xffffffff bs

end Sys2Proof.Machine
end

