-- ==== Sys2Proof/Config.lean ====
section
/-!
DEFINITION. What one module is made with and the spec gives no number for, and the free values of log entry 2. Every
constant here is opaque: nothing can be proved of its value, so a statement holds for every value of it.
-/
namespace Sys2Proof.Config

/-- The serial number of SYS.SERIAL (spec/17_start_up_and_update.md R451: per module). -/
opaque serial : Dword

/-- The build number of SYS.BUILD (R451: per build). -/
opaque build : Half

/-- The MAC addresses of planes A (0) and B (1) (spec/11_train_network.md R312: per module). -/
opaque mac : Nat → BitVec 48

/-- The design version of a field side, detail slot 10 (spec/07_field_io.md R210). -/
opaque fsVersion : Nat → Half

/-- The `n`-th 64-bit free value that a run draws. -/
opaque freeSig : Nat → Dword

/-- What the 256 pipe working words of a lane add to the task signature for the `n`-th filling: the spec names no content for
them (spec/06_triplex_execution.md R163, R171). -/
opaque pipeSig : Nat → Dword

/-- Pipe word `i` of the `n`-th filling (spec/06_triplex_execution.md R163). -/
opaque pipeWord : Nat → Byte → Word

/-- An error in three or more line-address bits has syndrome zero in all four codewords, so that it escapes detection
(spec/06_triplex_execution.md R180). -/
opaque pimEscapes : BitVec 20 → Bool

/-- An error in three or more bits of one codeword is found uncorrectable; else it is not found, or miscorrected
(spec/06_triplex_execution.md R180 states no outcome for it). -/
opaque pimFinds : BitVec 72 → Bool

/-- Where ISO 11898-1 lets the receive error counter of an error-passive channel fall to after a good frame: 119 and this
number modulo 9 (spec/12_bridges.md R319). -/
opaque canRec : Nat → Nat

/-- The device status word of the MVB interface, but for the capabilities that it does not report (spec/12_bridges.md
R321). -/
opaque mvbStatus : Half

/-- The rate correction, in units of 2^-32, that stands for an offset of `o` ns divided by 2^k: spec/13_time.md R346 and
R357 give no common unit for the two. -/
opaque ratePart : Nat → Int → Int

/-- The clock identity of the ordinary clock (spec/13_time.md R342). -/
opaque clockId : Dword

/-- The bytes of a frame's content, for those that its fields in the model do not give (spec/11_train_network.md R293). -/
opaque netBytes : NetBody → List Byte

/-- What a word of a function's configuration space reads, but for what the spec gives (spec/02_register_pages.md R30). -/
opaque cfgSpace : Nat → Nat → Word

/-- The link delay that the peer-to-peer transparent clock of a plane measures on a port, in ns (spec/13_time.md R344). -/
opaque linkDelay : Nat → Nat → Int

/-- The coefficients c0 to c17 of Dusk's FIR, signed 24 bits (spec/10_decimation.md R272). -/
opaque firc : Nat → BitVec 24

/-- The polyphase interpolator of the resampler: the value for a phase of 0 to 63 from the last sixteen values, newest first
(spec/10_decimation.md R279). -/
opaque resample : Nat → List Int → Int

/-- The delay of the TWIN link in ns, measured from the heartbeats of both directions (spec/18_twin_modules.md R461). -/
opaque twinDelay : Int

/-- The deviation in ppm that the clock monitor measures of PLL-A (0) or PLL-B (1) in the window before an instant
(spec/16_clocks_and_power.md R427). -/
opaque fmon : Nat → Nat → Word

end Sys2Proof.Config
end

