-- ==== Sys2Proof/Machine/Mem.lean ====
section
/-!
DEFINITION. The two sparse stores that State holds: byte memories (lists of `Host.Cell` in one canonical form) and register
or table maps (word cells in the same form). An address that is not listed reads as a default: a memory's erased byte, or a
register's reset value (spec/02_register_pages.md R36, spec/03_program_image.md R59, spec/17_start_up_and_update.md R438).
-/
namespace Sys2Proof.Machine

/-- A sparse store of values by address. -/
abbrev Store (α : Type) := List (Nat × α)

/-- What the store reads at `a`; `d` gives the value of an address that is not listed. -/
def Store.get {α : Type} (d : Nat → α) : Store α → Nat → α
  | [], a => d a
  | (b, v) :: r, a => if a = b then v else if a < b then d a else Store.get d r a

/-- The store with `v` at `a`, keeping the canonical form: rising addresses and no default value listed. -/
def Store.put {α : Type} [DecidableEq α] (d : Nat → α) : Store α → Nat → α → Store α
  | [], a, v => if v = d a then [] else [(a, v)]
  | (b, w) :: r, a, v =>
    if a < b then (if v = d a then (b, w) :: r else (a, v) :: (b, w) :: r)
    else if a = b then (if v = d a then r else (a, v) :: r)
    else (b, w) :: Store.put d r a v

/-- Every listed address is above `lo`, the addresses rise strictly, and no entry equals what an unlisted address reads. -/
def Store.wfFrom {α : Type} [DecidableEq α] (d : Nat → α) : Option Nat → Store α → Bool
  | _, [] => true
  | lo, (a, v) :: r =>
    (match lo with
      | none => true
      | some l => decide (l < a)) && decide (v ≠ d a) && Store.wfFrom d (some a) r

/-- The canonical form of a store. -/
def Store.wf {α : Type} [DecidableEq α] (d : Nat → α) (m : Store α) : Bool := Store.wfFrom d none m

/-- A byte memory. -/
abbrev Memory := List Host.Cell

/-- The byte a memory holds at `a`; `e` is what an unlisted address reads as. -/
def Memory.read (e : Byte) (m : Memory) (a : Nat) : Byte := Store.get (fun _ => e) m a

/-- The memory with byte `v` at `a`. -/
def Memory.write (e : Byte) (m : Memory) (a : Nat) (v : Byte) : Memory := Store.put (fun _ => e) m a v

/-- The canonical form of a memory. -/
def Memory.wf (e : Byte) (m : Memory) : Bool := Store.wf (fun _ => e) m

/-- `n` bytes from `a` on. -/
def Memory.readBytes (e : Byte) (m : Memory) (a n : Nat) : List Byte :=
  (List.range n).map fun i => m.read e (a + i)

/-- The bytes written from `a` on. -/
def Memory.writeBytes (e : Byte) (m : Memory) (a : Nat) : List Byte → Memory
  | [] => m
  | b :: r => Memory.writeBytes e (m.write e a b) (a + 1) r

/-- The 32-bit word at byte address `a`, least significant byte first (R59). -/
def Memory.readWord (e : Byte) (m : Memory) (a : Nat) : Word := wd (leNat (m.readBytes e a 4))

/-- The memory with a 32-bit word at byte address `a`, least significant byte first. -/
def Memory.writeWord (e : Byte) (m : Memory) (a : Nat) (v : Word) : Memory := m.writeBytes e a (bytesLE v 4)

end Sys2Proof.Machine
end

