-- ==== Sys2Proof/Machine/RegMap.lean ====
section
/-!
DEFINITION. The map of the 38 register pages: where every register stands in BAR0 (`Reg.<page><Register>`), its access
code, the bits its map defines and its reset value (spec/02_register_pages.md R34, R36, R39, R40 and the page tables of
the owning chapters).
-/
namespace Sys2Proof.Machine

/-- The access codes of R39. -/
inductive Acc where
  | ro | rw | w1c | wo | rwl | rws
deriving DecidableEq, Repr

/-- One line of a page table: a register or an array of registers (`n` of them `s` bytes apart, each of those `n2` times
`s2` bytes apart), its access code, its defined writable bits and its reset value. -/
structure RegDef where
  off  : Nat
  n    : Nat
  s    : Nat
  n2   : Nat
  s2   : Nat
  acc  : Acc
  mask : Word
  rst  : Word
deriving DecidableEq, Repr

/-- The offset lies on one of the registers of the line. -/
def RegDef.covers (d : RegDef) (off : Nat) : Bool :=
  d.off ≤ off &&
    (let r := off - d.off
     (List.range d.n).any fun i => decide (i * d.s ≤ r) &&
       (let q := r - i * d.s
        if d.n2 ≤ 1 then q == 0 else q % d.s2 == 0 && decide (q / d.s2 < d.n2)))

/-- One page of R34: number, type code, index of the page among the pages of its kind, safety-relevant, the offset lines. -/
structure PageDef where
  page   : Nat
  code   : Half
  inst   : Nat
  safety : Bool
  rows   : List RegDef

/-! Page SYS (spec/17_start_up_and_update.md R451). -/
@[inline] def Reg.sysPid : Nat := 0x0
@[inline] def Reg.sysCaps : Nat := 0x4
@[inline] def Reg.sysCtrl : Nat := 0x8
@[inline] def Reg.sysStat : Nat := 0xc
@[inline] def Reg.sysEvtRaw : Nat := 0x10
@[inline] def Reg.sysEvtMask : Nat := 0x14
@[inline] def Reg.sysEvtPend : Nat := 0x18
@[inline] def Reg.sysLock : Nat := 0x1c
@[inline] def Reg.sysCompat : Nat := 0x20
@[inline] def Reg.sysBuild : Nat := 0x24
@[inline] def Reg.sysSerialLo : Nat := 0x28
@[inline] def Reg.sysSerialHi : Nat := 0x2c
@[inline] def Reg.sysRstcause : Nat := 0x30
@[inline] def Reg.sysBoottime : Nat := 0x34
@[inline] def Reg.sysRstreq : Nat := 0x38
@[inline] def Reg.sysSleepreq : Nat := 0x3c
@[inline] def Reg.sysAlarmLo : Nat := 0x40
@[inline] def Reg.sysAlarmHi : Nat := 0x44
@[inline] def Reg.sysSnap : Nat := 0x48
@[inline] def Reg.sysMtimeLo : Nat := 0x4c
@[inline] def Reg.sysMtimeHi : Nat := 0x50

/-- The registers of page SYS. -/
def sysRows : List RegDef :=
  [
    ⟨0x0, 1, 0x0, 1, 0x0, .ro, 0x0, 0x0⟩,
    ⟨0x4, 1, 0x0, 1, 0x0, .ro, 0x0, 0x26⟩,
    ⟨0x8, 1, 0x0, 1, 0x0, .ro, 0x0, 0x0⟩,
    ⟨0xc, 1, 0x0, 1, 0x0, .ro, 0x0, 0x0⟩,
    ⟨0x10, 1, 0x0, 1, 0x0, .w1c, 0xc0000003, 0x0⟩,
    ⟨0x14, 1, 0x0, 1, 0x0, .rw, 0xc0000003, 0x0⟩,
    ⟨0x18, 1, 0x0, 1, 0x0, .ro, 0x0, 0x0⟩,
    ⟨0x1c, 1, 0x0, 1, 0x0, .rw, 0xffffffff, 0x0⟩,
    ⟨0x20, 1, 0x0, 1, 0x0, .ro, 0x0, 0x1⟩,
    ⟨0x24, 1, 0x0, 1, 0x0, .ro, 0x0, 0x0⟩,
    ⟨0x28, 1, 0x0, 1, 0x0, .ro, 0x0, 0x0⟩,
    ⟨0x2c, 1, 0x0, 1, 0x0, .ro, 0x0, 0x0⟩] ++
  [
    ⟨0x30, 1, 0x0, 1, 0x0, .ro, 0x0, 0x0⟩,
    ⟨0x34, 1, 0x0, 1, 0x0, .ro, 0x0, 0x0⟩,
    ⟨0x38, 1, 0x0, 1, 0x0, .wo, 0xffffffff, 0x0⟩,
    ⟨0x3c, 1, 0x0, 1, 0x0, .wo, 0xffffffff, 0x0⟩,
    ⟨0x40, 1, 0x0, 1, 0x0, .rw, 0xffffffff, 0x0⟩,
    ⟨0x44, 1, 0x0, 1, 0x0, .rw, 0xffffffff, 0x0⟩,
    ⟨0x48, 1, 0x0, 1, 0x0, .wo, 0xffffffff, 0x0⟩,
    ⟨0x4c, 1, 0x0, 1, 0x0, .ro, 0x0, 0x0⟩,
    ⟨0x50, 1, 0x0, 1, 0x0, .ro, 0x0, 0x0⟩]

/-! Page CHN (spec/17_start_up_and_update.md R453). -/
@[inline] def Reg.chnPid : Nat := 0x1000
@[inline] def Reg.chnCaps : Nat := 0x1004
@[inline] def Reg.chnCtrl : Nat := 0x1008
@[inline] def Reg.chnStat : Nat := 0x100c
@[inline] def Reg.chnEvtRaw : Nat := 0x1010
@[inline] def Reg.chnEvtMask : Nat := 0x1014
@[inline] def Reg.chnEvtPend : Nat := 0x1018
@[inline] def Reg.chnLock : Nat := 0x101c
@[inline] def Reg.chnPos : Nat := 0x1020
@[inline] def Reg.chnTrains : Nat := 0x1024
@[inline] def Reg.chnAddrtime : Nat := 0x1028

/-- The registers of page CHN. -/
def chnRows : List RegDef :=
  [
    ⟨0x0, 1, 0x0, 1, 0x0, .ro, 0x0, 0x0⟩,
    ⟨0x4, 1, 0x0, 1, 0x0, .ro, 0x0, 0x10⟩,
    ⟨0x8, 1, 0x0, 1, 0x0, .ro, 0x0, 0x0⟩,
    ⟨0xc, 1, 0x0, 1, 0x0, .ro, 0x0, 0x0⟩,
    ⟨0x10, 1, 0x0, 1, 0x0, .w1c, 0xc0000007, 0x0⟩,
    ⟨0x14, 1, 0x0, 1, 0x0, .rw, 0xc0000007, 0x0⟩,
    ⟨0x18, 1, 0x0, 1, 0x0, .ro, 0x0, 0x0⟩,
    ⟨0x1c, 1, 0x0, 1, 0x0, .rw, 0xffffffff, 0x0⟩,
    ⟨0x20, 1, 0x0, 1, 0x0, .ro, 0x0, 0x0⟩,
    ⟨0x24, 1, 0x0, 1, 0x0, .ro, 0x0, 0x0⟩,
    ⟨0x28, 1, 0x0, 1, 0x0, .ro, 0x0, 0x0⟩]

/-! Page CLK (spec/16_clocks_and_power.md R427). -/
@[inline] def Reg.clkPid : Nat := 0x2000
@[inline] def Reg.clkCaps : Nat := 0x2004
@[inline] def Reg.clkCtrl : Nat := 0x2008
@[inline] def Reg.clkStat : Nat := 0x200c
@[inline] def Reg.clkEvtRaw : Nat := 0x2010
@[inline] def Reg.clkEvtMask : Nat := 0x2014
@[inline] def Reg.clkEvtPend : Nat := 0x2018
@[inline] def Reg.clkLock : Nat := 0x201c
@[inline] def Reg.clkSwcmd : Nat := 0x2020
@[inline] def Reg.clkSwcnt : Nat := 0x2024
@[inline] def Reg.clkFmona : Nat := 0x2028
@[inline] def Reg.clkFmonb : Nat := 0x202c
@[inline] def Reg.clkRtcsnap : Nat := 0x2030
@[inline] def Reg.clkRtcLo : Nat := 0x2034
@[inline] def Reg.clkRtcHi : Nat := 0x2038
@[inline] def Reg.clkGate (i : Nat) : Nat := 0x2040 + 0x4 * i

/-- The registers of page CLK. -/
def clkRows : List RegDef :=
  [
    ⟨0x0, 1, 0x0, 1, 0x0, .ro, 0x0, 0x0⟩,
    ⟨0x4, 1, 0x0, 1, 0x0, .ro, 0x0, 0x1005⟩,
    ⟨0x8, 1, 0x0, 1, 0x0, .ro, 0x0, 0x0⟩,
    ⟨0xc, 1, 0x0, 1, 0x0, .ro, 0x0, 0x0⟩,
    ⟨0x10, 1, 0x0, 1, 0x0, .w1c, 0xc000003f, 0x0⟩,
    ⟨0x14, 1, 0x0, 1, 0x0, .rw, 0xc000003f, 0x0⟩,
    ⟨0x18, 1, 0x0, 1, 0x0, .ro, 0x0, 0x0⟩,
    ⟨0x1c, 1, 0x0, 1, 0x0, .rw, 0xffffffff, 0x0⟩,
    ⟨0x20, 1, 0x0, 1, 0x0, .wo, 0xffffffff, 0x0⟩,
    ⟨0x24, 1, 0x0, 1, 0x0, .ro, 0x0, 0x0⟩,
    ⟨0x28, 1, 0x0, 1, 0x0, .ro, 0x0, 0x0⟩,
    ⟨0x2c, 1, 0x0, 1, 0x0, .ro, 0x0, 0x0⟩] ++
  [
    ⟨0x30, 1, 0x0, 1, 0x0, .wo, 0xffffffff, 0x0⟩,
    ⟨0x34, 1, 0x0, 1, 0x0, .ro, 0x0, 0x0⟩,
    ⟨0x38, 1, 0x0, 1, 0x0, .ro, 0x0, 0x0⟩,
    ⟨0x40, 16, 0x4, 1, 0x0, .rwl, 0x7, 0x3⟩]

/-! Page PWR (spec/16_clocks_and_power.md R429, R430). -/
@[inline] def Reg.pwrPid : Nat := 0x3000
@[inline] def Reg.pwrCaps : Nat := 0x3004
@[inline] def Reg.pwrCtrl : Nat := 0x3008
@[inline] def Reg.pwrStat : Nat := 0x300c
@[inline] def Reg.pwrEvtRaw : Nat := 0x3010
@[inline] def Reg.pwrEvtMask : Nat := 0x3014
@[inline] def Reg.pwrEvtPend : Nat := 0x3018
@[inline] def Reg.pwrLock : Nat := 0x301c
@[inline] def Reg.pwrPbudget : Nat := 0x3020
@[inline] def Reg.pwrOplim : Nat := 0x3024
@[inline] def Reg.pwrTokbal : Nat := 0x3028
@[inline] def Reg.pwrTokmax : Nat := 0x302c
@[inline] def Reg.pwrPin : Nat := 0x3030
@[inline] def Reg.pwrTemp : Nat := 0x3034
@[inline] def Reg.pwrKt : Nat := 0x3038
@[inline] def Reg.pwrEpe0 : Nat := 0x3040
@[inline] def Reg.pwrEpe1 : Nat := 0x3044
@[inline] def Reg.pwrEpe2 : Nat := 0x3048
@[inline] def Reg.pwrEpe3 : Nat := 0x304c
@[inline] def Reg.pwrWakeatLo : Nat := 0x3050
@[inline] def Reg.pwrWakeatHi : Nat := 0x3054
@[inline] def Reg.pwrWakecode : Nat := 0x3058
@[inline] def Reg.pwrDozecnt : Nat := 0x3060
@[inline] def Reg.pwrNapcnt : Nat := 0x3064
@[inline] def Reg.pwrOpcnt : Nat := 0x3068
@[inline] def Reg.pwrSlpstat : Nat := 0x306c

/-- The registers of page PWR. -/
def pwrRows : List RegDef :=
  [
    ⟨0x0, 1, 0x0, 1, 0x0, .ro, 0x0, 0x0⟩,
    ⟨0x4, 1, 0x0, 1, 0x0, .ro, 0x0, 0x54⟩,
    ⟨0x8, 1, 0x0, 1, 0x0, .rwl, 0xf, 0x3⟩,
    ⟨0xc, 1, 0x0, 1, 0x0, .ro, 0x0, 0x0⟩,
    ⟨0x10, 1, 0x0, 1, 0x0, .w1c, 0xc00000ff, 0x0⟩,
    ⟨0x14, 1, 0x0, 1, 0x0, .rw, 0xc00000ff, 0x0⟩,
    ⟨0x18, 1, 0x0, 1, 0x0, .ro, 0x0, 0x0⟩,
    ⟨0x1c, 1, 0x0, 1, 0x0, .rw, 0xffffffff, 0x0⟩,
    ⟨0x20, 1, 0x0, 1, 0x0, .rwl, 0xffff, 0x8ca0⟩,
    ⟨0x24, 1, 0x0, 1, 0x0, .rwl, 0x303, 0x200⟩,
    ⟨0x28, 1, 0x0, 1, 0x0, .ro, 0x0, 0x0⟩,
    ⟨0x2c, 1, 0x0, 1, 0x0, .rwl, 0xffffffff, 0x4e20⟩] ++
  [
    ⟨0x30, 1, 0x0, 1, 0x0, .ro, 0x0, 0x0⟩,
    ⟨0x34, 1, 0x0, 1, 0x0, .ro, 0x0, 0x0⟩,
    ⟨0x38, 1, 0x0, 1, 0x0, .ro, 0x0, 0x100⟩,
    ⟨0x40, 1, 0x0, 1, 0x0, .ro, 0x0, 0x960⟩,
    ⟨0x44, 1, 0x0, 1, 0x0, .ro, 0x0, 0x852⟩,
    ⟨0x48, 1, 0x0, 1, 0x0, .ro, 0x0, 0x6b8⟩,
    ⟨0x4c, 1, 0x0, 1, 0x0, .ro, 0x0, 0x834⟩,
    ⟨0x50, 1, 0x0, 1, 0x0, .rwl, 0xffffffff, 0x0⟩,
    ⟨0x54, 1, 0x0, 1, 0x0, .rwl, 0xffffffff, 0x0⟩,
    ⟨0x58, 1, 0x0, 1, 0x0, .rwl, 0xffffff, 0x0⟩,
    ⟨0x60, 1, 0x0, 1, 0x0, .ro, 0x0, 0x0⟩,
    ⟨0x64, 1, 0x0, 1, 0x0, .ro, 0x0, 0x0⟩] ++
  [
    ⟨0x68, 1, 0x0, 1, 0x0, .ro, 0x0, 0x0⟩,
    ⟨0x6c, 1, 0x0, 1, 0x0, .ro, 0x0, 0x0⟩]

/-! Page DIA (spec/19_faults_and_diagnostics.md R487). -/
@[inline] def Reg.diaPid : Nat := 0x4000
@[inline] def Reg.diaCaps : Nat := 0x4004
@[inline] def Reg.diaCtrl : Nat := 0x4008
@[inline] def Reg.diaStat : Nat := 0x400c
@[inline] def Reg.diaEvtRaw : Nat := 0x4010
@[inline] def Reg.diaEvtMask : Nat := 0x4014
@[inline] def Reg.diaEvtPend : Nat := 0x4018
@[inline] def Reg.diaLock : Nat := 0x401c
@[inline] def Reg.diaSafecause : Nat := 0x4020
@[inline] def Reg.diaSafepay : Nat := 0x4024
@[inline] def Reg.diaSafetLo : Nat := 0x4028
@[inline] def Reg.diaSafetHi : Nat := 0x402c
@[inline] def Reg.diaPrevsafe : Nat := 0x4030
@[inline] def Reg.diaLastflt : Nat := 0x4034
@[inline] def Reg.diaLastfltTLo : Nat := 0x4038
@[inline] def Reg.diaLastfltTHi : Nat := 0x403c
@[inline] def Reg.diaFltcnt : Nat := 0x4040
@[inline] def Reg.diaEvtcnt : Nat := 0x4044
@[inline] def Reg.diaDegr : Nat := 0x4048
@[inline] def Reg.diaBistres : Nat := 0x404c
@[inline] def Reg.diaCntclr : Nat := 0x4050
@[inline] def Reg.diaGsmax : Nat := 0x4054
@[inline] def Reg.diaGsage (i : Nat) : Nat := 0x4060 + 0x4 * i
@[inline] def Reg.diaFcnt (i : Nat) : Nat := 0x4100 + 0x4 * i

/-- The registers of page DIA. -/
def diaRows : List RegDef :=
  [
    ⟨0x0, 1, 0x0, 1, 0x0, .ro, 0x0, 0x0⟩,
    ⟨0x4, 1, 0x0, 1, 0x0, .ro, 0x0, 0x40⟩,
    ⟨0x8, 1, 0x0, 1, 0x0, .ro, 0x0, 0x0⟩,
    ⟨0xc, 1, 0x0, 1, 0x0, .ro, 0x0, 0x0⟩,
    ⟨0x10, 1, 0x0, 1, 0x0, .w1c, 0xc000000f, 0x0⟩,
    ⟨0x14, 1, 0x0, 1, 0x0, .rw, 0xc000000f, 0x0⟩,
    ⟨0x18, 1, 0x0, 1, 0x0, .ro, 0x0, 0x0⟩,
    ⟨0x1c, 1, 0x0, 1, 0x0, .rw, 0xffffffff, 0x0⟩,
    ⟨0x20, 1, 0x0, 1, 0x0, .ro, 0x0, 0x0⟩,
    ⟨0x24, 1, 0x0, 1, 0x0, .ro, 0x0, 0x0⟩,
    ⟨0x28, 1, 0x0, 1, 0x0, .ro, 0x0, 0x0⟩,
    ⟨0x2c, 1, 0x0, 1, 0x0, .ro, 0x0, 0x0⟩] ++
  [
    ⟨0x30, 1, 0x0, 1, 0x0, .ro, 0x0, 0x0⟩,
    ⟨0x34, 1, 0x0, 1, 0x0, .ro, 0x0, 0x0⟩,
    ⟨0x38, 1, 0x0, 1, 0x0, .ro, 0x0, 0x0⟩,
    ⟨0x3c, 1, 0x0, 1, 0x0, .ro, 0x0, 0x0⟩,
    ⟨0x40, 1, 0x0, 1, 0x0, .ro, 0x0, 0x0⟩,
    ⟨0x44, 1, 0x0, 1, 0x0, .ro, 0x0, 0x0⟩,
    ⟨0x48, 1, 0x0, 1, 0x0, .ro, 0x0, 0x0⟩,
    ⟨0x4c, 1, 0x0, 1, 0x0, .ro, 0x0, 0x0⟩,
    ⟨0x50, 1, 0x0, 1, 0x0, .wo, 0xffffffff, 0x0⟩,
    ⟨0x54, 1, 0x0, 1, 0x0, .rw, 0xffff, 0x18⟩,
    ⟨0x60, 4, 0x4, 1, 0x0, .ro, 0x0, 0x0⟩,
    ⟨0x100, 64, 0x4, 1, 0x0, .ro, 0x0, 0x0⟩]

/-! Page ENG (spec/05_tasks_and_modes.md R155). -/
@[inline] def Reg.engPid : Nat := 0x8000
@[inline] def Reg.engCaps : Nat := 0x8004
@[inline] def Reg.engCtrl : Nat := 0x8008
@[inline] def Reg.engStat : Nat := 0x800c
@[inline] def Reg.engEvtRaw : Nat := 0x8010
@[inline] def Reg.engEvtMask : Nat := 0x8014
@[inline] def Reg.engEvtPend : Nat := 0x8018
@[inline] def Reg.engLock : Nat := 0x801c
@[inline] def Reg.engEpochLo : Nat := 0x8020
@[inline] def Reg.engEpochHi : Nat := 0x8024
@[inline] def Reg.engOvrtask : Nat := 0x8028
@[inline] def Reg.engOvrtLo : Nat := 0x802c
@[inline] def Reg.engOvrtHi : Nat := 0x8030
@[inline] def Reg.engChgpause : Nat := 0x8034
@[inline] def Reg.engChgmode : Nat := 0x8038

/-- The registers of page ENG. -/
def engRows : List RegDef :=
  [
    ⟨0x0, 1, 0x0, 1, 0x0, .ro, 0x0, 0x0⟩,
    ⟨0x4, 1, 0x0, 1, 0x0, .ro, 0x0, 0x308⟩,
    ⟨0x8, 1, 0x0, 1, 0x0, .rw, 0x1, 0x0⟩,
    ⟨0xc, 1, 0x0, 1, 0x0, .ro, 0x0, 0x0⟩,
    ⟨0x10, 1, 0x0, 1, 0x0, .w1c, 0xc000003f, 0x0⟩,
    ⟨0x14, 1, 0x0, 1, 0x0, .rw, 0xc000003f, 0x0⟩,
    ⟨0x18, 1, 0x0, 1, 0x0, .ro, 0x0, 0x0⟩,
    ⟨0x1c, 1, 0x0, 1, 0x0, .rw, 0xffffffff, 0x0⟩,
    ⟨0x20, 1, 0x0, 1, 0x0, .ro, 0x0, 0x0⟩,
    ⟨0x24, 1, 0x0, 1, 0x0, .ro, 0x0, 0x0⟩,
    ⟨0x28, 1, 0x0, 1, 0x0, .ro, 0x0, 0x0⟩,
    ⟨0x2c, 1, 0x0, 1, 0x0, .ro, 0x0, 0x0⟩] ++
  [
    ⟨0x30, 1, 0x0, 1, 0x0, .ro, 0x0, 0x0⟩,
    ⟨0x34, 1, 0x0, 1, 0x0, .ro, 0x0, 0x0⟩,
    ⟨0x38, 1, 0x0, 1, 0x0, .rw, 0x1, 0x0⟩]

/-! Page TSK (spec/05_tasks_and_modes.md R157). -/
@[inline] def Reg.tskPid : Nat := 0x9000
@[inline] def Reg.tskCaps : Nat := 0x9004
@[inline] def Reg.tskCtrl : Nat := 0x9008
@[inline] def Reg.tskStat : Nat := 0x900c
@[inline] def Reg.tskEvtRaw : Nat := 0x9010
@[inline] def Reg.tskEvtMask : Nat := 0x9014
@[inline] def Reg.tskEvtPend : Nat := 0x9018
@[inline] def Reg.tskLock : Nat := 0x901c
@[inline] def Reg.tskTcfg (i : Nat) : Nat := 0x9020 + 0x20 * i
@[inline] def Reg.tskTperiod (i : Nat) : Nat := 0x9024 + 0x20 * i
@[inline] def Reg.tskTact (i : Nat) : Nat := 0x9028 + 0x20 * i
@[inline] def Reg.tskTlastpe (i : Nat) : Nat := 0x902c + 0x20 * i
@[inline] def Reg.tskTmaxpe (i : Nat) : Nat := 0x9030 + 0x20 * i
@[inline] def Reg.tskTslack (i : Nat) : Nat := 0x9034 + 0x20 * i
@[inline] def Reg.tskTdefer (i : Nat) : Nat := 0x9038 + 0x20 * i
@[inline] def Reg.tskTwarn (i : Nat) : Nat := 0x903c + 0x20 * i

/-- The registers of page TSK; CTRL, to which its chapter gives no fields, is read-only (DESIGN CHOICE, log entry 61). -/
def tskRows : List RegDef :=
  [
    ⟨0x0, 1, 0x0, 1, 0x0, .ro, 0x0, 0x0⟩,
    ⟨0x4, 1, 0x0, 1, 0x0, .ro, 0x0, 0x8⟩,
    ⟨0x8, 1, 0x0, 1, 0x0, .ro, 0x0, 0x0⟩,
    ⟨0xc, 1, 0x0, 1, 0x0, .ro, 0x0, 0x0⟩,
    ⟨0x10, 1, 0x0, 1, 0x0, .w1c, 0xc0ffffff, 0x0⟩,
    ⟨0x14, 1, 0x0, 1, 0x0, .rw, 0xc0ffffff, 0x0⟩,
    ⟨0x18, 1, 0x0, 1, 0x0, .ro, 0x0, 0x0⟩,
    ⟨0x1c, 1, 0x0, 1, 0x0, .rw, 0xffffffff, 0x0⟩,
    ⟨0x20, 8, 0x20, 1, 0x0, .ro, 0x0, 0x0⟩,
    ⟨0x24, 8, 0x20, 1, 0x0, .ro, 0x0, 0x0⟩,
    ⟨0x28, 8, 0x20, 1, 0x0, .ro, 0x0, 0x0⟩,
    ⟨0x2c, 8, 0x20, 1, 0x0, .ro, 0x0, 0x0⟩] ++
  [
    ⟨0x30, 8, 0x20, 1, 0x0, .ro, 0x0, 0x0⟩,
    ⟨0x34, 8, 0x20, 1, 0x0, .ro, 0x0, 0xffffffff⟩,
    ⟨0x38, 8, 0x20, 1, 0x0, .ro, 0x0, 0x0⟩,
    ⟨0x3c, 8, 0x20, 1, 0x0, .rwl, 0xffffff, 0x0⟩]

/-! Page VOTE (spec/06_triplex_execution.md R186). -/
@[inline] def Reg.votePid : Nat := 0xa000
@[inline] def Reg.voteCaps : Nat := 0xa004
@[inline] def Reg.voteCtrl : Nat := 0xa008
@[inline] def Reg.voteStat : Nat := 0xa00c
@[inline] def Reg.voteEvtRaw : Nat := 0xa010
@[inline] def Reg.voteEvtMask : Nat := 0xa014
@[inline] def Reg.voteEvtPend : Nat := 0xa018
@[inline] def Reg.voteLock : Nat := 0xa01c
@[inline] def Reg.voteOddcnt (i : Nat) : Nat := 0xa020 + 0x4 * i
@[inline] def Reg.voteLastodd : Nat := 0xa02c
@[inline] def Reg.voteLastoddtLo : Nat := 0xa030
@[inline] def Reg.voteLastoddtHi : Nat := 0xa034
@[inline] def Reg.voteLasthold : Nat := 0xa038
@[inline] def Reg.voteStarve : Nat := 0xa03c
@[inline] def Reg.voteSigsnap : Nat := 0xa040
@[inline] def Reg.voteSig (i : Nat) : Nat := 0xa044 + 0x4 * i
@[inline] def Reg.voteLastdesc : Nat := 0xa05c

/-- The registers of page VOTE. -/
def voteRows : List RegDef :=
  [
    ⟨0x0, 1, 0x0, 1, 0x0, .ro, 0x0, 0x0⟩,
    ⟨0x4, 1, 0x0, 1, 0x0, .ro, 0x0, 0x420003⟩,
    ⟨0x8, 1, 0x0, 1, 0x0, .rwl, 0x1, 0x0⟩,
    ⟨0xc, 1, 0x0, 1, 0x0, .ro, 0x0, 0x0⟩,
    ⟨0x10, 1, 0x0, 1, 0x0, .w1c, 0xc000000f, 0x0⟩,
    ⟨0x14, 1, 0x0, 1, 0x0, .rw, 0xc000000f, 0x0⟩,
    ⟨0x18, 1, 0x0, 1, 0x0, .ro, 0x0, 0x0⟩,
    ⟨0x1c, 1, 0x0, 1, 0x0, .rw, 0xffffffff, 0x0⟩,
    ⟨0x20, 3, 0x4, 1, 0x0, .ro, 0x0, 0x0⟩,
    ⟨0x2c, 1, 0x0, 1, 0x0, .ro, 0x0, 0x0⟩,
    ⟨0x30, 1, 0x0, 1, 0x0, .ro, 0x0, 0x0⟩,
    ⟨0x34, 1, 0x0, 1, 0x0, .ro, 0x0, 0x0⟩] ++
  [
    ⟨0x38, 1, 0x0, 1, 0x0, .ro, 0x0, 0x0⟩,
    ⟨0x3c, 1, 0x0, 1, 0x0, .rwl, 0x3fff, 0x64⟩,
    ⟨0x40, 1, 0x0, 1, 0x0, .wo, 0xffffffff, 0x0⟩,
    ⟨0x44, 6, 0x4, 1, 0x0, .ro, 0x0, 0x0⟩,
    ⟨0x5c, 1, 0x0, 1, 0x0, .ro, 0x0, 0x0⟩]

/-! Page PIM (spec/06_triplex_execution.md R188). -/
@[inline] def Reg.pimPid : Nat := 0xb000
@[inline] def Reg.pimCaps : Nat := 0xb004
@[inline] def Reg.pimCtrl : Nat := 0xb008
@[inline] def Reg.pimStat : Nat := 0xb00c
@[inline] def Reg.pimEvtRaw : Nat := 0xb010
@[inline] def Reg.pimEvtMask : Nat := 0xb014
@[inline] def Reg.pimEvtPend : Nat := 0xb018
@[inline] def Reg.pimLock : Nat := 0xb01c
@[inline] def Reg.pimCecnt : Nat := 0xb020
@[inline] def Reg.pimCeaddr : Nat := 0xb024
@[inline] def Reg.pimRetrycnt : Nat := 0xb028
@[inline] def Reg.pimRetryaddr : Nat := 0xb02c
@[inline] def Reg.pimScrubt : Nat := 0xb030
@[inline] def Reg.pimScrubmax : Nat := 0xb034
@[inline] def Reg.pimScrubpos : Nat := 0xb038
@[inline] def Reg.pimFatal : Nat := 0xb040

/-- The registers of page PIM. -/
def pimRows : List RegDef :=
  [
    ⟨0x0, 1, 0x0, 1, 0x0, .ro, 0x0, 0x0⟩,
    ⟨0x4, 1, 0x0, 1, 0x0, .ro, 0x0, 0x86000⟩,
    ⟨0x8, 1, 0x0, 1, 0x0, .ro, 0x0, 0x0⟩,
    ⟨0xc, 1, 0x0, 1, 0x0, .ro, 0x0, 0x0⟩,
    ⟨0x10, 1, 0x0, 1, 0x0, .w1c, 0xc0000007, 0x0⟩,
    ⟨0x14, 1, 0x0, 1, 0x0, .rw, 0xc0000007, 0x0⟩,
    ⟨0x18, 1, 0x0, 1, 0x0, .ro, 0x0, 0x0⟩,
    ⟨0x1c, 1, 0x0, 1, 0x0, .rw, 0xffffffff, 0x0⟩,
    ⟨0x20, 1, 0x0, 1, 0x0, .ro, 0x0, 0x0⟩,
    ⟨0x24, 1, 0x0, 1, 0x0, .ro, 0x0, 0x0⟩,
    ⟨0x28, 1, 0x0, 1, 0x0, .ro, 0x0, 0x0⟩,
    ⟨0x2c, 1, 0x0, 1, 0x0, .ro, 0x0, 0x0⟩] ++
  [
    ⟨0x30, 1, 0x0, 1, 0x0, .ro, 0x0, 0x0⟩,
    ⟨0x34, 1, 0x0, 1, 0x0, .rwl, 0xffff, 0x3e8⟩,
    ⟨0x38, 1, 0x0, 1, 0x0, .ro, 0x0, 0x0⟩,
    ⟨0x40, 1, 0x0, 1, 0x0, .ro, 0x0, 0x0⟩]

/-! Page FRC (spec/05_tasks_and_modes.md R159). -/
@[inline] def Reg.frcPid : Nat := 0xc000
@[inline] def Reg.frcCaps : Nat := 0xc004
@[inline] def Reg.frcCtrl : Nat := 0xc008
@[inline] def Reg.frcStat : Nat := 0xc00c
@[inline] def Reg.frcEvtRaw : Nat := 0xc010
@[inline] def Reg.frcEvtMask : Nat := 0xc014
@[inline] def Reg.frcEvtPend : Nat := 0xc018
@[inline] def Reg.frcLock : Nat := 0xc01c
@[inline] def Reg.frcWinIdx : Nat := 0xc020
@[inline] def Reg.frcWinCmd : Nat := 0xc024
@[inline] def Reg.frcWinStat : Nat := 0xc028
@[inline] def Reg.frcNforce : Nat := 0xc02c
@[inline] def Reg.frcWinData (i : Nat) : Nat := 0xc030 + 0x4 * i
@[inline] def Reg.frcWinData3 : Nat := 0xc03c
@[inline] def Reg.frcRelall : Nat := 0xc040

/-- The registers of page FRC; CTRL, to which its chapter gives no fields, is read-only (DESIGN CHOICE, log entry 61). -/
def frcRows : List RegDef :=
  [
    ⟨0x0, 1, 0x0, 1, 0x0, .ro, 0x0, 0x0⟩,
    ⟨0x4, 1, 0x0, 1, 0x0, .ro, 0x0, 0x100⟩,
    ⟨0x8, 1, 0x0, 1, 0x0, .ro, 0x0, 0x0⟩,
    ⟨0xc, 1, 0x0, 1, 0x0, .ro, 0x0, 0x0⟩,
    ⟨0x10, 1, 0x0, 1, 0x0, .w1c, 0xc0000003, 0x0⟩,
    ⟨0x14, 1, 0x0, 1, 0x0, .rw, 0xc0000003, 0x0⟩,
    ⟨0x18, 1, 0x0, 1, 0x0, .ro, 0x0, 0x0⟩,
    ⟨0x1c, 1, 0x0, 1, 0x0, .rw, 0xffffffff, 0x0⟩,
    ⟨0x20, 1, 0x0, 1, 0x0, .rw, 0xff, 0x0⟩,
    ⟨0x24, 1, 0x0, 1, 0x0, .wo, 0xffffffff, 0x0⟩,
    ⟨0x28, 1, 0x0, 1, 0x0, .ro, 0x0, 0x0⟩,
    ⟨0x2c, 1, 0x0, 1, 0x0, .ro, 0x0, 0x0⟩] ++
  [
    ⟨0x30, 3, 0x4, 1, 0x0, .rw, 0xffffffff, 0x0⟩,
    ⟨0x3c, 1, 0x0, 1, 0x0, .ro, 0x0, 0x0⟩,
    ⟨0x40, 1, 0x0, 1, 0x0, .wo, 0xffffffff, 0x0⟩]

/-! Page DBG (spec/05_tasks_and_modes.md R160). -/
@[inline] def Reg.dbgPid : Nat := 0xd000
@[inline] def Reg.dbgCaps : Nat := 0xd004
@[inline] def Reg.dbgCtrl : Nat := 0xd008
@[inline] def Reg.dbgStat : Nat := 0xd00c
@[inline] def Reg.dbgEvtRaw : Nat := 0xd010
@[inline] def Reg.dbgEvtMask : Nat := 0xd014
@[inline] def Reg.dbgEvtPend : Nat := 0xd018
@[inline] def Reg.dbgLock : Nat := 0xd01c
@[inline] def Reg.dbgCmd : Nat := 0xd020
@[inline] def Reg.dbgHstat : Nat := 0xd024
@[inline] def Reg.dbgHdesc : Nat := 0xd028
@[inline] def Reg.dbgHdur : Nat := 0xd02c
@[inline] def Reg.dbgBp (i : Nat) : Nat := 0xd040 + 0x4 * i

/-- The registers of page DBG; CTRL, to which its chapter gives no fields, is read-only (DESIGN CHOICE, log entry 61). -/
def dbgRows : List RegDef :=
  [
    ⟨0x0, 1, 0x0, 1, 0x0, .ro, 0x0, 0x0⟩,
    ⟨0x4, 1, 0x0, 1, 0x0, .ro, 0x0, 0x10⟩,
    ⟨0x8, 1, 0x0, 1, 0x0, .ro, 0x0, 0x0⟩,
    ⟨0xc, 1, 0x0, 1, 0x0, .ro, 0x0, 0x0⟩,
    ⟨0x10, 1, 0x0, 1, 0x0, .w1c, 0xc0000007, 0x0⟩,
    ⟨0x14, 1, 0x0, 1, 0x0, .rw, 0xc0000007, 0x0⟩,
    ⟨0x18, 1, 0x0, 1, 0x0, .ro, 0x0, 0x0⟩,
    ⟨0x1c, 1, 0x0, 1, 0x0, .rw, 0xffffffff, 0x0⟩,
    ⟨0x20, 1, 0x0, 1, 0x0, .wo, 0xffffffff, 0x0⟩,
    ⟨0x24, 1, 0x0, 1, 0x0, .ro, 0x0, 0x0⟩,
    ⟨0x28, 1, 0x0, 1, 0x0, .ro, 0x0, 0x0⟩,
    ⟨0x2c, 1, 0x0, 1, 0x0, .ro, 0x0, 0x0⟩] ++
  [
    ⟨0x40, 16, 0x4, 1, 0x0, .rw, 0x8003ffff, 0x0⟩]

/-! Page FIO (spec/07_field_io.md R222, R223). -/
@[inline] def Reg.fioPid (g : Nat) : Nat := 0x10000 + 0x1000 * g
@[inline] def Reg.fioCaps (g : Nat) : Nat := 0x10004 + 0x1000 * g
@[inline] def Reg.fioCtrl (g : Nat) : Nat := 0x10008 + 0x1000 * g
@[inline] def Reg.fioStat (g : Nat) : Nat := 0x1000c + 0x1000 * g
@[inline] def Reg.fioEvtRaw (g : Nat) : Nat := 0x10010 + 0x1000 * g
@[inline] def Reg.fioEvtMask (g : Nat) : Nat := 0x10014 + 0x1000 * g
@[inline] def Reg.fioEvtPend (g : Nat) : Nat := 0x10018 + 0x1000 * g
@[inline] def Reg.fioLock (g : Nat) : Nat := 0x1001c + 0x1000 * g
@[inline] def Reg.fioIncfg (g i : Nat) : Nat := 0x10020 + 0x1000 * g + 0x4 * i
@[inline] def Reg.fioTpcfg (g i : Nat) : Nat := 0x10040 + 0x1000 * g + 0x4 * i
@[inline] def Reg.fioTscfg (g : Nat) : Nat := 0x10050 + 0x1000 * g
@[inline] def Reg.fioInstate (g : Nat) : Nat := 0x10054 + 0x1000 * g
@[inline] def Reg.fioOutstate (g : Nat) : Nat := 0x10058 + 0x1000 * g
@[inline] def Reg.fioTpstat (g : Nat) : Nat := 0x1005c + 0x1000 * g
@[inline] def Reg.fioTpage (g i : Nat) : Nat := 0x10060 + 0x1000 * g + 0x4 * i
@[inline] def Reg.fioOdiag (g i : Nat) : Nat := 0x10070 + 0x1000 * g + 0x4 * i
@[inline] def Reg.fioSupply (g : Nat) : Nat := 0x10080 + 0x1000 * g
@[inline] def Reg.fioFsdiag (g : Nat) : Nat := 0x10084 + 0x1000 * g
@[inline] def Reg.fioLinkcnt (g : Nat) : Nat := 0x10088 + 0x1000 * g
@[inline] def Reg.fioFscnt (g : Nat) : Nat := 0x1008c + 0x1000 * g
@[inline] def Reg.fioFsver (g : Nat) : Nat := 0x10090 + 0x1000 * g
@[inline] def Reg.fioTpreq (g : Nat) : Nat := 0x10094 + 0x1000 * g

/-- The registers of page FIO. -/
def fioRows : List RegDef :=
  [
    ⟨0x0, 1, 0x0, 1, 0x0, .ro, 0x0, 0x0⟩,
    ⟨0x4, 1, 0x0, 1, 0x0, .ro, 0x0, 0x248⟩,
    ⟨0x8, 1, 0x0, 1, 0x0, .rwl, 0x1f7, 0x1⟩,
    ⟨0xc, 1, 0x0, 1, 0x0, .ro, 0x0, 0x0⟩,
    ⟨0x10, 1, 0x0, 1, 0x0, .w1c, 0xc0000fff, 0x0⟩,
    ⟨0x14, 1, 0x0, 1, 0x0, .rw, 0xc0000fff, 0x0⟩,
    ⟨0x18, 1, 0x0, 1, 0x0, .ro, 0x0, 0x0⟩,
    ⟨0x1c, 1, 0x0, 1, 0x0, .rw, 0xffffffff, 0x0⟩,
    ⟨0x20, 8, 0x4, 1, 0x0, .rwl, 0x3ffff, 0x0⟩,
    ⟨0x40, 4, 0x4, 1, 0x0, .rwl, 0x8fff03ff, 0x8258012c⟩,
    ⟨0x50, 1, 0x0, 1, 0x0, .rwl, 0xc3ff03ff, 0xc00a00c8⟩,
    ⟨0x54, 1, 0x0, 1, 0x0, .ro, 0x0, 0x0⟩] ++
  [
    ⟨0x58, 1, 0x0, 1, 0x0, .ro, 0x0, 0x0⟩,
    ⟨0x5c, 1, 0x0, 1, 0x0, .ro, 0x0, 0x0⟩,
    ⟨0x60, 4, 0x4, 1, 0x0, .ro, 0x0, 0x0⟩,
    ⟨0x70, 4, 0x4, 1, 0x0, .ro, 0x0, 0x0⟩,
    ⟨0x80, 1, 0x0, 1, 0x0, .ro, 0x0, 0x0⟩,
    ⟨0x84, 1, 0x0, 1, 0x0, .ro, 0x0, 0x0⟩,
    ⟨0x88, 1, 0x0, 1, 0x0, .ro, 0x0, 0x0⟩,
    ⟨0x8c, 1, 0x0, 1, 0x0, .ro, 0x0, 0x0⟩,
    ⟨0x90, 1, 0x0, 1, 0x0, .ro, 0x0, 0x0⟩,
    ⟨0x94, 1, 0x0, 1, 0x0, .wo, 0xffffffff, 0x0⟩]

/-! Page RFX (spec/08_reflex_and_reaction.md R241). -/
@[inline] def Reg.rfxPid : Nat := 0x14000
@[inline] def Reg.rfxCaps : Nat := 0x14004
@[inline] def Reg.rfxCtrl : Nat := 0x14008
@[inline] def Reg.rfxStat : Nat := 0x1400c
@[inline] def Reg.rfxEvtRaw : Nat := 0x14010
@[inline] def Reg.rfxEvtMask : Nat := 0x14014
@[inline] def Reg.rfxEvtPend : Nat := 0x14018
@[inline] def Reg.rfxLock : Nat := 0x1401c
@[inline] def Reg.rfxLatch (i : Nat) : Nat := 0x14020 + 0x4 * i
@[inline] def Reg.rfxCond (i : Nat) : Nat := 0x14028 + 0x4 * i
@[inline] def Reg.rfxStuck (i : Nat) : Nat := 0x14030 + 0x4 * i
@[inline] def Reg.rfxGtpend (i : Nat) : Nat := 0x14038 + 0x4 * i
@[inline] def Reg.rfxRstmax : Nat := 0x14040
@[inline] def Reg.rfxDeoff : Nat := 0x14044
@[inline] def Reg.rfxLasttrip : Nat := 0x14048
@[inline] def Reg.rfxLasttripTLo : Nat := 0x1404c
@[inline] def Reg.rfxLasttripTHi : Nat := 0x14050
@[inline] def Reg.rfxTripcnt : Nat := 0x14054
@[inline] def Reg.rfxRcond (i : Nat) : Nat := 0x14100 + 0x10 * i
@[inline] def Reg.rfxRact (i : Nat) : Nat := 0x14104 + 0x10 * i
@[inline] def Reg.rfxRrst (i : Nat) : Nat := 0x14108 + 0x10 * i
@[inline] def Reg.rfxRstat (i : Nat) : Nat := 0x1410c + 0x10 * i

/-- The registers of page RFX. -/
def rfxRows : List RegDef :=
  [
    ⟨0x0, 1, 0x0, 1, 0x0, .ro, 0x0, 0x0⟩,
    ⟨0x4, 1, 0x0, 1, 0x0, .ro, 0x0, 0x40⟩,
    ⟨0x8, 1, 0x0, 1, 0x0, .ro, 0x0, 0x0⟩,
    ⟨0xc, 1, 0x0, 1, 0x0, .ro, 0x0, 0x0⟩,
    ⟨0x10, 1, 0x0, 1, 0x0, .w1c, 0xc000000f, 0x0⟩,
    ⟨0x14, 1, 0x0, 1, 0x0, .rw, 0xc000000f, 0x0⟩,
    ⟨0x18, 1, 0x0, 1, 0x0, .ro, 0x0, 0x0⟩,
    ⟨0x1c, 1, 0x0, 1, 0x0, .rw, 0xffffffff, 0x0⟩,
    ⟨0x20, 2, 0x4, 1, 0x0, .ro, 0x0, 0x0⟩,
    ⟨0x28, 2, 0x4, 1, 0x0, .ro, 0x0, 0x0⟩,
    ⟨0x30, 2, 0x4, 1, 0x0, .ro, 0x0, 0x0⟩,
    ⟨0x38, 2, 0x4, 1, 0x0, .ro, 0x0, 0x0⟩] ++
  [
    ⟨0x40, 1, 0x0, 1, 0x0, .rws, 0x3fff, 0x1388⟩,
    ⟨0x44, 1, 0x0, 1, 0x0, .ro, 0x0, 0x0⟩,
    ⟨0x48, 1, 0x0, 1, 0x0, .ro, 0x0, 0x0⟩,
    ⟨0x4c, 1, 0x0, 1, 0x0, .ro, 0x0, 0x0⟩,
    ⟨0x50, 1, 0x0, 1, 0x0, .ro, 0x0, 0x0⟩,
    ⟨0x54, 1, 0x0, 1, 0x0, .ro, 0x0, 0x0⟩,
    ⟨0x100, 64, 0x10, 1, 0x0, .rws, 0xffffffff, 0x0⟩,
    ⟨0x104, 64, 0x10, 1, 0x0, .rws, 0xffffffff, 0x0⟩,
    ⟨0x108, 64, 0x10, 1, 0x0, .rws, 0xffffffff, 0x0⟩,
    ⟨0x10c, 64, 0x10, 1, 0x0, .ro, 0x0, 0x0⟩]

/-! Page AXS (spec/09_axes_and_safe_motion.md R262). -/
@[inline] def Reg.axsPid (g : Nat) : Nat := 0x15000 + 0x1000 * g
@[inline] def Reg.axsCaps (g : Nat) : Nat := 0x15004 + 0x1000 * g
@[inline] def Reg.axsCtrl (g : Nat) : Nat := 0x15008 + 0x1000 * g
@[inline] def Reg.axsStat (g : Nat) : Nat := 0x1500c + 0x1000 * g
@[inline] def Reg.axsEvtRaw (g : Nat) : Nat := 0x15010 + 0x1000 * g
@[inline] def Reg.axsEvtMask (g : Nat) : Nat := 0x15014 + 0x1000 * g
@[inline] def Reg.axsEvtPend (g : Nat) : Nat := 0x15018 + 0x1000 * g
@[inline] def Reg.axsLock (g : Nat) : Nat := 0x1501c + 0x1000 * g
@[inline] def Reg.axsAcfg (g i : Nat) : Nat := 0x15100 + 0x1000 * g + 0x100 * i
@[inline] def Reg.axsSsicfg (g i : Nat) : Nat := 0x15104 + 0x1000 * g + 0x100 * i
@[inline] def Reg.axsAxstat (g i : Nat) : Nat := 0x15108 + 0x1000 * g + 0x100 * i
@[inline] def Reg.axsAxpos (g i : Nat) : Nat := 0x1510c + 0x1000 * g + 0x100 * i
@[inline] def Reg.axsZpos (g i : Nat) : Nat := 0x15110 + 0x1000 * g + 0x100 * i
@[inline] def Reg.axsZcnt (g i : Nat) : Nat := 0x15114 + 0x1000 * g + 0x100 * i
@[inline] def Reg.axsErrcnt (g i : Nat) : Nat := 0x15118 + 0x1000 * g + 0x100 * i
@[inline] def Reg.axsSlotcfg (g i j : Nat) : Nat := 0x15120 + 0x1000 * g + 0x100 * i + 0x18 * j
@[inline] def Reg.axsSlotpos (g i j : Nat) : Nat := 0x15124 + 0x1000 * g + 0x100 * i + 0x18 * j
@[inline] def Reg.axsSlotmode (g i j : Nat) : Nat := 0x15128 + 0x1000 * g + 0x100 * i + 0x18 * j
@[inline] def Reg.axsSlotstat (g i j : Nat) : Nat := 0x1512c + 0x1000 * g + 0x100 * i + 0x18 * j
@[inline] def Reg.axsCaptLo (g i j : Nat) : Nat := 0x15130 + 0x1000 * g + 0x100 * i + 0x18 * j
@[inline] def Reg.axsCaptHi (g i j : Nat) : Nat := 0x15134 + 0x1000 * g + 0x100 * i + 0x18 * j

/-- The registers of page AXS. -/
def axsRows : List RegDef :=
  [
    ⟨0x0, 1, 0x0, 1, 0x0, .ro, 0x0, 0x0⟩,
    ⟨0x4, 1, 0x0, 1, 0x0, .ro, 0x0, 0x806⟩,
    ⟨0x8, 1, 0x0, 1, 0x0, .ro, 0x0, 0x0⟩,
    ⟨0xc, 1, 0x0, 1, 0x0, .ro, 0x0, 0x0⟩,
    ⟨0x10, 1, 0x0, 1, 0x0, .w1c, 0xc000033f, 0x0⟩,
    ⟨0x14, 1, 0x0, 1, 0x0, .rw, 0xc000033f, 0x0⟩,
    ⟨0x18, 1, 0x0, 1, 0x0, .ro, 0x0, 0x0⟩,
    ⟨0x1c, 1, 0x0, 1, 0x0, .rw, 0xffffffff, 0x0⟩,
    ⟨0x100, 6, 0x100, 1, 0x0, .rwl, 0x1ff, 0x30⟩,
    ⟨0x104, 6, 0x100, 1, 0x0, .rwl, 0x3f7f3f, 0x70519⟩,
    ⟨0x108, 6, 0x100, 1, 0x0, .ro, 0x0, 0x0⟩,
    ⟨0x10c, 6, 0x100, 1, 0x0, .ro, 0x0, 0x0⟩] ++
  [
    ⟨0x110, 6, 0x100, 1, 0x0, .ro, 0x0, 0x0⟩,
    ⟨0x114, 6, 0x100, 1, 0x0, .ro, 0x0, 0x0⟩,
    ⟨0x118, 6, 0x100, 1, 0x0, .ro, 0x0, 0x0⟩,
    ⟨0x120, 6, 0x100, 8, 0x18, .rwl, 0xf, 0x0⟩,
    ⟨0x124, 6, 0x100, 8, 0x18, .ro, 0x0, 0x0⟩,
    ⟨0x128, 6, 0x100, 8, 0x18, .ro, 0x0, 0x0⟩,
    ⟨0x12c, 6, 0x100, 8, 0x18, .ro, 0x0, 0x0⟩,
    ⟨0x130, 6, 0x100, 8, 0x18, .ro, 0x0, 0x0⟩,
    ⟨0x134, 6, 0x100, 8, 0x18, .ro, 0x0, 0x0⟩]

/-! Page SMO (spec/09_axes_and_safe_motion.md R262, R263). -/
@[inline] def Reg.smoPid : Nat := 0x17000
@[inline] def Reg.smoCaps : Nat := 0x17004
@[inline] def Reg.smoCtrl : Nat := 0x17008
@[inline] def Reg.smoStat : Nat := 0x1700c
@[inline] def Reg.smoEvtRaw : Nat := 0x17010
@[inline] def Reg.smoEvtMask : Nat := 0x17014
@[inline] def Reg.smoEvtPend : Nat := 0x17018
@[inline] def Reg.smoLock : Nat := 0x1701c
@[inline] def Reg.smoViol : Nat := 0x17020
@[inline] def Reg.smoFault : Nat := 0x17024
@[inline] def Reg.smoFill : Nat := 0x17028
@[inline] def Reg.smoMcfg (i : Nat) : Nat := 0x17100 + 0x40 * i
@[inline] def Reg.smoMstat (i : Nat) : Nat := 0x17104 + 0x40 * i
@[inline] def Reg.smoMvest (i : Nat) : Nat := 0x17108 + 0x40 * i
@[inline] def Reg.smoMref (i : Nat) : Nat := 0x1710c + 0x40 * i
@[inline] def Reg.smoSetA (i j : Nat) : Nat := 0x17110 + 0x40 * i + 0xc * j
@[inline] def Reg.smoSetB (i j : Nat) : Nat := 0x17114 + 0x40 * i + 0xc * j
@[inline] def Reg.smoSetC (i j : Nat) : Nat := 0x17118 + 0x40 * i + 0xc * j

/-- The registers of page SMO. -/
def smoRows : List RegDef :=
  [
    ⟨0x0, 1, 0x0, 1, 0x0, .ro, 0x0, 0x0⟩,
    ⟨0x4, 1, 0x0, 1, 0x0, .ro, 0x0, 0x418⟩,
    ⟨0x8, 1, 0x0, 1, 0x0, .ro, 0x0, 0x0⟩,
    ⟨0xc, 1, 0x0, 1, 0x0, .ro, 0x0, 0x0⟩,
    ⟨0x10, 1, 0x0, 1, 0x0, .w1c, 0xc000000f, 0x0⟩,
    ⟨0x14, 1, 0x0, 1, 0x0, .rw, 0xc000000f, 0x0⟩,
    ⟨0x18, 1, 0x0, 1, 0x0, .ro, 0x0, 0x0⟩,
    ⟨0x1c, 1, 0x0, 1, 0x0, .rw, 0xffffffff, 0x0⟩,
    ⟨0x20, 1, 0x0, 1, 0x0, .ro, 0x0, 0x0⟩,
    ⟨0x24, 1, 0x0, 1, 0x0, .ro, 0x0, 0x0⟩,
    ⟨0x28, 1, 0x0, 1, 0x0, .ro, 0x0, 0x0⟩,
    ⟨0x100, 24, 0x40, 1, 0x0, .rws, 0x8f1f0f03, 0x0⟩] ++
  [
    ⟨0x104, 24, 0x40, 1, 0x0, .ro, 0x0, 0x0⟩,
    ⟨0x108, 24, 0x40, 1, 0x0, .ro, 0x0, 0x0⟩,
    ⟨0x10c, 24, 0x40, 1, 0x0, .ro, 0x0, 0x0⟩,
    ⟨0x110, 24, 0x40, 4, 0xc, .rws, 0xffffffff, 0x0⟩,
    ⟨0x114, 24, 0x40, 4, 0xc, .rws, 0xffffffff, 0x0⟩,
    ⟨0x118, 24, 0x40, 4, 0xc, .rws, 0xffffffff, 0x0⟩]

/-! Page DEC (spec/10_decimation.md R283, R284). -/
@[inline] def Reg.decPid : Nat := 0x18000
@[inline] def Reg.decCaps : Nat := 0x18004
@[inline] def Reg.decCtrl : Nat := 0x18008
@[inline] def Reg.decStat : Nat := 0x1800c
@[inline] def Reg.decEvtRaw : Nat := 0x18010
@[inline] def Reg.decEvtMask : Nat := 0x18014
@[inline] def Reg.decEvtPend : Nat := 0x18018
@[inline] def Reg.decLock : Nat := 0x1801c
@[inline] def Reg.decDscfg (i : Nat) : Nat := 0x18020 + 0x4 * i
@[inline] def Reg.decDsval (i : Nat) : Nat := 0x18060 + 0x4 * i
@[inline] def Reg.decDsavg (i : Nat) : Nat := 0x180a0 + 0x4 * i
@[inline] def Reg.decDsstat (i : Nat) : Nat := 0x180e0 + 0x4 * i
@[inline] def Reg.decTest : Nat := 0x18120
@[inline] def Reg.decRsmpstat : Nat := 0x18124
@[inline] def Reg.decDperrcnt : Nat := 0x18128
@[inline] def Reg.decFirc (i : Nat) : Nat := 0x18130 + 0x4 * i

/-- The registers of page DEC. -/
def decRows : List RegDef :=
  [
    ⟨0x0, 1, 0x0, 1, 0x0, .ro, 0x0, 0x0⟩,
    ⟨0x4, 1, 0x0, 1, 0x0, .ro, 0x0, 0x210⟩,
    ⟨0x8, 1, 0x0, 1, 0x0, .rws, 0x7ff, 0x32⟩,
    ⟨0xc, 1, 0x0, 1, 0x0, .ro, 0x0, 0x0⟩,
    ⟨0x10, 1, 0x0, 1, 0x0, .w1c, 0xc000003f, 0x0⟩,
    ⟨0x14, 1, 0x0, 1, 0x0, .rw, 0xc000003f, 0x0⟩,
    ⟨0x18, 1, 0x0, 1, 0x0, .ro, 0x0, 0x0⟩,
    ⟨0x1c, 1, 0x0, 1, 0x0, .rw, 0xffffffff, 0x0⟩,
    ⟨0x20, 16, 0x4, 1, 0x0, .rws, 0xff03ffff, 0x0⟩,
    ⟨0x60, 16, 0x4, 1, 0x0, .ro, 0x0, 0x0⟩,
    ⟨0xa0, 16, 0x4, 1, 0x0, .ro, 0x0, 0x0⟩,
    ⟨0xe0, 16, 0x4, 1, 0x0, .ro, 0x0, 0x0⟩] ++
  [
    ⟨0x120, 1, 0x0, 1, 0x0, .rws, 0xff01, 0x3200⟩,
    ⟨0x124, 1, 0x0, 1, 0x0, .ro, 0x0, 0x0⟩,
    ⟨0x128, 1, 0x0, 1, 0x0, .ro, 0x0, 0x0⟩,
    ⟨0x130, 18, 0x4, 1, 0x0, .ro, 0x0, 0x0⟩]

/-! Page TPIN (spec/13_time.md R359, R360). -/
@[inline] def Reg.tpinPid : Nat := 0x19000
@[inline] def Reg.tpinCaps : Nat := 0x19004
@[inline] def Reg.tpinCtrl : Nat := 0x19008
@[inline] def Reg.tpinStat : Nat := 0x1900c
@[inline] def Reg.tpinEvtRaw : Nat := 0x19010
@[inline] def Reg.tpinEvtMask : Nat := 0x19014
@[inline] def Reg.tpinEvtPend : Nat := 0x19018
@[inline] def Reg.tpinLock : Nat := 0x1901c
@[inline] def Reg.tpinPincfg (i : Nat) : Nat := 0x19020 + 0x20 * i
@[inline] def Reg.tpinStartLo (i : Nat) : Nat := 0x19024 + 0x20 * i
@[inline] def Reg.tpinStartHi (i : Nat) : Nat := 0x19028 + 0x20 * i
@[inline] def Reg.tpinPeriod (i : Nat) : Nat := 0x1902c + 0x20 * i
@[inline] def Reg.tpinWidth (i : Nat) : Nat := 0x19030 + 0x20 * i
@[inline] def Reg.tpinPcaptLo (i : Nat) : Nat := 0x19034 + 0x20 * i
@[inline] def Reg.tpinPcaptHi (i : Nat) : Nat := 0x19038 + 0x20 * i
@[inline] def Reg.tpinPstat (i : Nat) : Nat := 0x1903c + 0x20 * i

/-- The registers of page TPIN. -/
def tpinRows : List RegDef :=
  [
    ⟨0x0, 1, 0x0, 1, 0x0, .ro, 0x0, 0x0⟩,
    ⟨0x4, 1, 0x0, 1, 0x0, .ro, 0x0, 0x8⟩,
    ⟨0x8, 1, 0x0, 1, 0x0, .ro, 0x0, 0x0⟩,
    ⟨0xc, 1, 0x0, 1, 0x0, .ro, 0x0, 0x0⟩,
    ⟨0x10, 1, 0x0, 1, 0x0, .w1c, 0xc001ffff, 0x0⟩,
    ⟨0x14, 1, 0x0, 1, 0x0, .rw, 0xc001ffff, 0x0⟩,
    ⟨0x18, 1, 0x0, 1, 0x0, .ro, 0x0, 0x0⟩,
    ⟨0x1c, 1, 0x0, 1, 0x0, .rw, 0xffffffff, 0x0⟩,
    ⟨0x20, 8, 0x20, 1, 0x0, .rws, 0x3f, 0x10⟩,
    ⟨0x24, 8, 0x20, 1, 0x0, .rws, 0xffffffff, 0x0⟩,
    ⟨0x28, 8, 0x20, 1, 0x0, .rws, 0xffffffff, 0x0⟩,
    ⟨0x2c, 8, 0x20, 1, 0x0, .rws, 0xffffffff, 0x3b9aca00⟩] ++
  [
    ⟨0x30, 8, 0x20, 1, 0x0, .rws, 0xffffffff, 0x3e8⟩,
    ⟨0x34, 8, 0x20, 1, 0x0, .ro, 0x0, 0x0⟩,
    ⟨0x38, 8, 0x20, 1, 0x0, .ro, 0x0, 0x0⟩,
    ⟨0x3c, 8, 0x20, 1, 0x0, .ro, 0x0, 0x0⟩]

/-! Page NET (spec/11_train_network.md R312, R313). -/
@[inline] def Reg.netPid (g : Nat) : Nat := 0x20000 + 0x1000 * g
@[inline] def Reg.netCaps (g : Nat) : Nat := 0x20004 + 0x1000 * g
@[inline] def Reg.netCtrl (g : Nat) : Nat := 0x20008 + 0x1000 * g
@[inline] def Reg.netStat (g : Nat) : Nat := 0x2000c + 0x1000 * g
@[inline] def Reg.netEvtRaw (g : Nat) : Nat := 0x20010 + 0x1000 * g
@[inline] def Reg.netEvtMask (g : Nat) : Nat := 0x20014 + 0x1000 * g
@[inline] def Reg.netEvtPend (g : Nat) : Nat := 0x20018 + 0x1000 * g
@[inline] def Reg.netLock (g : Nat) : Nat := 0x2001c + 0x1000 * g
@[inline] def Reg.netMacLo (g : Nat) : Nat := 0x20020 + 0x1000 * g
@[inline] def Reg.netMacHi (g : Nat) : Nat := 0x20024 + 0x1000 * g
@[inline] def Reg.netIpaddr (g : Nat) : Nat := 0x20028 + 0x1000 * g
@[inline] def Reg.netIpmask (g : Nat) : Nat := 0x2002c + 0x1000 * g
@[inline] def Reg.netIpbase (g : Nat) : Nat := 0x20030 + 0x1000 * g
@[inline] def Reg.netPdvlan (g : Nat) : Nat := 0x20038 + 0x1000 * g
@[inline] def Reg.netP1vlan (g : Nat) : Nat := 0x2003c + 0x1000 * g
@[inline] def Reg.netP2vlan (g : Nat) : Nat := 0x20040 + 0x1000 * g
@[inline] def Reg.netP4vlan (g : Nat) : Nat := 0x20044 + 0x1000 * g
@[inline] def Reg.netBclim (g : Nat) : Nat := 0x20048 + 0x1000 * g
@[inline] def Reg.netHrxbase (g : Nat) : Nat := 0x20060 + 0x1000 * g
@[inline] def Reg.netHrxnum (g : Nat) : Nat := 0x20064 + 0x1000 * g
@[inline] def Reg.netHrxprod (g : Nat) : Nat := 0x20068 + 0x1000 * g
@[inline] def Reg.netHrxcons (g : Nat) : Nat := 0x2006c + 0x1000 * g
@[inline] def Reg.netHtxbase (g : Nat) : Nat := 0x20070 + 0x1000 * g
@[inline] def Reg.netHtxnum (g : Nat) : Nat := 0x20074 + 0x1000 * g
@[inline] def Reg.netHtxprod (g : Nat) : Nat := 0x20078 + 0x1000 * g
@[inline] def Reg.netHtxcons (g : Nat) : Nat := 0x2007c + 0x1000 * g
@[inline] def Reg.netPrx (g i : Nat) : Nat := 0x20080 + 0x1000 * g + 0x10 * i
@[inline] def Reg.netPtx (g i : Nat) : Nat := 0x20084 + 0x1000 * g + 0x10 * i
@[inline] def Reg.netPerr (g i : Nat) : Nat := 0x20088 + 0x1000 * g + 0x10 * i
@[inline] def Reg.netPdrop (g i : Nat) : Nat := 0x2008c + 0x1000 * g + 0x10 * i
@[inline] def Reg.netCntclr (g : Nat) : Nat := 0x200c0 + 0x1000 * g
@[inline] def Reg.netVlan (g i : Nat) : Nat := 0x20100 + 0x1000 * g + 0x4 * i

/-- The registers of page NET. -/
def netRows : List RegDef :=
  [
    ⟨0x0, 1, 0x0, 1, 0x0, .ro, 0x0, 0x0⟩,
    ⟨0x4, 1, 0x0, 1, 0x0, .ro, 0x0, 0x804⟩,
    ⟨0x8, 1, 0x0, 1, 0x0, .rw, 0x70f, 0x403⟩,
    ⟨0xc, 1, 0x0, 1, 0x0, .ro, 0x0, 0x0⟩,
    ⟨0x10, 1, 0x0, 1, 0x0, .w1c, 0xc000003f, 0x0⟩,
    ⟨0x14, 1, 0x0, 1, 0x0, .rw, 0xc000003f, 0x0⟩,
    ⟨0x18, 1, 0x0, 1, 0x0, .ro, 0x0, 0x0⟩,
    ⟨0x1c, 1, 0x0, 1, 0x0, .rw, 0xffffffff, 0x0⟩,
    ⟨0x20, 1, 0x0, 1, 0x0, .ro, 0x0, 0x0⟩,
    ⟨0x24, 1, 0x0, 1, 0x0, .ro, 0x0, 0x0⟩,
    ⟨0x28, 1, 0x0, 1, 0x0, .rw, 0xffffffff, 0x0⟩,
    ⟨0x2c, 1, 0x0, 1, 0x0, .rw, 0xffffffff, 0x0⟩] ++
  [
    ⟨0x30, 1, 0x0, 1, 0x0, .rw, 0xffffffff, 0x0⟩,
    ⟨0x38, 1, 0x0, 1, 0x0, .rw, 0xfff, 0x0⟩,
    ⟨0x3c, 1, 0x0, 1, 0x0, .rw, 0x1fff, 0x1⟩,
    ⟨0x40, 1, 0x0, 1, 0x0, .rw, 0x1fff, 0x1⟩,
    ⟨0x44, 1, 0x0, 1, 0x0, .rw, 0x71fff, 0x1⟩,
    ⟨0x48, 1, 0x0, 1, 0x0, .rw, 0xffff, 0x0⟩,
    ⟨0x60, 1, 0x0, 1, 0x0, .rw, 0xffffffff, 0x200000⟩,
    ⟨0x64, 1, 0x0, 1, 0x0, .rw, 0x1ff, 0x40⟩,
    ⟨0x68, 1, 0x0, 1, 0x0, .ro, 0x0, 0x0⟩,
    ⟨0x6c, 1, 0x0, 1, 0x0, .rw, 0xff, 0x0⟩,
    ⟨0x70, 1, 0x0, 1, 0x0, .rw, 0xffffffff, 0x220000⟩,
    ⟨0x74, 1, 0x0, 1, 0x0, .rw, 0x1ff, 0x40⟩] ++
  [
    ⟨0x78, 1, 0x0, 1, 0x0, .rw, 0xff, 0x0⟩,
    ⟨0x7c, 1, 0x0, 1, 0x0, .ro, 0x0, 0x0⟩,
    ⟨0x80, 4, 0x10, 1, 0x0, .ro, 0x0, 0x0⟩,
    ⟨0x84, 4, 0x10, 1, 0x0, .ro, 0x0, 0x0⟩,
    ⟨0x88, 4, 0x10, 1, 0x0, .ro, 0x0, 0x0⟩,
    ⟨0x8c, 4, 0x10, 1, 0x0, .ro, 0x0, 0x0⟩,
    ⟨0xc0, 1, 0x0, 1, 0x0, .wo, 0xffffffff, 0x0⟩,
    ⟨0x100, 64, 0x4, 1, 0x0, .rw, 0x800fffff, 0x0⟩]

/-! Page TRD (spec/11_train_network.md R314). -/
@[inline] def Reg.trdPid : Nat := 0x22000
@[inline] def Reg.trdCaps : Nat := 0x22004
@[inline] def Reg.trdCtrl : Nat := 0x22008
@[inline] def Reg.trdStat : Nat := 0x2200c
@[inline] def Reg.trdEvtRaw : Nat := 0x22010
@[inline] def Reg.trdEvtMask : Nat := 0x22014
@[inline] def Reg.trdEvtPend : Nat := 0x22018
@[inline] def Reg.trdLock : Nat := 0x2201c
@[inline] def Reg.trdEtbtopo : Nat := 0x22020
@[inline] def Reg.trdOptopo : Nat := 0x22024
@[inline] def Reg.trdLasterr : Nat := 0x22030
@[inline] def Reg.trdWinIdx : Nat := 0x22040
@[inline] def Reg.trdWinCmd : Nat := 0x22044
@[inline] def Reg.trdWinStat : Nat := 0x22048
@[inline] def Reg.trdWinData (i : Nat) : Nat := 0x22050 + 0x4 * i
@[inline] def Reg.trdRxok : Nat := 0x22070
@[inline] def Reg.trdRxerr : Nat := 0x22074
@[inline] def Reg.trdRxunk : Nat := 0x22078
@[inline] def Reg.trdTxcnt : Nat := 0x2207c
@[inline] def Reg.trdTo (i : Nat) : Nat := 0x22100 + 0x4 * i

/-- The registers of page TRD. -/
def trdRows : List RegDef :=
  [
    ⟨0x0, 1, 0x0, 1, 0x0, .ro, 0x0, 0x0⟩,
    ⟨0x4, 1, 0x0, 1, 0x0, .ro, 0x0, 0x8000400⟩,
    ⟨0x8, 1, 0x0, 1, 0x0, .ro, 0x0, 0x0⟩,
    ⟨0xc, 1, 0x0, 1, 0x0, .ro, 0x0, 0x0⟩,
    ⟨0x10, 1, 0x0, 1, 0x0, .w1c, 0xc0000007, 0x0⟩,
    ⟨0x14, 1, 0x0, 1, 0x0, .rw, 0xc0000007, 0x0⟩,
    ⟨0x18, 1, 0x0, 1, 0x0, .ro, 0x0, 0x0⟩,
    ⟨0x1c, 1, 0x0, 1, 0x0, .rw, 0xffffffff, 0x0⟩,
    ⟨0x20, 1, 0x0, 1, 0x0, .rw, 0xffffffff, 0x0⟩,
    ⟨0x24, 1, 0x0, 1, 0x0, .rw, 0xffffffff, 0x0⟩,
    ⟨0x30, 1, 0x0, 1, 0x0, .ro, 0x0, 0x0⟩,
    ⟨0x40, 1, 0x0, 1, 0x0, .rw, 0x107ff, 0x0⟩] ++
  [
    ⟨0x44, 1, 0x0, 1, 0x0, .wo, 0xffffffff, 0x0⟩,
    ⟨0x48, 1, 0x0, 1, 0x0, .ro, 0x0, 0x0⟩,
    ⟨0x50, 8, 0x4, 1, 0x0, .rw, 0xffffffff, 0x0⟩,
    ⟨0x70, 1, 0x0, 1, 0x0, .ro, 0x0, 0x0⟩,
    ⟨0x74, 1, 0x0, 1, 0x0, .ro, 0x0, 0x0⟩,
    ⟨0x78, 1, 0x0, 1, 0x0, .ro, 0x0, 0x0⟩,
    ⟨0x7c, 1, 0x0, 1, 0x0, .ro, 0x0, 0x0⟩,
    ⟨0x100, 64, 0x4, 1, 0x0, .ro, 0x0, 0xffffffff⟩]

/-! Page TWP (spec/11_train_network.md R315). -/
@[inline] def Reg.twpPid : Nat := 0x23000
@[inline] def Reg.twpCaps : Nat := 0x23004
@[inline] def Reg.twpCtrl : Nat := 0x23008
@[inline] def Reg.twpStat : Nat := 0x2300c
@[inline] def Reg.twpEvtRaw : Nat := 0x23010
@[inline] def Reg.twpEvtMask : Nat := 0x23014
@[inline] def Reg.twpEvtPend : Nat := 0x23018
@[inline] def Reg.twpLock : Nat := 0x2301c
@[inline] def Reg.twpWinIdx : Nat := 0x23020
@[inline] def Reg.twpWinCmd : Nat := 0x23024
@[inline] def Reg.twpWinStat : Nat := 0x23028
@[inline] def Reg.twpWinData (i : Nat) : Nat := 0x23030 + 0x4 * i
@[inline] def Reg.twpTout (i : Nat) : Nat := 0x23060 + 0x4 * i
@[inline] def Reg.twpSingle (i : Nat) : Nat := 0x23080 + 0x4 * i
@[inline] def Reg.twpMiscnt : Nat := 0x230a0
@[inline] def Reg.twpScerrcnt : Nat := 0x230a4
@[inline] def Reg.twpTocnt : Nat := 0x230a8

/-- The registers of page TWP. -/
def twpRows : List RegDef :=
  [
    ⟨0x0, 1, 0x0, 1, 0x0, .ro, 0x0, 0x0⟩,
    ⟨0x4, 1, 0x0, 1, 0x0, .ro, 0x0, 0x100⟩,
    ⟨0x8, 1, 0x0, 1, 0x0, .ro, 0x0, 0x0⟩,
    ⟨0xc, 1, 0x0, 1, 0x0, .ro, 0x0, 0x0⟩,
    ⟨0x10, 1, 0x0, 1, 0x0, .w1c, 0xc000003f, 0x0⟩,
    ⟨0x14, 1, 0x0, 1, 0x0, .rw, 0xc000003f, 0x0⟩,
    ⟨0x18, 1, 0x0, 1, 0x0, .ro, 0x0, 0x0⟩,
    ⟨0x1c, 1, 0x0, 1, 0x0, .rw, 0xffffffff, 0x0⟩,
    ⟨0x20, 1, 0x0, 1, 0x0, .rw, 0xff, 0x0⟩,
    ⟨0x24, 1, 0x0, 1, 0x0, .rws, 0xffffffff, 0x0⟩,
    ⟨0x28, 1, 0x0, 1, 0x0, .ro, 0x0, 0x0⟩,
    ⟨0x30, 10, 0x4, 1, 0x0, .rw, 0xffffffff, 0x0⟩] ++
  [
    ⟨0x60, 8, 0x4, 1, 0x0, .ro, 0x0, 0xffffffff⟩,
    ⟨0x80, 8, 0x4, 1, 0x0, .ro, 0x0, 0x0⟩,
    ⟨0xa0, 1, 0x0, 1, 0x0, .ro, 0x0, 0x0⟩,
    ⟨0xa4, 1, 0x0, 1, 0x0, .ro, 0x0, 0x0⟩,
    ⟨0xa8, 1, 0x0, 1, 0x0, .ro, 0x0, 0x0⟩]

/-! Page PTP (spec/13_time.md R357, R358). -/
@[inline] def Reg.ptpPid : Nat := 0x24000
@[inline] def Reg.ptpCaps : Nat := 0x24004
@[inline] def Reg.ptpCtrl : Nat := 0x24008
@[inline] def Reg.ptpStat : Nat := 0x2400c
@[inline] def Reg.ptpEvtRaw : Nat := 0x24010
@[inline] def Reg.ptpEvtMask : Nat := 0x24014
@[inline] def Reg.ptpEvtPend : Nat := 0x24018
@[inline] def Reg.ptpLock : Nat := 0x2401c
@[inline] def Reg.ptpDomain : Nat := 0x24020
@[inline] def Reg.ptpPrio : Nat := 0x24024
@[inline] def Reg.ptpClkq : Nat := 0x24028
@[inline] def Reg.ptpIntv : Nat := 0x2402c
@[inline] def Reg.ptpTsnap : Nat := 0x24030
@[inline] def Reg.ptpTimeLo : Nat := 0x24034
@[inline] def Reg.ptpTimeHi : Nat := 0x24038
@[inline] def Reg.ptpOffs : Nat := 0x2403c
@[inline] def Reg.ptpMpd : Nat := 0x24040
@[inline] def Reg.ptpRate : Nat := 0x24044
@[inline] def Reg.ptpHoldrate : Nat := 0x24048
@[inline] def Reg.ptpSettimeLo : Nat := 0x2404c
@[inline] def Reg.ptpSettimeHi : Nat := 0x24050
@[inline] def Reg.ptpSetcmd : Nat := 0x24054
@[inline] def Reg.ptpLockth : Nat := 0x24058
@[inline] def Reg.ptpStepth : Nat := 0x2405c
@[inline] def Reg.ptpSlewmax : Nat := 0x24060
@[inline] def Reg.ptpHoldmax : Nat := 0x24064
@[inline] def Reg.ptpGmidLo : Nat := 0x24068
@[inline] def Reg.ptpGmidHi : Nat := 0x2406c
@[inline] def Reg.ptpUtcoff : Nat := 0x24070
@[inline] def Reg.ptpCntsync : Nat := 0x24080
@[inline] def Reg.ptpCntann : Nat := 0x24084
@[inline] def Reg.ptpCntdisc : Nat := 0x24088

/-- The registers of page PTP. -/
def ptpRows : List RegDef :=
  [
    ⟨0x0, 1, 0x0, 1, 0x0, .ro, 0x0, 0x0⟩,
    ⟨0x4, 1, 0x0, 1, 0x0, .ro, 0x0, 0x7⟩,
    ⟨0x8, 1, 0x0, 1, 0x0, .rw, 0x7f, 0x38⟩,
    ⟨0xc, 1, 0x0, 1, 0x0, .ro, 0x0, 0x0⟩,
    ⟨0x10, 1, 0x0, 1, 0x0, .w1c, 0xc000003f, 0x0⟩,
    ⟨0x14, 1, 0x0, 1, 0x0, .rw, 0xc000003f, 0x0⟩,
    ⟨0x18, 1, 0x0, 1, 0x0, .ro, 0x0, 0x0⟩,
    ⟨0x1c, 1, 0x0, 1, 0x0, .rw, 0xffffffff, 0x0⟩,
    ⟨0x20, 1, 0x0, 1, 0x0, .rw, 0xff, 0x0⟩,
    ⟨0x24, 1, 0x0, 1, 0x0, .rw, 0xffff, 0x8080⟩,
    ⟨0x28, 1, 0x0, 1, 0x0, .rw, 0xffffffff, 0xfffffef8⟩,
    ⟨0x2c, 1, 0x0, 1, 0x0, .rw, 0xfffffff, 0x30000fd⟩] ++
  [
    ⟨0x30, 1, 0x0, 1, 0x0, .wo, 0xffffffff, 0x0⟩,
    ⟨0x34, 1, 0x0, 1, 0x0, .ro, 0x0, 0x0⟩,
    ⟨0x38, 1, 0x0, 1, 0x0, .ro, 0x0, 0x0⟩,
    ⟨0x3c, 1, 0x0, 1, 0x0, .ro, 0x0, 0x0⟩,
    ⟨0x40, 1, 0x0, 1, 0x0, .ro, 0x0, 0x0⟩,
    ⟨0x44, 1, 0x0, 1, 0x0, .ro, 0x0, 0x0⟩,
    ⟨0x48, 1, 0x0, 1, 0x0, .ro, 0x0, 0x0⟩,
    ⟨0x4c, 1, 0x0, 1, 0x0, .rw, 0xffffffff, 0x0⟩,
    ⟨0x50, 1, 0x0, 1, 0x0, .rw, 0xffffffff, 0x0⟩,
    ⟨0x54, 1, 0x0, 1, 0x0, .wo, 0xffffffff, 0x0⟩,
    ⟨0x58, 1, 0x0, 1, 0x0, .rw, 0xffffffff, 0x3e8⟩,
    ⟨0x5c, 1, 0x0, 1, 0x0, .rw, 0xffffffff, 0x186a0⟩] ++
  [
    ⟨0x60, 1, 0x0, 1, 0x0, .rw, 0x1ff, 0x64⟩,
    ⟨0x64, 1, 0x0, 1, 0x0, .rw, 0xffff, 0x3c⟩,
    ⟨0x68, 1, 0x0, 1, 0x0, .ro, 0x0, 0x0⟩,
    ⟨0x6c, 1, 0x0, 1, 0x0, .ro, 0x0, 0x0⟩,
    ⟨0x70, 1, 0x0, 1, 0x0, .ro, 0x0, 0x0⟩,
    ⟨0x80, 1, 0x0, 1, 0x0, .ro, 0x0, 0x0⟩,
    ⟨0x84, 1, 0x0, 1, 0x0, .ro, 0x0, 0x0⟩,
    ⟨0x88, 1, 0x0, 1, 0x0, .ro, 0x0, 0x0⟩]

/-! Page CAN (spec/12_bridges.md R335, R336). -/
@[inline] def Reg.canPid (g : Nat) : Nat := 0x28000 + 0x1000 * g
@[inline] def Reg.canCaps (g : Nat) : Nat := 0x28004 + 0x1000 * g
@[inline] def Reg.canCtrl (g : Nat) : Nat := 0x28008 + 0x1000 * g
@[inline] def Reg.canStat (g : Nat) : Nat := 0x2800c + 0x1000 * g
@[inline] def Reg.canEvtRaw (g : Nat) : Nat := 0x28010 + 0x1000 * g
@[inline] def Reg.canEvtMask (g : Nat) : Nat := 0x28014 + 0x1000 * g
@[inline] def Reg.canEvtPend (g : Nat) : Nat := 0x28018 + 0x1000 * g
@[inline] def Reg.canLock (g : Nat) : Nat := 0x2801c + 0x1000 * g
@[inline] def Reg.canNbt (g : Nat) : Nat := 0x28020 + 0x1000 * g
@[inline] def Reg.canDbt (g : Nat) : Nat := 0x28024 + 0x1000 * g
@[inline] def Reg.canTdco (g : Nat) : Nat := 0x28028 + 0x1000 * g
@[inline] def Reg.canCmd (g : Nat) : Nat := 0x2802c + 0x1000 * g
@[inline] def Reg.canRxcnt (g : Nat) : Nat := 0x28030 + 0x1000 * g
@[inline] def Reg.canTxcnt (g : Nat) : Nat := 0x28034 + 0x1000 * g
@[inline] def Reg.canRxdisc (g : Nat) : Nat := 0x28038 + 0x1000 * g
@[inline] def Reg.canBocnt (g : Nat) : Nat := 0x2803c + 0x1000 * g

/-- The registers of page CAN. -/
def canRows : List RegDef :=
  [
    ⟨0x0, 1, 0x0, 1, 0x0, .ro, 0x0, 0x0⟩,
    ⟨0x4, 1, 0x0, 1, 0x0, .ro, 0x0, 0x1⟩,
    ⟨0x8, 1, 0x0, 1, 0x0, .rw, 0x1f, 0x8⟩,
    ⟨0xc, 1, 0x0, 1, 0x0, .ro, 0x0, 0x0⟩,
    ⟨0x10, 1, 0x0, 1, 0x0, .w1c, 0xc000000f, 0x0⟩,
    ⟨0x14, 1, 0x0, 1, 0x0, .rw, 0xc000000f, 0x0⟩,
    ⟨0x18, 1, 0x0, 1, 0x0, .ro, 0x0, 0x0⟩,
    ⟨0x1c, 1, 0x0, 1, 0x0, .rw, 0xffffffff, 0x0⟩,
    ⟨0x20, 1, 0x0, 1, 0x0, .rw, 0x7f7fff1f, 0x1f1f7e00⟩,
    ⟨0x24, 1, 0x0, 1, 0x0, .rw, 0xf0f1f1f, 0x7071e00⟩,
    ⟨0x28, 1, 0x0, 1, 0x0, .rw, 0x7f, 0x1f⟩,
    ⟨0x2c, 1, 0x0, 1, 0x0, .wo, 0xffffffff, 0x0⟩] ++
  [
    ⟨0x30, 1, 0x0, 1, 0x0, .ro, 0x0, 0x0⟩,
    ⟨0x34, 1, 0x0, 1, 0x0, .ro, 0x0, 0x0⟩,
    ⟨0x38, 1, 0x0, 1, 0x0, .ro, 0x0, 0x0⟩,
    ⟨0x3c, 1, 0x0, 1, 0x0, .ro, 0x0, 0x0⟩]

/-! Page MVB (spec/12_bridges.md R337). -/
@[inline] def Reg.mvbPid : Nat := 0x2c000
@[inline] def Reg.mvbCaps : Nat := 0x2c004
@[inline] def Reg.mvbCtrl : Nat := 0x2c008
@[inline] def Reg.mvbStat : Nat := 0x2c00c
@[inline] def Reg.mvbEvtRaw : Nat := 0x2c010
@[inline] def Reg.mvbEvtMask : Nat := 0x2c014
@[inline] def Reg.mvbEvtPend : Nat := 0x2c018
@[inline] def Reg.mvbLock : Nat := 0x2c01c
@[inline] def Reg.mvbDevaddr : Nat := 0x2c020
@[inline] def Reg.mvbWinIdx : Nat := 0x2c040
@[inline] def Reg.mvbWinCmd : Nat := 0x2c044
@[inline] def Reg.mvbWinStat : Nat := 0x2c048
@[inline] def Reg.mvbWinData (i : Nat) : Nat := 0x2c050 + 0x4 * i
@[inline] def Reg.mvbWinData2 : Nat := 0x2c058
@[inline] def Reg.mvbFrm (i : Nat) : Nat := 0x2c060 + 0x4 * i
@[inline] def Reg.mvbErr (i : Nat) : Nat := 0x2c068 + 0x4 * i

/-- The registers of page MVB. -/
def mvbRows : List RegDef :=
  [
    ⟨0x0, 1, 0x0, 1, 0x0, .ro, 0x0, 0x0⟩,
    ⟨0x4, 1, 0x0, 1, 0x0, .ro, 0x0, 0x100⟩,
    ⟨0x8, 1, 0x0, 1, 0x0, .rw, 0x7, 0x0⟩,
    ⟨0xc, 1, 0x0, 1, 0x0, .ro, 0x0, 0x0⟩,
    ⟨0x10, 1, 0x0, 1, 0x0, .w1c, 0xc0000007, 0x0⟩,
    ⟨0x14, 1, 0x0, 1, 0x0, .rw, 0xc0000007, 0x0⟩,
    ⟨0x18, 1, 0x0, 1, 0x0, .ro, 0x0, 0x0⟩,
    ⟨0x1c, 1, 0x0, 1, 0x0, .rw, 0xffffffff, 0x0⟩,
    ⟨0x20, 1, 0x0, 1, 0x0, .rw, 0xfff, 0x0⟩,
    ⟨0x40, 1, 0x0, 1, 0x0, .rw, 0xff, 0x0⟩,
    ⟨0x44, 1, 0x0, 1, 0x0, .wo, 0xffffffff, 0x0⟩,
    ⟨0x48, 1, 0x0, 1, 0x0, .ro, 0x0, 0x0⟩] ++
  [
    ⟨0x50, 2, 0x4, 1, 0x0, .rw, 0xffffffff, 0x0⟩,
    ⟨0x58, 1, 0x0, 1, 0x0, .ro, 0x0, 0x0⟩,
    ⟨0x60, 2, 0x4, 1, 0x0, .ro, 0x0, 0x0⟩,
    ⟨0x68, 2, 0x4, 1, 0x0, .ro, 0x0, 0x0⟩]

/-! Page BRG (spec/12_bridges.md R338). -/
@[inline] def Reg.brgPid : Nat := 0x2d000
@[inline] def Reg.brgCaps : Nat := 0x2d004
@[inline] def Reg.brgCtrl : Nat := 0x2d008
@[inline] def Reg.brgStat : Nat := 0x2d00c
@[inline] def Reg.brgEvtRaw : Nat := 0x2d010
@[inline] def Reg.brgEvtMask : Nat := 0x2d014
@[inline] def Reg.brgEvtPend : Nat := 0x2d018
@[inline] def Reg.brgLock : Nat := 0x2d01c
@[inline] def Reg.brgWinIdx : Nat := 0x2d020
@[inline] def Reg.brgWinCmd : Nat := 0x2d024
@[inline] def Reg.brgWinStat : Nat := 0x2d028
@[inline] def Reg.brgWinData (i : Nat) : Nat := 0x2d030 + 0x4 * i
@[inline] def Reg.brgWinData8 : Nat := 0x2d050
@[inline] def Reg.brgDrop (i : Nat) : Nat := 0x2d060 + 0x4 * i
@[inline] def Reg.brgUnmatched : Nat := 0x2d080
@[inline] def Reg.brgShort : Nat := 0x2d084
@[inline] def Reg.brgFwdcnt : Nat := 0x2d088
@[inline] def Reg.brgLaststale : Nat := 0x2d08c

/-- The registers of page BRG. -/
def brgRows : List RegDef :=
  [
    ⟨0x0, 1, 0x0, 1, 0x0, .ro, 0x0, 0x0⟩,
    ⟨0x4, 1, 0x0, 1, 0x0, .ro, 0x0, 0x81000⟩,
    ⟨0x8, 1, 0x0, 1, 0x0, .rw, 0x1, 0x0⟩,
    ⟨0xc, 1, 0x0, 1, 0x0, .ro, 0x0, 0x0⟩,
    ⟨0x10, 1, 0x0, 1, 0x0, .w1c, 0xc000000f, 0x0⟩,
    ⟨0x14, 1, 0x0, 1, 0x0, .rw, 0xc000000f, 0x0⟩,
    ⟨0x18, 1, 0x0, 1, 0x0, .ro, 0x0, 0x0⟩,
    ⟨0x1c, 1, 0x0, 1, 0x0, .rw, 0xffffffff, 0x0⟩,
    ⟨0x20, 1, 0x0, 1, 0x0, .rw, 0xfff, 0x0⟩,
    ⟨0x24, 1, 0x0, 1, 0x0, .wo, 0xffffffff, 0x0⟩,
    ⟨0x28, 1, 0x0, 1, 0x0, .ro, 0x0, 0x0⟩,
    ⟨0x30, 8, 0x4, 1, 0x0, .rw, 0xffffffff, 0x0⟩] ++
  [
    ⟨0x50, 1, 0x0, 1, 0x0, .ro, 0x0, 0x0⟩,
    ⟨0x60, 7, 0x4, 1, 0x0, .ro, 0x0, 0x0⟩,
    ⟨0x80, 1, 0x0, 1, 0x0, .ro, 0x0, 0x0⟩,
    ⟨0x84, 1, 0x0, 1, 0x0, .ro, 0x0, 0x0⟩,
    ⟨0x88, 1, 0x0, 1, 0x0, .ro, 0x0, 0x0⟩,
    ⟨0x8c, 1, 0x0, 1, 0x0, .ro, 0x0, 0x0⟩]

/-! Page HIF (spec/14_host_and_mailboxes.md R383). -/
@[inline] def Reg.hifPid : Nat := 0x30000
@[inline] def Reg.hifCaps : Nat := 0x30004
@[inline] def Reg.hifCtrl : Nat := 0x30008
@[inline] def Reg.hifStat : Nat := 0x3000c
@[inline] def Reg.hifEvtRaw : Nat := 0x30010
@[inline] def Reg.hifEvtMask : Nat := 0x30014
@[inline] def Reg.hifEvtPend : Nat := 0x30018
@[inline] def Reg.hifLock : Nat := 0x3001c
@[inline] def Reg.hifAtomcnt : Nat := 0x30020
@[inline] def Reg.hifUrcnt : Nat := 0x30024
@[inline] def Reg.hifLinkdncnt : Nat := 0x30028
@[inline] def Reg.hifSem (i : Nat) : Nat := 0x30100 + 0x4 * i

/-- The registers of page HIF. -/
def hifRows : List RegDef :=
  [
    ⟨0x0, 1, 0x0, 1, 0x0, .ro, 0x0, 0x0⟩,
    ⟨0x4, 1, 0x0, 1, 0x0, .ro, 0x0, 0x200322⟩,
    ⟨0x8, 1, 0x0, 1, 0x0, .ro, 0x0, 0x0⟩,
    ⟨0xc, 1, 0x0, 1, 0x0, .ro, 0x0, 0x0⟩,
    ⟨0x10, 1, 0x0, 1, 0x0, .w1c, 0xc000001f, 0x0⟩,
    ⟨0x14, 1, 0x0, 1, 0x0, .rw, 0xc000001f, 0x0⟩,
    ⟨0x18, 1, 0x0, 1, 0x0, .ro, 0x0, 0x0⟩,
    ⟨0x1c, 1, 0x0, 1, 0x0, .rw, 0xffffffff, 0x0⟩,
    ⟨0x20, 1, 0x0, 1, 0x0, .ro, 0x0, 0x0⟩,
    ⟨0x24, 1, 0x0, 1, 0x0, .ro, 0x0, 0x0⟩,
    ⟨0x28, 1, 0x0, 1, 0x0, .ro, 0x0, 0x0⟩,
    ⟨0x100, 32, 0x4, 1, 0x0, .rw, 0xf, 0x0⟩]

/-! Page MBX (spec/14_host_and_mailboxes.md R384, R385). -/
@[inline] def Reg.mbxPid : Nat := 0x31000
@[inline] def Reg.mbxCaps : Nat := 0x31004
@[inline] def Reg.mbxCtrl : Nat := 0x31008
@[inline] def Reg.mbxStat : Nat := 0x3100c
@[inline] def Reg.mbxEvtRaw : Nat := 0x31010
@[inline] def Reg.mbxEvtMask : Nat := 0x31014
@[inline] def Reg.mbxEvtPend : Nat := 0x31018
@[inline] def Reg.mbxLock : Nat := 0x3101c
@[inline] def Reg.mbxBind (i : Nat) : Nat := 0x31020 + 0x4 * i
@[inline] def Reg.mbxCstat (i : Nat) : Nat := 0x310a0 + 0x4 * i
@[inline] def Reg.mbxCepoch (i : Nat) : Nat := 0x31120 + 0x4 * i
@[inline] def Reg.mbxCpop (i : Nat) : Nat := 0x311a0 + 0x4 * i
@[inline] def Reg.mbxTxword (i : Nat) : Nat := 0x31220 + 0x4 * i
@[inline] def Reg.mbxTxcommit (i : Nat) : Nat := 0x312a0 + 0x4 * i
@[inline] def Reg.mbxRxpop (i : Nat) : Nat := 0x31320 + 0x4 * i
@[inline] def Reg.mbxEndrst (i : Nat) : Nat := 0x313a0 + 0x4 * i
@[inline] def Reg.mbxRxsel (i : Nat) : Nat := 0x31420 + 0x80 * i
@[inline] def Reg.mbxRxinfo (i : Nat) : Nat := 0x31424 + 0x80 * i
@[inline] def Reg.mbxRxdata (i j : Nat) : Nat := 0x31428 + 0x80 * i + 0x4 * j

/-- The registers of page MBX; CTRL, to which its chapter gives no fields, is read-only (DESIGN CHOICE, log entry 61). -/
def mbxRows : List RegDef :=
  [
    ⟨0x0, 1, 0x0, 1, 0x0, .ro, 0x0, 0x0⟩,
    ⟨0x4, 1, 0x0, 1, 0x0, .ro, 0x0, 0x1010⟩,
    ⟨0x8, 1, 0x0, 1, 0x0, .ro, 0x0, 0x0⟩,
    ⟨0xc, 1, 0x0, 1, 0x0, .ro, 0x0, 0x0⟩,
    ⟨0x10, 1, 0x0, 1, 0x0, .w1c, 0xc000000f, 0x0⟩,
    ⟨0x14, 1, 0x0, 1, 0x0, .rw, 0xc000000f, 0x0⟩,
    ⟨0x18, 1, 0x0, 1, 0x0, .ro, 0x0, 0x0⟩,
    ⟨0x1c, 1, 0x0, 1, 0x0, .rw, 0xffffffff, 0x0⟩,
    ⟨0x20, 1, 0, 1, 0, .rwl, 0x800000ff, 0x80000081⟩,
    ⟨0x24, 1, 0, 1, 0, .rwl, 0x800000ff, 0x80000086⟩,
    ⟨0x28, 1, 0, 1, 0, .rwl, 0x800000ff, 0x80000083⟩,
    ⟨0x2c, 1, 0, 1, 0, .rwl, 0x800000ff, 0x0⟩] ++
  [
    ⟨0x30, 1, 0, 1, 0, .rwl, 0x800000ff, 0x80000091⟩,
    ⟨0x34, 1, 0, 1, 0, .rwl, 0x800000ff, 0x80000091⟩,
    ⟨0x38, 1, 0, 1, 0, .rwl, 0x800000ff, 0x80000091⟩,
    ⟨0x3c, 1, 0, 1, 0, .rwl, 0x800000ff, 0x80000091⟩,
    ⟨0x40, 1, 0, 1, 0, .rwl, 0x800000ff, 0x80000011⟩,
    ⟨0x44, 1, 0, 1, 0, .rwl, 0x800000ff, 0x80000011⟩,
    ⟨0x48, 1, 0, 1, 0, .rwl, 0x800000ff, 0x80000011⟩,
    ⟨0x4c, 1, 0, 1, 0, .rwl, 0x800000ff, 0x80000011⟩,
    ⟨0x50, 1, 0, 1, 0, .rwl, 0x800000ff, 0x0⟩,
    ⟨0x54, 1, 0, 1, 0, .rwl, 0x800000ff, 0x0⟩,
    ⟨0x58, 1, 0, 1, 0, .rwl, 0x800000ff, 0x0⟩,
    ⟨0x5c, 1, 0, 1, 0, .rwl, 0x800000ff, 0x0⟩] ++
  [
    ⟨0x60, 1, 0, 1, 0, .ro, 0x800000ff, 0x80000028⟩,
    ⟨0x64, 1, 0, 1, 0, .rwl, 0x800000ff, 0x80000083⟩,
    ⟨0x68, 1, 0, 1, 0, .rwl, 0x800000ff, 0x0⟩,
    ⟨0x6c, 1, 0, 1, 0, .rwl, 0x800000ff, 0x0⟩,
    ⟨0x70, 1, 0, 1, 0, .rwl, 0x800000ff, 0x0⟩,
    ⟨0x74, 1, 0, 1, 0, .rwl, 0x800000ff, 0x0⟩,
    ⟨0x78, 1, 0, 1, 0, .rwl, 0x800000ff, 0x0⟩,
    ⟨0x7c, 1, 0, 1, 0, .rwl, 0x800000ff, 0x0⟩,
    ⟨0x80, 1, 0, 1, 0, .rwl, 0x800000ff, 0x0⟩,
    ⟨0x84, 1, 0, 1, 0, .rwl, 0x800000ff, 0x0⟩,
    ⟨0x88, 1, 0, 1, 0, .rwl, 0x800000ff, 0x0⟩,
    ⟨0x8c, 1, 0, 1, 0, .rwl, 0x800000ff, 0x0⟩] ++
  [
    ⟨0x90, 1, 0, 1, 0, .rwl, 0x800000ff, 0x0⟩,
    ⟨0x94, 1, 0, 1, 0, .rwl, 0x800000ff, 0x0⟩,
    ⟨0x98, 1, 0, 1, 0, .rwl, 0x800000ff, 0x0⟩,
    ⟨0x9c, 1, 0, 1, 0, .rwl, 0x800000ff, 0x0⟩,
    ⟨0xa0, 32, 0x4, 1, 0x0, .w1c, 0xff0000, 0x0⟩,
    ⟨0x120, 32, 0x4, 1, 0x0, .ro, 0x0, 0x0⟩,
    ⟨0x1a0, 32, 0x4, 1, 0x0, .ro, 0x0, 0x0⟩,
    ⟨0x220, 32, 0x4, 1, 0x0, .wo, 0xffffffff, 0x0⟩,
    ⟨0x2a0, 32, 0x4, 1, 0x0, .wo, 0xffffffff, 0x0⟩,
    ⟨0x320, 32, 0x4, 1, 0x0, .wo, 0xffffffff, 0x0⟩,
    ⟨0x3a0, 32, 0x4, 1, 0x0, .wo, 0xffffffff, 0x0⟩,
    ⟨0x420, 2, 0x80, 1, 0x0, .rw, 0x1f, 0x0⟩] ++
  [
    ⟨0x424, 2, 0x80, 1, 0x0, .ro, 0x0, 0x0⟩,
    ⟨0x428, 2, 0x80, 16, 0x4, .ro, 0x0, 0x0⟩]

/-! Page DBL (spec/14_host_and_mailboxes.md R386). -/
@[inline] def Reg.dblPid : Nat := 0x32000
@[inline] def Reg.dblCaps : Nat := 0x32004
@[inline] def Reg.dblCtrl : Nat := 0x32008
@[inline] def Reg.dblStat : Nat := 0x3200c
@[inline] def Reg.dblEvtRaw : Nat := 0x32010
@[inline] def Reg.dblEvtMask : Nat := 0x32014
@[inline] def Reg.dblEvtPend : Nat := 0x32018
@[inline] def Reg.dblLock : Nat := 0x3201c
@[inline] def Reg.dblDb (i : Nat) : Nat := 0x32020 + 0x10 * i
@[inline] def Reg.dblDbmask (i : Nat) : Nat := 0x32024 + 0x10 * i
@[inline] def Reg.dblDbpend (i : Nat) : Nat := 0x32028 + 0x10 * i
@[inline] def Reg.dblSblo (i : Nat) : Nat := 0x32200 + 0x20 * i
@[inline] def Reg.dblSbhi (i : Nat) : Nat := 0x32204 + 0x20 * i
@[inline] def Reg.dblSbctrl (i : Nat) : Nat := 0x32208 + 0x20 * i
@[inline] def Reg.dblC0acc (i : Nat) : Nat := 0x3220c + 0x20 * i
@[inline] def Reg.dblSbseq (i : Nat) : Nat := 0x32210 + 0x20 * i
@[inline] def Reg.dblMsixLo (i j : Nat) : Nat := 0x32400 + 0x200 * i + 0x10 * j
@[inline] def Reg.dblMsixHi (i j : Nat) : Nat := 0x32404 + 0x200 * i + 0x10 * j
@[inline] def Reg.dblMsixData (i j : Nat) : Nat := 0x32408 + 0x200 * i + 0x10 * j
@[inline] def Reg.dblMsixCtl (i j : Nat) : Nat := 0x3240c + 0x200 * i + 0x10 * j
@[inline] def Reg.dblPba (i : Nat) : Nat := 0x32800 + 0x8 * i

/-- The registers of page DBL; CTRL, to which its chapter gives no fields, is read-only (DESIGN CHOICE, log entry 61). -/
def dblRows : List RegDef :=
  [
    ⟨0x0, 1, 0x0, 1, 0x0, .ro, 0x0, 0x0⟩,
    ⟨0x4, 1, 0x0, 1, 0x0, .ro, 0x0, 0x720⟩,
    ⟨0x8, 1, 0x0, 1, 0x0, .ro, 0x0, 0x0⟩,
    ⟨0xc, 1, 0x0, 1, 0x0, .ro, 0x0, 0x0⟩,
    ⟨0x10, 1, 0x0, 1, 0x0, .w1c, 0xc0000003, 0x0⟩,
    ⟨0x14, 1, 0x0, 1, 0x0, .rw, 0xc0000003, 0x0⟩,
    ⟨0x18, 1, 0x0, 1, 0x0, .ro, 0x0, 0x0⟩,
    ⟨0x1c, 1, 0x0, 1, 0x0, .rw, 0xffffffff, 0x0⟩,
    ⟨0x20, 1, 0, 1, 0, .ro, 0xffffffff, 0⟩,
    ⟨0x30, 1, 0, 1, 0, .ro, 0xffffffff, 0⟩,
    ⟨0x40, 1, 0, 1, 0, .ro, 0xffffffff, 0⟩,
    ⟨0x50, 1, 0, 1, 0, .ro, 0xffffffff, 0⟩] ++
  [
    ⟨0x60, 1, 0, 1, 0, .ro, 0xffffffff, 0⟩,
    ⟨0x70, 1, 0, 1, 0, .ro, 0xffffffff, 0⟩,
    ⟨0x80, 1, 0, 1, 0, .ro, 0xffffffff, 0⟩,
    ⟨0x90, 1, 0, 1, 0, .ro, 0xffffffff, 0⟩,
    ⟨0xa0, 1, 0, 1, 0, .w1c, 0xffffffff, 0⟩,
    ⟨0xb0, 1, 0, 1, 0, .w1c, 0xffffffff, 0⟩,
    ⟨0xc0, 1, 0, 1, 0, .ro, 0xffffffff, 0⟩,
    ⟨0xd0, 1, 0, 1, 0, .ro, 0xffffffff, 0⟩,
    ⟨0xe0, 1, 0, 1, 0, .ro, 0xffffffff, 0⟩,
    ⟨0xf0, 1, 0, 1, 0, .ro, 0xffffffff, 0⟩,
    ⟨0x100, 1, 0, 1, 0, .ro, 0xffffffff, 0⟩,
    ⟨0x110, 1, 0, 1, 0, .ro, 0xffffffff, 0⟩] ++
  [
    ⟨0x24, 1, 0, 1, 0, .ro, 0xffffffff, 0xffffffff⟩,
    ⟨0x34, 1, 0, 1, 0, .ro, 0xffffffff, 0xffffffff⟩,
    ⟨0x44, 1, 0, 1, 0, .ro, 0xffffffff, 0xffffffff⟩,
    ⟨0x54, 1, 0, 1, 0, .ro, 0xffffffff, 0xffffffff⟩,
    ⟨0x64, 1, 0, 1, 0, .ro, 0xffffffff, 0xffffffff⟩,
    ⟨0x74, 1, 0, 1, 0, .ro, 0xffffffff, 0xffffffff⟩,
    ⟨0x84, 1, 0, 1, 0, .ro, 0xffffffff, 0xffffffff⟩,
    ⟨0x94, 1, 0, 1, 0, .ro, 0xffffffff, 0xffffffff⟩,
    ⟨0xa4, 1, 0, 1, 0, .rw, 0xffffffff, 0x0⟩,
    ⟨0xb4, 1, 0, 1, 0, .rw, 0xffffffff, 0x0⟩,
    ⟨0xc4, 1, 0, 1, 0, .ro, 0xffffffff, 0xffffffff⟩,
    ⟨0xd4, 1, 0, 1, 0, .ro, 0xffffffff, 0xffffffff⟩] ++
  [
    ⟨0xe4, 1, 0, 1, 0, .ro, 0xffffffff, 0xffffffff⟩,
    ⟨0xf4, 1, 0, 1, 0, .ro, 0xffffffff, 0xffffffff⟩,
    ⟨0x104, 1, 0, 1, 0, .ro, 0xffffffff, 0xffffffff⟩,
    ⟨0x114, 1, 0, 1, 0, .ro, 0xffffffff, 0xffffffff⟩,
    ⟨0x28, 16, 0x10, 1, 0x0, .ro, 0x0, 0x0⟩,
    ⟨0x200, 2, 0x20, 1, 0x0, .rw, 0xffffffc0, 0x0⟩,
    ⟨0x204, 2, 0x20, 1, 0x0, .rw, 0xffffffff, 0x0⟩,
    ⟨0x208, 2, 0x20, 1, 0x0, .rw, 0x1, 0x0⟩,
    ⟨0x20c, 2, 0x20, 1, 0x0, .w1c, 0xffffffff, 0x0⟩,
    ⟨0x210, 2, 0x20, 1, 0x0, .ro, 0x0, 0x0⟩,
    ⟨0x400, 2, 0x200, 32, 0x10, .rw, 0xfffffffc, 0x0⟩,
    ⟨0x404, 2, 0x200, 32, 0x10, .rw, 0xffffffff, 0x0⟩] ++
  [
    ⟨0x408, 2, 0x200, 32, 0x10, .rw, 0xffffffff, 0x0⟩,
    ⟨0x40c, 2, 0x200, 32, 0x10, .rw, 0x1, 0x1⟩,
    ⟨0x800, 2, 0x8, 1, 0x0, .ro, 0x0, 0x0⟩]

/-! Page SETT (spec/15_sett_recorder.md R405, R406). -/
@[inline] def Reg.settPid : Nat := 0x34000
@[inline] def Reg.settCaps : Nat := 0x34004
@[inline] def Reg.settCtrl : Nat := 0x34008
@[inline] def Reg.settStat : Nat := 0x3400c
@[inline] def Reg.settEvtRaw : Nat := 0x34010
@[inline] def Reg.settEvtMask : Nat := 0x34014
@[inline] def Reg.settEvtPend : Nat := 0x34018
@[inline] def Reg.settLock : Nat := 0x3401c
@[inline] def Reg.settCmd : Nat := 0x34020
@[inline] def Reg.settSnap : Nat := 0x34024
@[inline] def Reg.settFirstLo : Nat := 0x34028
@[inline] def Reg.settFirstHi : Nat := 0x3402c
@[inline] def Reg.settLastLo : Nat := 0x34030
@[inline] def Reg.settLastHi : Nat := 0x34034
@[inline] def Reg.settRingcnt : Nat := 0x34038
@[inline] def Reg.settLostcnt : Nat := 0x3403c
@[inline] def Reg.settProtfirstLo : Nat := 0x34040
@[inline] def Reg.settProtfirstHi : Nat := 0x34044
@[inline] def Reg.settProtcnt : Nat := 0x34048
@[inline] def Reg.settProtLo (i : Nat) : Nat := 0x34050 + 0xc * i
@[inline] def Reg.settProtHi (i : Nat) : Nat := 0x34054 + 0xc * i
@[inline] def Reg.settProtCnt (i : Nat) : Nat := 0x34058 + 0xc * i
@[inline] def Reg.settRdseqLo : Nat := 0x34080
@[inline] def Reg.settRdseqHi : Nat := 0x34084
@[inline] def Reg.settRdstat : Nat := 0x34088
@[inline] def Reg.settRddata (i : Nat) : Nat := 0x34090 + 0x4 * i
@[inline] def Reg.settSpare : Nat := 0x340d0
@[inline] def Reg.settPagecnt : Nat := 0x340d4
@[inline] def Reg.settExtrcnt : Nat := 0x340d8

/-- The registers of page SETT. -/
def settRows : List RegDef :=
  [
    ⟨0x0, 1, 0x0, 1, 0x0, .ro, 0x0, 0x0⟩,
    ⟨0x4, 1, 0x0, 1, 0x0, .ro, 0x0, 0x190840⟩,
    ⟨0x8, 1, 0x0, 1, 0x0, .rw, 0xffff, 0x64⟩,
    ⟨0xc, 1, 0x0, 1, 0x0, .ro, 0x0, 0x0⟩,
    ⟨0x10, 1, 0x0, 1, 0x0, .w1c, 0xc000001f, 0x0⟩,
    ⟨0x14, 1, 0x0, 1, 0x0, .rw, 0xc000001f, 0x0⟩,
    ⟨0x18, 1, 0x0, 1, 0x0, .ro, 0x0, 0x0⟩,
    ⟨0x1c, 1, 0x0, 1, 0x0, .rw, 0xffffffff, 0x0⟩,
    ⟨0x20, 1, 0x0, 1, 0x0, .wo, 0xffffffff, 0x0⟩,
    ⟨0x24, 1, 0x0, 1, 0x0, .wo, 0xffffffff, 0x0⟩,
    ⟨0x28, 1, 0x0, 1, 0x0, .ro, 0x0, 0x0⟩,
    ⟨0x2c, 1, 0x0, 1, 0x0, .ro, 0x0, 0x0⟩] ++
  [
    ⟨0x30, 1, 0x0, 1, 0x0, .ro, 0x0, 0x0⟩,
    ⟨0x34, 1, 0x0, 1, 0x0, .ro, 0x0, 0x0⟩,
    ⟨0x38, 1, 0x0, 1, 0x0, .ro, 0x0, 0x0⟩,
    ⟨0x3c, 1, 0x0, 1, 0x0, .ro, 0x0, 0x0⟩,
    ⟨0x40, 1, 0x0, 1, 0x0, .rw, 0xffffffff, 0x0⟩,
    ⟨0x44, 1, 0x0, 1, 0x0, .rw, 0xffff, 0x0⟩,
    ⟨0x48, 1, 0x0, 1, 0x0, .rw, 0x3ffffff, 0x0⟩,
    ⟨0x50, 4, 0xc, 1, 0x0, .ro, 0x0, 0x0⟩,
    ⟨0x54, 4, 0xc, 1, 0x0, .ro, 0x0, 0x0⟩,
    ⟨0x58, 4, 0xc, 1, 0x0, .ro, 0x0, 0x0⟩,
    ⟨0x80, 1, 0x0, 1, 0x0, .rw, 0xffffffff, 0x0⟩,
    ⟨0x84, 1, 0x0, 1, 0x0, .rw, 0xffff, 0x0⟩] ++
  [
    ⟨0x88, 1, 0x0, 1, 0x0, .ro, 0x0, 0x0⟩,
    ⟨0x90, 16, 0x4, 1, 0x0, .ro, 0x0, 0x0⟩,
    ⟨0xd0, 1, 0x0, 1, 0x0, .ro, 0x0, 0x0⟩,
    ⟨0xd4, 1, 0x0, 1, 0x0, .ro, 0x0, 0x0⟩,
    ⟨0xd8, 1, 0x0, 1, 0x0, .ro, 0x0, 0x0⟩]

/-! Page UPD (spec/17_start_up_and_update.md R455). -/
@[inline] def Reg.updPid : Nat := 0x38000
@[inline] def Reg.updCaps : Nat := 0x38004
@[inline] def Reg.updCtrl : Nat := 0x38008
@[inline] def Reg.updStat : Nat := 0x3800c
@[inline] def Reg.updEvtRaw : Nat := 0x38010
@[inline] def Reg.updEvtMask : Nat := 0x38014
@[inline] def Reg.updEvtPend : Nat := 0x38018
@[inline] def Reg.updLock : Nat := 0x3801c
@[inline] def Reg.updResult : Nat := 0x38020
@[inline] def Reg.updSession : Nat := 0x38024
@[inline] def Reg.updRunid : Nat := 0x38028
@[inline] def Reg.updRunrev : Nat := 0x3802c
@[inline] def Reg.updStoreid : Nat := 0x38030
@[inline] def Reg.updStorerev : Nat := 0x38034
@[inline] def Reg.updKeystat : Nat := 0x38038
@[inline] def Reg.updBootstat : Nat := 0x3803c
@[inline] def Reg.updOtphash (i : Nat) : Nat := 0x38040 + 0x4 * i
@[inline] def Reg.updOtpcmd : Nat := 0x38060
@[inline] def Reg.updErasecnt : Nat := 0x38064

/-- The registers of page UPD. -/
def updRows : List RegDef :=
  [
    ⟨0x0, 1, 0x0, 1, 0x0, .ro, 0x0, 0x0⟩,
    ⟨0x4, 1, 0x0, 1, 0x0, .ro, 0x0, 0xa0004⟩,
    ⟨0x8, 1, 0x0, 1, 0x0, .rwl, 0x3, 0x3⟩,
    ⟨0xc, 1, 0x0, 1, 0x0, .ro, 0x0, 0x0⟩,
    ⟨0x10, 1, 0x0, 1, 0x0, .w1c, 0xc000003f, 0x0⟩,
    ⟨0x14, 1, 0x0, 1, 0x0, .rw, 0xc000003f, 0x0⟩,
    ⟨0x18, 1, 0x0, 1, 0x0, .ro, 0x0, 0x0⟩,
    ⟨0x1c, 1, 0x0, 1, 0x0, .rw, 0xffffffff, 0x0⟩,
    ⟨0x20, 1, 0x0, 1, 0x0, .ro, 0x0, 0x0⟩,
    ⟨0x24, 1, 0x0, 1, 0x0, .ro, 0x0, 0x0⟩,
    ⟨0x28, 1, 0x0, 1, 0x0, .ro, 0x0, 0x0⟩,
    ⟨0x2c, 1, 0x0, 1, 0x0, .ro, 0x0, 0x0⟩] ++
  [
    ⟨0x30, 1, 0x0, 1, 0x0, .ro, 0x0, 0x0⟩,
    ⟨0x34, 1, 0x0, 1, 0x0, .ro, 0x0, 0x0⟩,
    ⟨0x38, 1, 0x0, 1, 0x0, .ro, 0x0, 0x0⟩,
    ⟨0x3c, 1, 0x0, 1, 0x0, .ro, 0x0, 0x0⟩,
    ⟨0x40, 8, 0x4, 1, 0x0, .rwl, 0xffffffff, 0x0⟩,
    ⟨0x60, 1, 0x0, 1, 0x0, .wo, 0xffffffff, 0x0⟩,
    ⟨0x64, 1, 0x0, 1, 0x0, .ro, 0x0, 0x0⟩]

/-! Page TWN (spec/18_twin_modules.md R474). -/
@[inline] def Reg.twnPid : Nat := 0x39000
@[inline] def Reg.twnCaps : Nat := 0x39004
@[inline] def Reg.twnCtrl : Nat := 0x39008
@[inline] def Reg.twnStat : Nat := 0x3900c
@[inline] def Reg.twnEvtRaw : Nat := 0x39010
@[inline] def Reg.twnEvtMask : Nat := 0x39014
@[inline] def Reg.twnEvtPend : Nat := 0x39018
@[inline] def Reg.twnLock : Nat := 0x3901c
@[inline] def Reg.twnPairid : Nat := 0x39020
@[inline] def Reg.twnSvcip : Nat := 0x39024
@[inline] def Reg.twnRefip : Nat := 0x39028
@[inline] def Reg.twnMlag : Nat := 0x3902c
@[inline] def Reg.twnMmlim : Nat := 0x39030
@[inline] def Reg.twnRefresh : Nat := 0x39034
@[inline] def Reg.twnRejoin : Nat := 0x39038
@[inline] def Reg.twnReftout : Nat := 0x3903c
@[inline] def Reg.twnMmcnt : Nat := 0x39040
@[inline] def Reg.twnLinkerr : Nat := 0x39044
@[inline] def Reg.twnTakeovers : Nat := 0x39048
@[inline] def Reg.twnLastto : Nat := 0x3904c
@[inline] def Reg.twnJointime : Nat := 0x39050
@[inline] def Reg.twnPeer : Nat := 0x39054
@[inline] def Reg.twnRefpair (i : Nat) : Nat := 0x39060 + 0x8 * i
@[inline] def Reg.twnRefhold (i : Nat) : Nat := 0x39064 + 0x8 * i

/-- The registers of page TWN. -/
def twnRows : List RegDef :=
  [
    ⟨0x0, 1, 0x0, 1, 0x0, .ro, 0x0, 0x0⟩,
    ⟨0x4, 1, 0x0, 1, 0x0, .ro, 0x0, 0x801⟩,
    ⟨0x8, 1, 0x0, 1, 0x0, .rwl, 0x7, 0x0⟩,
    ⟨0xc, 1, 0x0, 1, 0x0, .ro, 0x0, 0x0⟩,
    ⟨0x10, 1, 0x0, 1, 0x0, .w1c, 0xc000007f, 0x0⟩,
    ⟨0x14, 1, 0x0, 1, 0x0, .rw, 0xc000007f, 0x0⟩,
    ⟨0x18, 1, 0x0, 1, 0x0, .ro, 0x0, 0x0⟩,
    ⟨0x1c, 1, 0x0, 1, 0x0, .rw, 0xffffffff, 0x0⟩,
    ⟨0x20, 1, 0x0, 1, 0x0, .rwl, 0xffff, 0x0⟩,
    ⟨0x24, 1, 0x0, 1, 0x0, .rwl, 0xffffffff, 0x0⟩,
    ⟨0x28, 1, 0x0, 1, 0x0, .rwl, 0xffffffff, 0x0⟩,
    ⟨0x2c, 1, 0x0, 1, 0x0, .rwl, 0xff, 0x32⟩] ++
  [
    ⟨0x30, 1, 0x0, 1, 0x0, .rwl, 0x1f, 0x3⟩,
    ⟨0x34, 1, 0x0, 1, 0x0, .rwl, 0x7f, 0xa⟩,
    ⟨0x38, 1, 0x0, 1, 0x0, .wo, 0xffffffff, 0x0⟩,
    ⟨0x3c, 1, 0x0, 1, 0x0, .ro, 0x0, 0x0⟩,
    ⟨0x40, 1, 0x0, 1, 0x0, .ro, 0x0, 0x0⟩,
    ⟨0x44, 1, 0x0, 1, 0x0, .ro, 0x0, 0x0⟩,
    ⟨0x48, 1, 0x0, 1, 0x0, .ro, 0x0, 0x0⟩,
    ⟨0x4c, 1, 0x0, 1, 0x0, .ro, 0x0, 0x0⟩,
    ⟨0x50, 1, 0x0, 1, 0x0, .ro, 0x0, 0x0⟩,
    ⟨0x54, 1, 0x0, 1, 0x0, .ro, 0x0, 0x0⟩,
    ⟨0x60, 8, 0x8, 1, 0x0, .rwl, 0x8000ffff, 0x0⟩,
    ⟨0x64, 8, 0x8, 1, 0x0, .ro, 0x0, 0x0⟩]

/-- The page index of R34. -/
def pageTable : List PageDef :=
  [
    ⟨0x0, 0x5359, 0, false, sysRows⟩,
    ⟨0x1, 0x4348, 0, false, chnRows⟩,
    ⟨0x2, 0x434b, 0, true, clkRows⟩,
    ⟨0x3, 0x5057, 0, true, pwrRows⟩,
    ⟨0x4, 0x4449, 0, false, diaRows⟩,
    ⟨0x8, 0x454e, 0, true, engRows⟩,
    ⟨0x9, 0x544b, 0, true, tskRows⟩,
    ⟨0xa, 0x564f, 0, true, voteRows⟩,
    ⟨0xb, 0x504d, 0, true, pimRows⟩,
    ⟨0xc, 0x4652, 0, true, frcRows⟩] ++
  [
    ⟨0xd, 0x4442, 0, true, dbgRows⟩,
    ⟨0x10, 0x464f, 0, true, fioRows⟩,
    ⟨0x11, 0x464f, 1, true, fioRows⟩,
    ⟨0x12, 0x464f, 2, true, fioRows⟩,
    ⟨0x13, 0x464f, 3, true, fioRows⟩,
    ⟨0x14, 0x5258, 0, true, rfxRows⟩,
    ⟨0x15, 0x4158, 0, true, axsRows⟩,
    ⟨0x16, 0x4158, 1, true, axsRows⟩,
    ⟨0x17, 0x534d, 0, true, smoRows⟩,
    ⟨0x18, 0x4443, 0, true, decRows⟩] ++
  [
    ⟨0x19, 0x5450, 0, true, tpinRows⟩,
    ⟨0x20, 0x4e54, 0, false, netRows⟩,
    ⟨0x21, 0x4e54, 1, false, netRows⟩,
    ⟨0x22, 0x5444, 0, false, trdRows⟩,
    ⟨0x23, 0x5350, 0, true, twpRows⟩,
    ⟨0x24, 0x5054, 0, false, ptpRows⟩,
    ⟨0x28, 0x434e, 0, false, canRows⟩,
    ⟨0x29, 0x434e, 1, false, canRows⟩,
    ⟨0x2a, 0x434e, 2, false, canRows⟩,
    ⟨0x2b, 0x434e, 3, false, canRows⟩] ++
  [
    ⟨0x2c, 0x4d56, 0, false, mvbRows⟩,
    ⟨0x2d, 0x4252, 0, false, brgRows⟩,
    ⟨0x30, 0x4846, 0, false, hifRows⟩,
    ⟨0x31, 0x4d42, 0, false, mbxRows⟩,
    ⟨0x32, 0x444c, 0, false, dblRows⟩,
    ⟨0x34, 0x5354, 0, false, settRows⟩,
    ⟨0x38, 0x5550, 0, false, updRows⟩,
    ⟨0x39, 0x544e, 0, true, twnRows⟩]

/-- The page that a BAR0 offset lies in, if it is one of the 38. -/
def pageOf (a : Nat) : Option PageDef := pageTable.find? fun p => p.page == a / 0x1000

/-- The line of the page table for a BAR0 offset: none where no map defines the offset (R35). -/
def regDef (a : Nat) : Option RegDef :=
  match pageOf a with
  | none => none
  | some p => p.rows.find? fun d => d.covers (a % 0x1000)

/-- The reset value of the register at a BAR0 offset; AXS1 counts its axes from 6 (R262). -/
def regReset (a : Nat) : Word :=
  if a = 0x16004 then 0x866 else
  match regDef a with
  | none => 0
  | some d => d.rst

end Sys2Proof.Machine
end

