-- ==== Sys2Proof/Machine/TypesEng.lean ====
section
/-!
DEFINITION. The types of the state of the engine, the lanes, the PIM controller and the recorder
(spec/05_tasks_and_modes.md, spec/06_triplex_execution.md, spec/15_sett_recorder.md).
-/
namespace Sys2Proof.Machine

/-- The module states of R22, in the coding of SYS.STAT.MSTATE (R452). -/
inductive MState where
  | boot | bare | stop | run | hold | safe
deriving DecidableEq, Repr

/-- The phases of BOOT, in the coding of SYS.STAT.BOOTPH (R452). -/
inductive BootPh where
  | clocks | tests | addressing | image | ended
deriving DecidableEq, Repr

/-- The power states of spec/16_clocks_and_power.md R420. -/
inductive PowerState where
  | run | doze | nap | slumber | hibernate
deriving DecidableEq, Repr

/-- The causes of a module reset, in the bit order of SYS.RSTCAUSE (R23, R451). -/
inductive ResetCause where
  | powerUp | contact | request | slumberExit | hibernateExit
deriving DecidableEq, Repr

/-- The engine modes (R142). -/
inductive EngMode where
  | stop | run | hold
deriving DecidableEq, Repr

/-- One task record of the TASK section (spec/03_program_image.md R83). -/
structure TaskRec where
  word0    : Word
  period   : Nat
  phase    : Nat
  commit   : Nat
  segFirst : Nat
  segCount : Nat
  wcpe     : Nat
deriving DecidableEq, Repr

def TaskRec.zero : TaskRec := ⟨0, 0, 0, 0, 0, 0, 0⟩

/-- What a block stages for the commit instant, in scan order (spec/04_block_library.md R94, spec/05_tasks_and_modes.md
R134). `iref` names the block whose status output reports the outcome. -/
inductive Effect where
  | out (w : Nat) (v : Word)
  | axis (ax reg : Nat) (v : Word)
  | arm (iref ax slot : Nat) (p mode : Word) (en : Bool)
  | select (iref m : Nat) (set : Word)
  | message (iref ch : Nat) (ws : List Word)
  | pop (ch : Nat)
  | record (iref : Option Nat) (code : Half) (pay : List Word)
deriving DecidableEq, Repr

/-- Where an activation stands. -/
inductive Stage where
  | copying | ready | running | preempted | complete
deriving DecidableEq, Repr

/-- What an activation executes next: the COND of a segment entry, a descriptor of it, or nothing more. -/
inductive Pos where
  | cond (seg : Nat)
  | desc (seg k : Nat)
  | done
deriving DecidableEq, Repr

/-- The 256 pipe working words of one lane, 64 in each of four pipes (spec/06_triplex_execution.md R163): the free values that
fill them (the spec names no content; none: all zero) and the bits of single words that have flipped. -/
structure Pipe where
  fill : Option Nat
  dev  : List (Nat × Word)
deriving DecidableEq, Repr

def Pipe.zero : Pipe := ⟨none, []⟩

/-- An activation (R134, R163): shadow and commit instants in ns, the time step and effective period, its stage and
position, the PEs counted, the cost in µJ that the governor deducted, what it has staged, the values saved for its shadow image
(word, value, status, fresh instant), the axis registers, mailbox heads and block reports of its shadow instant, SYNCED at
that instant, the forces in force (word reference, bit for a BOOL, value), the task signature register with each lane's
deviation from it, and the lanes' pipe words while it is preempted (spec/06_triplex_execution.md R163, R171). -/
structure Act where
  ts     : Nat
  tc     : Nat
  dt     : Nat
  eper   : Nat
  stage  : Stage
  pos    : Pos
  pe     : Nat
  est    : Option Nat
  staged : List Effect
  saved  : List (Nat × Word × Word × Nat)
  axSnap : List (Nat × Word)
  mbSnap : List (Nat × Nat × List Word)
  rep    : List (Nat × Word)
  tsync  : Bool
  frc    : List (Nat × Option Nat × Word)
  sig    : Dword
  sigDev : Tri
  pipe   : Vector Pipe 3
deriving DecidableEq, Repr

/-- A task: its record as latched at load, its next grid instant, its pending trigger (the instant it may start at), its
previous shadow instant, the instant before which a triggered task does not start (R133), the deferrals in a row, the flags of
R106 and its activation. -/
structure Task where
  rec'      : TaskRec
  grid      : Nat
  trig      : Option Nat
  lastShad  : Option Nat
  notBefore : Nat
  defers    : Nat
  firstLoad : Bool
  zeroDt    : Bool
  afterHold : Bool
  act       : Option Act
deriving DecidableEq, Repr

def Task.idle : Task := ⟨TaskRec.zero, 0, none, none, 0, 0, true, true, false, none⟩

/-- An on-line change (R152): waiting for the commits in progress, or pausing since `g`; `wasRun` says which mode the
engine was in. -/
inductive Change where
  | none
  | waiting (wasRun : Bool)
  | pausing (g : Nat) (wasRun : Bool)
deriving DecidableEq, Repr

/-- The engine has come to STOP while an on-line change is under way: the change goes on, and its pause ends in STOP. -/
def Change.stopped : Change → Change
  | .none => .none
  | .waiting _ => .waiting false
  | .pausing g _ => .pausing g false

/-- The change pause is in progress. -/
def Change.isPausing : Change → Bool
  | .pausing _ _ => true
  | .none => false
  | .waiting _ => false

/-- The engine: its mode, its tasks, the task running in the lanes, the block it is halted before in HOLD (task and
descriptor) and the instant H, the breakpoint a resume or step has passed, the on-line change, the status outputs of the
blocks of families 0x0e to 0x11, and the telegrams whose owning task has committed since RUN. -/
structure Eng where
  mode      : EngMode
  tasks     : Vector Task 8
  running   : Option (Fin 8)
  halted    : Option (Fin 8 × Nat)
  holdAt    : Nat
  passed    : Option (Fin 8 × Nat)
  change    : Change
  reports   : List (Nat × Word)
  telOpen   : List Nat
deriving DecidableEq, Repr

def Eng.reset : Eng :=
  ⟨.stop, Vector.replicate 8 Task.idle, none, none, 0, none, .none, [], []⟩

/-- How far a resynchronisation has come (R177): its task boundary, or the instant at which the K0 part was loaded. -/
inductive Resync where
  | idle
  | reset (tb : Nat)
  | engine (tb : Nat)
  | k0 (loaded : Nat)
  | agreed (loaded epoch : Nat)
deriving DecidableEq, Repr

/-- The lanes (R163): held and retired lanes, the instant of each lane's odd declarations within the last 10 s, the instant
and once-flag of the lane now waiting, the resynchronisation, the last task signatures, the input-agreement deviation
counters and whether a lane's bits of the TWIN link have deviated since the last epoch, each reflex copy's de-energise vector
bits that are wrong in this clock and the clocks a copy has differed, each lane's staged and committed command bits (ON of
group g output k in bit 4g + k, GEN of group g in bit 16 + g), each lane's deviation in its scheduler view ([63:32]) and
configuration copy ([31:0]), each lane's pipe words, and the last whole millisecond a global signature was formed for. -/
structure Lanes where
  held    : BitVec 3
  retired : BitVec 3
  oddLog  : List (Fin 3 × Nat)
  oddAt   : Nat
  starved : Bool
  rs      : Resync
  sig     : Tri
  devCnt  : Vector Nat 3
  bitDev  : BitVec 3
  vecDev  : Vector Half 3
  vecCnt  : Vector Nat 3
  lcrS    : Vector (BitVec 20) 3
  lcr     : Vector (BitVec 20) 3
  own     : Vector Dword 3
  pipe    : Vector Pipe 3
  gsMs    : Nat
deriving DecidableEq, Repr

def Lanes.reset : Lanes where
  held := 0
  retired := 0
  oddLog := []
  oddAt := 0
  starved := false
  rs := .idle
  sig := Tri.none
  devCnt := Vector.replicate 3 0
  bitDev := 0
  vecDev := Vector.replicate 3 0
  vecCnt := Vector.replicate 3 0
  lcrS := Vector.replicate 3 0
  lcr := Vector.replicate 3 0
  own := Vector.replicate 3 0
  pipe := Vector.replicate 3 Pipe.zero
  gsMs := 0

/-- The PIM controller: the retry in progress (line, requester's MID, whether it is the second within 10 ms), the instant
of the last retry, the lines waiting to be written back, the bits that have flipped in stored codewords (key: four times the
line plus the codeword; R180), the start of the scrub pass and the line it has come to, and whether the scrubber stopped. -/
structure PimCtl where
  retry     : Option (Nat × Nat × Bool)
  lastRetry : Option Nat
  writeback : List Nat
  flips     : Store (BitVec 72)
  scrubFrom : Nat
  scrubPos  : Nat
  scrubOff  : Bool
deriving DecidableEq, Repr

def PimCtl.reset : PimCtl := ⟨none, none, [], [], 0, 0, false⟩

/-- An event handed to the recorder (R388, R391); `rep` names the RECEV block that reports its fate. -/
structure Event where
  src  : Half
  code : Half
  pay  : List Word
  t    : Nat
  rep  : Option Nat
deriving DecidableEq, Repr

/-- What stands in the intake queue, an event with the instant it reached the queue (R391, R392). -/
inductive Intake where
  | event (e : Event) (arrived : Nat := e.t)
  | seal
deriving DecidableEq, Repr

/-- A record (R387), without its SEQ while it is open. -/
structure Rec where
  seq    : Nat
  repeats : Nat
  tfirst : Nat
  tlast  : Nat
  src    : Half
  code   : Half
  pay    : List Word
deriving DecidableEq, Repr

/-- An overflow in progress (R394): events lost, the times of the first and the last, SOURCE and CODE of the first. -/
structure Overflow where
  lost  : Nat
  first : Nat
  last  : Nat
  src   : Half
  code  : Half
deriving DecidableEq, Repr

/-- One erase block of the store that holds records: its records with the slot each stands in, the slots used, and whether
the circle has moved past it. -/
structure StoreBlock where
  recs   : List (Nat × Rec)
  used   : Nat
  passed : Bool
deriving DecidableEq, Repr

/-- What the recorder keeps in flash across module resets (R390, R395, R396): the blocks that hold records, oldest first,
erased blocks, the next SEQ, spare and retired blocks, and the protected ranges (first SEQ and count). -/
structure Flash where
  blocks  : List StoreBlock
  erased  : Nat
  nextSeq : Nat
  spare   : Nat
  retired : Nat
  prot    : Vector (Option (Nat × Nat)) 4
deriving DecidableEq, Repr

def Flash.new : Flash := ⟨[], 512, 1, 8, 0, Vector.replicate 4 none⟩

/-- The Sett recorder: intake queue, open record with the instant of its last occurrence, ring of sealed records with the
instant each entered, overflow, flash, whether its ends are known, a restart or a flash fault in progress, whether events
are no longer staged (a supply failure or a reset taken), the read requested and the SEQ being read, and an extraction
being answered (the notice: OFFSET, LENGTH, TAG). -/
structure Sett where
  intake   : List Intake
  opened   : Option (Rec × Nat)
  ring     : List (Rec × Nat)
  ovf      : Option Overflow
  flash    : Flash
  ready    : Bool
  restart  : Bool
  flashFlt : Bool
  stopped  : Bool
  reading  : Option Nat
  extract  : Option (List Word)
deriving DecidableEq, Repr

def Sett.new : Sett := ⟨[], none, [], none, Flash.new, false, false, false, false, none, none⟩

end Sys2Proof.Machine
end

