-- ==== Sys2Proof/Machine/TypesField.lean ====
section
/-!
DEFINITION. The types of the state of the field groups, the reflex matrix, the axes and the safe-motion monitors
(spec/07_field_io.md, spec/08_reflex_and_reaction.md, spec/09_axes_and_safe_motion.md).
-/
namespace Sys2Proof.Machine

/-- One direction of a link: no frame, or a 96-bit frame on the wire. -/
abbrev Wire := Option (BitVec 96)

/-- How long a condition has held: not now, since an instant, or long enough and already reported. -/
inductive Watch where
  | idle
  | since (t : Nat)
  | told
deriving DecidableEq, Repr

/-- An output test pulse (R201, R202): when the next falls due, a request by TPREQ, and while one runs its start and end;
the run of good frames with the readback off, whether it has passed, since when the output has been commanded off with its
readback off, whether the last test failed, when the output last counted as tested, and whether a pulse that failed or was
not judged has to be made good by another. -/
structure TestPulse where
  next     : Nat
  req      : Bool
  active   : Option (Nat × Nat)
  offRun   : Nat
  passed   : Bool
  offSince : Option Nat
  failed   : Bool
  tested   : Nat
  owed     : Bool
deriving DecidableEq, Repr

def TestPulse.reset : TestPulse := ⟨600000000000, false, none, 0, false, none, false, 0, false⟩

/-- A test-source pulse (R194, R195): when the next falls due, the start of the one running, and the instant up to which
assigned filters hold. -/
structure SrcPulse where
  next   : Nat
  active : Option Nat
  hold   : Nat
deriving DecidableEq, Repr

/-- One reflex copy's part of a field group (R193, R195, R215): the eight filters with their counts, the test-source checks
(good bits, passes in a row, inputs seen at 0, sources whose pulse a frame has seen), and the enable latch with the last
committed GEN bit. -/
structure FioCopy where
  filt    : Byte
  fcnt    : Vector Nat 8
  good    : Byte
  passes  : Vector Nat 8
  tsZero  : Byte
  tsSeen  : BitVec 2
  en      : Bool
  genPrev : Bool
deriving DecidableEq, Repr

def FioCopy.reset : FioCopy := ⟨0, Vector.replicate 8 0, 0xff, Vector.replicate 8 0, 0, 0, false, false⟩

/-- The logic side of a field group: the link (R204, R209, R211; `exempt`: no good frame since the last loss), the last good
frame and the detail slots (R208, R210), the lanes' copies (R193, R195, R215), the runs of class mismatch and invalid lane
words (R190, R211), the judging of the supply with the SUP, LATCH, RST and restart count it has taken note of (R214, R217), the
stopwatches of the readbacks (R199, R200), test pulses and sources, the last frame sent with the lanes' GEN bits of the last
sixteen, the frames on the wires, and the instant the group switch last closed after a good check (R485). -/
structure Fio where
  accepted : Bool
  ever     : Bool
  exempt   : Bool
  locked   : Bool
  lockRun  : Nat
  goodRun  : Nat
  badRun   : Nat
  slots    : Nat
  frame    : BitVec 96
  detail   : Vector Half 16
  cp       : Vector FioCopy 3
  clsRun   : Nat
  vwRun    : Vector Nat 3
  judging  : Bool
  supSeen  : BitVec 2
  latchSeen : Bool
  rstSeen  : Bool
  restSeen : Byte
  latchFlt : Bool
  stuck    : Vector Watch 4
  short    : Vector Watch 4
  openLd   : Vector Watch 4
  pair     : Vector Watch 2
  tp       : Vector TestPulse 4
  ts       : Vector SrcPulse 2
  downSeq  : BitVec 4
  sent     : BitVec 96
  genHist  : Vector (BitVec 3) 16
  down     : Wire
  up       : Wire
  gswAt    : Nat
deriving DecidableEq, Repr

def Fio.reset : Fio where
  accepted := false
  ever := false
  exempt := true
  locked := false
  lockRun := 0
  goodRun := 0
  badRun := 0
  slots := 0
  frame := 0
  detail := Vector.replicate 16 0
  cp := Vector.replicate 3 FioCopy.reset
  clsRun := 0
  vwRun := Vector.replicate 3 0
  judging := false
  supSeen := 0
  latchSeen := false
  rstSeen := false
  restSeen := 0
  latchFlt := false
  stuck := Vector.replicate 4 .idle
  short := Vector.replicate 4 .idle
  openLd := Vector.replicate 4 .idle
  pair := Vector.replicate 2 .idle
  tp := Vector.replicate 4 TestPulse.reset
  ts := #v[⟨10000000, none, 0⟩, ⟨15000000, none, 0⟩]
  downSeq := 0
  sent := 0
  genHist := Vector.replicate 16 0
  down := none
  up := none
  gswAt := 0

/-- A mark of module time `d` ns later; a mark before the start of time stands at its start. -/
def markBy (d : Int) (n : Nat) : Nat := ((n : Int) + d).toNat

def Watch.shift (d : Int) : Watch → Watch
  | .idle => .idle
  | .since t => .since (markBy d t)
  | .told => .told

/-- The group's marks with module time `d` ns later (R194, R195, R199 to R203, spec/19_faults_and_diagnostics.md R485). -/
def Fio.shift (f : Fio) (d : Int) : Fio :=
  let sh := markBy d
  { f with
    gswAt := sh f.gswAt
    stuck := f.stuck.map (Watch.shift d)
    short := f.short.map (Watch.shift d)
    openLd := f.openLd.map (Watch.shift d)
    pair := f.pair.map (Watch.shift d)
    tp := f.tp.map fun p =>
      { p with next := sh p.next, tested := sh p.tested, offSince := p.offSince.map sh,
               active := p.active.map fun a => (sh a.1, sh a.2) }
    ts := f.ts.map fun p => { p with next := sh p.next, active := p.active.map sh, hold := sh p.hold } }

/-- The thresholds of a voltage class in mV (R189, R191, R213): an input reads 1 from `inOn` on and 0 up to `inOff`; L+ is
judged against `warn`, `valid` and `cut`, each with the hysteresis `hyst`. -/
structure VClass where
  inOn  : Int
  inOff : Int
  warn  : Nat
  valid : Nat
  cut   : Nat
  hyst  : Nat
deriving DecidableEq, Repr

/-- The table of R189: class H, else class L. -/
def vClass (h : Bool) : VClass :=
  if h then ⟨43000, 25000, 56000, 45000, 40000, 2000⟩ else ⟨11000, 5000, 16000, 13000, 12000, 500⟩

/-- SUP for L+ at `mv`, from the SUP before it: the number of thresholds below which L+ stands, each comparator switching at
its threshold when L+ falls and at its threshold plus the hysteresis when it rises (R213). -/
def VClass.sup (v : VClass) (was mv : Nat) : BitVec 2 :=
  let below (n th : Nat) : Nat := if mv < (if n < was then th + v.hyst else th) then 1 else 0
  BitVec.ofNat 2 (below 0 v.warn + below 1 v.valid + below 2 v.cut)

/-- How a terminal at `mv` reads: `mid` decides between the limits (R191). -/
def VClass.reads (v : VClass) (mv : Int) (mid : Bool) : Bool :=
  if v.inOn ≤ mv then true else if mv ≤ v.inOff then false else mid

/-- The field side of a group: running, its receiver, the class and slot 1 value it has adopted and the slot values of the
last round with the frames since (R190, R207), the voted command (R166), tripped outputs with their causes, the group switch
and GSWFLT (R197), LATCH and RST, frames in a row with GEN = 0 (R216), what it reports of the last good downstream frame, L+ in
mV and SUP with the instants at which L+ fell below cut-off and rose above validity, RDY (R213, R214), comparator faults, its
counters, the SEQ of its next frame and the missing frames in a row (R212). -/
structure FieldSide where
  running  : Bool
  locked   : Bool
  lockRun  : Nat
  cfg0     : Byte
  cfg1     : Byte
  seen0    : Option (Byte × Nat)
  seen1    : Option (Byte × Nat)
  on       : BitVec 4
  gen      : Bool
  src      : BitVec 2
  tripped  : BitVec 4
  ovc      : BitVec 4
  ovt      : BitVec 4
  gsw      : Bool
  gswFlt   : Bool
  latch    : Bool
  rst      : Bool
  genZero  : Nat
  vw       : BitVec 3
  dseq     : BitVec 4
  lplus    : Nat
  sup      : BitVec 2
  rdy      : Bool
  cutAt    : Option Nat
  validAt  : Option Nat
  cmp      : Byte
  bad      : Nat
  restarts : Nat
  upSeq    : BitVec 4
  missing  : Nat
deriving DecidableEq, Repr

/-- A field side after its start at `now` (R190, R217): class H, outputs off, switch open, RST and LATCH set; L+ and the
count of restarts go on. -/
def FieldSide.start (lplus now restarts : Nat) : FieldSide where
  running := true
  locked := false
  lockRun := 0
  cfg0 := 1
  cfg1 := 0
  seen0 := none
  seen1 := none
  on := 0
  gen := false
  src := 0
  tripped := 0
  ovc := 0
  ovt := 0
  gsw := false
  gswFlt := false
  latch := true
  rst := true
  genZero := 0
  vw := 0
  dseq := 0
  lplus := lplus
  sup := (vClass true).sup 0 lplus
  rdy := false
  cutAt := if (vClass true).sup 0 lplus = 3 then some now else none
  validAt := if ((vClass true).sup 0 lplus).toNat < 2 then some now else none
  cmp := 0
  bad := 0
  restarts := restarts
  upSeq := 0
  missing := 0

/-- The field side's marks with module time `d` ns later. -/
def FieldSide.shift (x : FieldSide) (d : Int) : FieldSide :=
  { x with cutAt := x.cutAt.map (markBy d), validAt := x.validAt.map (markBy d) }

/-- The state of one reflex rule (R232): `since` is the instant from which the pressed time T counts. -/
structure Rule where
  cond    : Bool
  latch   : Bool
  armed   : Bool
  stuck   : Bool
  pressed : Bool
  tested  : Bool
  hold    : Half
  since   : Option Nat
deriving DecidableEq, Repr

def Rule.reset : Rule := ⟨false, false, false, false, false, false, 0, none⟩

/-- The reflex matrix: each lane's copy of the rules, and the engine conditions OVR and STOPCMD (R225, R231). -/
structure Rfx where
  rules : Vector (Vector Rule 64) 3
  ovr   : Bool
  stopc : Bool
deriving DecidableEq, Repr

def Rfx.reset : Rfx := ⟨Vector.replicate 3 (Vector.replicate 64 Rule.reset), false, false⟩

/-- What one lane counts on an axis: its count, ZPOS and ZCNT, the illegal transitions it has seen, the levels of A and B it has
accepted, and the value of its SSI receiver (R244, R245). -/
structure AxLane where
  cnt  : Word
  zpos : Word
  zcnt : Word
  ill  : Word
  a    : Bool
  b    : Bool
  raw  : Word
deriving DecidableEq, Repr

def AxLane.reset : AxLane := ⟨0, 0, 0, 0, false, false, 0⟩

/-- What an armed slot watches for (R252): position, mode word, armed, and for a slot that stays armed after firing the
direction it fired in and still has to come back from. -/
structure Arm where
  p     : Word
  mode  : Word
  armed : Bool
  back  : Option Bool
deriving DecidableEq, Repr

def Arm.off : Arm := ⟨0, 0, false, none⟩

/-- A compare slot (R252, R253): what is armed, the instant of the commit that armed it with what stood before it, FIRED,
CAPV, CAPT and the fire count, PINOWN and TASKOWN. -/
structure Slot where
  arm     : Arm
  before  : Option (Nat × Arm)
  fired   : Bool
  capv    : Bool
  capt    : Nat
  fires   : Byte
  pinOwn  : Bool
  taskOwn : Bool
deriving DecidableEq, Repr

def Slot.reset : Slot := ⟨Arm.off, none, false, false, 0, 0, false, false⟩

/-- An axis: the lanes' counts, what they were at an epoch boundary that has passed but is not agreed yet (with the boundary),
the agreed count, its value a microsecond before, agreed ZPOS, ZCNT and illegal transitions, FAULT with the instant of the last
condition, LINEFLT, the instants of the last illegal transition and SSI error (plus one; 0 none), REFD, DEV, an SSI frame in
progress, whether an SSI value has been taken, the preset waiting (value, commit instant, count agreed at it) and the slots
(R244 to R254, spec/06_triplex_execution.md R169). -/
structure Axis where
  lane    : Vector AxLane 3
  latch   : Option (Nat × Vector AxLane 3)
  now     : Word
  prev    : Word
  zpos    : Word
  zcnt    : Word
  ill     : Word
  fault   : Bool
  faultAt : Nat
  lineflt : Bool
  qerrAt  : Nat
  ssiAt   : Nat
  refd    : Bool
  dev     : Bool
  ssiBusy : Bool
  ssiHave : Bool
  ssiDue  : Nat
  preset  : Option (Word × Nat × Option Word)
  slots   : Vector Slot 8
deriving DecidableEq, Repr

def Axis.reset : Axis :=
  ⟨Vector.replicate 3 AxLane.reset, none, 0, 0, 0, 0, 0, false, 0, false, 0, 0, false, false, false, false, 0, none,
    Vector.replicate 8 Slot.reset⟩

/-- The axis's marks with module time `d` ns later; what was latched for a boundary of the old time is let go. -/
def Axis.shift (a : Axis) (d : Int) : Axis :=
  let mark (n : Nat) : Nat := if n = 0 then 0 else markBy d (n - 1) + 1
  { a with
    latch := none
    faultAt := markBy d a.faultAt
    qerrAt := mark a.qerrAt
    ssiAt := mark a.ssiAt
    ssiDue := markBy d a.ssiDue
    preset := a.preset.map fun p => (p.1, markBy d p.2.1, p.2.2)
    slots := a.slots.map fun x => { x with before := x.before.map fun b => (markBy d b.1, b.2) } }

/-- A safe-motion monitor (R257 to R260): the counts stored in its window, newest first, v, FILL, the reference, the limit
in force, the ramp (limit at its start and boundary it starts at), the active set, the set waiting with its commit instant,
VIOL, FAULT, and the boundaries of its last evaluation and of its last stored count. -/
structure Smo where
  win   : List Word
  v     : Int
  fill  : Bool
  ref   : Word
  vl    : Nat
  ramp  : Option (Nat × Nat)
  aset  : Fin 4
  wait  : Option (Nat × Fin 4)
  viol  : Bool
  fault : Bool
  pstop : Int
  at'   : Nat
  winAt : Nat
deriving DecidableEq, Repr

def Smo.reset : Smo := ⟨[], 0, false, 0, 0, none, 0, none, false, false, 0, 0, 0⟩

/-- The monitor's boundaries with module time `d` ns later. -/
def Smo.shift (x : Smo) (d : Int) : Smo :=
  { x with
    ramp := x.ramp.map fun r => (r.1, markBy d r.2)
    wait := x.wait.map fun w => (markBy d w.1, w.2)
    at' := markBy d x.at'
    winAt := markBy d x.winAt }

/-- The axes and monitors, with the boundary of the last agreement, of the last slot evaluation and of the last monitor item
write, in ns. -/
structure Motion where
  axes   : Vector Axis 12
  smos   : Vector Smo 24
  epoch  : Nat
  slotAt : Nat
  itemAt : Nat
deriving DecidableEq, Repr

def Motion.reset : Motion := ⟨Vector.replicate 12 Axis.reset, Vector.replicate 24 Smo.reset, 0, 0, 0⟩

/-- The marks of axes and monitors with module time `d` ns later. -/
def Motion.shift (m : Motion) (d : Int) : Motion :=
  { axes := m.axes.map fun a => a.shift d, smos := m.smos.map fun x => x.shift d
    epoch := markBy d m.epoch, slotAt := markBy d m.slotAt, itemAt := markBy d m.itemAt }

end Sys2Proof.Machine
end

