-- ==== Sys2Proof/Machine/TypesTime.lean ====
section
/-!
DEFINITION. The types of the state of the ordinary clock and of the time pins (spec/13_time.md).
-/
namespace Sys2Proof.Machine

/-- Who owns a time pin (R353, R254): nobody, its own MODE, a compare slot, or a modulator clock. -/
inductive PinOwner where
  | none
  | mode
  | slot (ax : Fin 12) (s : Fin 8)
  | mclk
deriving DecidableEq, Repr

/-- A time pin (R350 to R354): its owner, the end of the pulse running, the instant its next pulse is due (programmed, or
fired by its slot), the START in force, the edge waiting for the epoch boundary with its three lanes' times, captures since the load, whether one
has been made, MISS, LATE, the last 0x1902, and whether START_LO has been written since START last took effect. -/
structure TPin where
  owner   : PinOwner
  running : Option Nat
  due     : Option Nat
  start   : Nat
  edge    : Option (Nat × Nat × Nat)
  caps    : Nat
  have'   : Bool
  miss    : Nat
  late    : Bool
  missAt  : Option Nat
  startLo : Bool
deriving DecidableEq, Repr

def TPin.reset : TPin := ⟨.none, none, none, 0, none, 0, false, 0, false, none, false⟩

/-- A master that announces itself (R342, R345): identity, plane, its data set, the Announces counted within the window, and
when the last one came. -/
structure Foreign where
  src   : Dword
  plane : Plane
  ann   : Announce
  count : Nat
  last  : Nat
deriving DecidableEq, Repr

/-- The ordinary clock (R342 to R348): the integral term in units of 2^-32, Syncs in a row within and beyond the lock
thresholds, the masters heard, the selected one with its last Announce and Sync, a two-step Sync waiting for its Follow_Up
(sender, sequence, t2, correction), the Delay_Req or Pdelay_Req outstanding (sequence and send time) with a Pdelay_Resp
waiting, the last t2 − t1, meanPathDelay, the start of HOLDOVER, the integral terms of the last 16 s of LOCKED, whether
0x2404 and 0x2406 have been recorded, and the sequence numbers sent. -/
structure Ptp where
  integ    : Int
  good     : Nat
  bad      : Nat
  heard    : List Foreign
  master   : Option Dword
  mplane   : Plane
  annAt    : Nat
  syncAt   : Nat
  sync     : Option (Dword × Half × Nat × Int)
  req      : Option (Half × Nat)
  pdResp   : Option (Dword × Half × Nat × Nat × Int)
  ms       : Int
  mpd      : Int
  holdFrom : Option Nat
  hist     : List (Nat × Int)
  longTold : Bool
  stepTold : Bool
  offs     : Int
  seqSync  : Half
  seqAnn   : Half
  seqReq   : Half
deriving DecidableEq, Repr

def Ptp.reset : Ptp :=
  ⟨0, 0, 0, [], none, .a, 0, 0, none, none, none, 0, 0, none, [], false, false, 0, 0, 0, 0⟩

end Sys2Proof.Machine
end

