-- ==== Sys2Proof/Machine/TypesNet.lean ====
section
/-!
DEFINITION. The types of the state of the plane switches, the process-data and telegram engines, the CAN channels, the MVB
interface and the routing bridge (spec/11_train_network.md, spec/12_bridges.md).
-/
namespace Sys2Proof.Machine

/-- A frame waiting at an egress port of a switch: its priority, and when it arrived (R289, spec/13_time.md R344). -/
structure QFrame where
  f   : EthFrame
  pcp : Nat
  at' : Nat
deriving DecidableEq, Repr

/-- A learned address: the port it was seen at, and when (R288). -/
structure Learned where
  mac  : BitVec 48
  port : Nat
  at'  : Nat
deriving DecidableEq, Repr

/-- A frame waiting to leave P3: its publication instant, entry number, and whether it is a safety telegram (R298, R306). -/
structure P3Out where
  due : Nat
  key : Nat
  tel : Bool
  f   : EthFrame
deriving DecidableEq, Repr

/-- One plane (R286 to R293): learned addresses, the frames waiting at each egress port, the frames waiting at P3 to leave,
the broadcast frames of each external port in the millisecond counted, the last 0x2003 and 0x2004, and the
residence of the last two-step Syncs (sender, sequence, egress port, ns; spec/13_time.md R344). -/
structure NetPlane where
  table  : List Learned
  queues : Vector (List QFrame) 4
  p3     : List P3Out
  bcMs   : Nat
  bc     : Vector Nat 2
  fullAt : Option Nat
  bcAt   : Option Nat
  resid  : List (Dword × Half × Nat × Nat)
deriving DecidableEq, Repr

def NetPlane.reset : NetPlane := ⟨[], Vector.replicate 4 [], [], 0, Vector.replicate 2 0, none, none, []⟩

/-- A subscription (R301): the last acceptance or the start, and whether a timeout has been recorded since. -/
structure SubSt where
  at'  : Nat
  told : Bool
deriving DecidableEq, Repr

/-- An open compare window (R308): the plane of the copy, its SSC and vital data, and when it opened. -/
structure TelWin where
  plane : Plane
  ssc   : Word
  data  : List Word
  at'   : Nat
deriving DecidableEq, Repr

/-- A telegram (R306 to R309): the open window, the last acceptance or the load, the last instant it was sent at, and
whether 0x2305 has stopped it. -/
structure TelSt where
  win     : Option TelWin
  at'     : Nat
  sentAt  : Nat
  stopped : Bool
deriving DecidableEq, Repr

def TelSt.zero : TelSt := ⟨none, 0, 0, false⟩

/-- The process-data and telegram engines: the last publication instant of each entry, subscriptions, telegrams, the instant
from which publications count, and that from which telegrams are sent in this engine mode (R306). -/
structure Trdp where
  pubAt   : Store Nat
  subs    : Store SubSt
  tels    : Store TelSt
  since   : Nat
  telFrom : Nat
deriving DecidableEq, Repr

def Trdp.reset : Trdp := ⟨[], [], [], 0, 0⟩

/-- A message in a buffer of the bridge (R326, R329, R332): the entry it comes from, side-band or data, and the frame. -/
structure BMsg where
  entry : Nat
  side  : Bool
  frame : CanFrame
deriving DecidableEq, Repr

/-- A CAN channel (R319, R320): error counters, bus-off, a recovery command, the frame being sent with its source port, and
whether 0x2801 stands. -/
structure Can where
  tec     : Nat
  rec'    : Nat
  busOff  : Bool
  recover : Bool
  tx      : Option (Nat × BMsg)
deriving DecidableEq, Repr

def Can.reset : Can := ⟨0, 0, false, false, none⟩

/-- A routing entry at work (R327, R331, R332): the last forward and the last matching message (instant plus one; 0 none),
the message held, the last status byte formed and the count of its changes. -/
structure EntSt where
  fwdAt : Nat
  msgAt : Nat
  held  : Option (List Byte)
  stat  : Byte
  chg   : Half
deriving DecidableEq, Repr

def EntSt.zero : EntSt := ⟨0, 0, none, 0, 0⟩

/-- The MVB interface (R321, R322): the telegram in progress with the frame accepted for it, telegrams in a row without a
correct frame on each line, lines that disagreed, the data of each port and when it was last updated (plus one). -/
structure Mvb where
  tel   : Option (Nat × Option (Plane × List Byte))
  run   : Vector Nat 2
  dis   : BitVec 2
  bytes : Store Byte
  at'   : Store Nat
deriving DecidableEq, Repr

def Mvb.reset : Mvb := ⟨none, Vector.replicate 2 0, 0, [], []⟩

/-- The bridge (R325 to R332): its buffers by 7 s + d, its entries, the routed bytes of datasets (by 2048 entry + byte), the
bytes of receive areas (by 64 area + byte), the words routed at least once (by 16 area + word), the last routed write of each
area (plus one), the last poll in ms and the last 0x2d01. -/
structure Brg where
  bufs   : Store (List BMsg)
  ents   : Store EntSt
  routed : Store (Option Byte)
  area   : Store Byte
  words  : Store Bool
  areaAt : Store Nat
  pollMs : Nat
  dropAt : Option Nat
deriving DecidableEq, Repr

def Brg.reset : Brg := ⟨[], [], [], [], [], [], 0, none⟩

end Sys2Proof.Machine
end

