-- ==== Sys2Proof/Machine/TypesHost.lean ====
section
/-!
DEFINITION. The types of the state of the mailboxes and of what waits to be sent to the host
(spec/14_host_and_mailboxes.md).
-/
namespace Sys2Proof.Machine

/-- A committed message or notice with its sender's epoch (R370, R372, R375). -/
structure MbMsg where
  epoch : Byte
  words : List Word
deriving DecidableEq, Repr

/-- A mailbox channel (R370 to R374, R385): the queues of both directions, their pops, the stagings and epochs of both ends,
the W1C flags of CSTAT [23:16], and whether ENG has still to report a receiver reset (MBSEND bit 2). -/
structure Chan where
  ab    : List MbMsg
  ba    : List MbMsg
  popAB : Byte
  popBA : Byte
  stA   : List Word
  stB   : List Word
  epA   : Byte
  epB   : Byte
  flags : Byte
  engRst : Bool
deriving DecidableEq, Repr

def Chan.reset : Chan := ⟨[], [], 0, 0, [], [], 0, 0, 0, false⟩

/-- What waits for a function: Class-0 messages and privileged vectors to be sent, the last status block's bits that SUM
compares (none since EN rose), and the last 10 µs point a block was written at (R379 to R381). -/
structure HostFn where
  c0   : Nat
  priv : BitVec 4
  prev : Option (List Word)
  sbAt : Nat
deriving DecidableEq, Repr

def HostFn.reset : HostFn := ⟨0, 0, none, 0⟩

/-- The host interface: channels, functions, the last 0x3005, and whether vector SAFE is still to be sent (R378, R382). -/
structure HostIf where
  chans    : Vector Chan 32
  fn       : Vector HostFn 2
  dropAt   : Option Nat
  safeTell : Bool
deriving DecidableEq, Repr

def HostIf.reset : HostIf := ⟨Vector.replicate 32 Chan.reset, Vector.replicate 2 HostFn.reset, none, false⟩

end Sys2Proof.Machine
end

