-- ==== Sys2Proof/Machine/TypesDec.lean ====
section
/-! DEFINITION. The types of the state of the decimation engine (spec/10_decimation.md). -/
namespace Sys2Proof.Machine

/-- A sigma-delta channel (R267, R270, R272, R274, R278): integrators and comb delays, the last 36 sinc4 words for the FIR, the
stored values of the average, the last 16 values for the resampler, all newest first; the equal samples in a row and the
last one; the end of T_SET; the flags of DSSTAT; the grid instant of the last value; the values still to be repeated while
the resampler fills. -/
structure DsCh where
  integ  : Vector (BitVec 40) 4
  comb   : Vector (BitVec 40) 4
  fir    : List Int
  avg    : List Int
  hist   : List Int
  run    : Nat
  last   : Bool
  fillAt : Nat
  valid  : Bool
  fill   : Bool
  stuck  : Bool
  ovr    : Bool
  noclk  : Bool
  dperr  : Bool
  gridAt : Nat
  hold   : Nat
deriving DecidableEq, Repr

def DsCh.reset : DsCh :=
  ⟨Vector.replicate 4 0, Vector.replicate 4 0, [], [], [], 0, false, 0, false, false, false, false, false, false, 0, 0⟩

/-- The engine (R265, R268, R278 to R281): channels, the start of the grid and the instants since, the phase error in ns while a
recovery runs, the datapath errors of the last second, ENGFLT, and the contacts granted. -/
structure Dec where
  ch     : Vector DsCh 16
  grid   : Nat
  gridN  : Nat
  eps    : Option Int
  errs   : List Nat
  engFlt : Bool
  own0   : Bool
  own1   : Bool
deriving DecidableEq, Repr

def Dec.reset : Dec := ⟨Vector.replicate 16 DsCh.reset, 0, 0, none, [], false, false, false⟩

end Sys2Proof.Machine
end

