-- ==== Sys2Proof/Machine/TypesSys.lean ====
section
/-!
DEFINITION. The types of the state of operating points and power states, the real-time clock and the Dormouse
(spec/16_clocks_and_power.md), chain addressing and the loader (spec/17_start_up_and_update.md), and the twin block and the
referee (spec/18_twin_modules.md).
-/
namespace Sys2Proof.Machine

/-- An operating-point change (R417): none; the regulator ramping to the faster point since `r`; waiting for a dispatch
point; the lanes halted. -/
inductive OpChange where
  | none
  | ramp (b : Fin 4) (r : Nat)
  | ready (b : Fin 4)
  | halted (b : Fin 4)
deriving DecidableEq, Repr

/-- The sequencer, the governor and the chooser (R417 to R423): the planned exit from DOZE or NAP, the change in progress and
the request that waits for its end, the instant before which no change is attempted, the instant of the last step down or up
for the base plate's temperature and since when it has been below 85 °C, the milliseconds in a row in which essential work
alone exceeded the budget with the instant of the last 0x0305, the PEs deferrable tasks have retired in this millisecond,
the last millisecond filled, and the entry into SLUMBER (false) or HIBERNATE (true) in progress. -/
structure Pow where
  planExit : Option Nat
  opc      : OpChange
  opWant   : Option (Fin 4)
  opNotBefore : Nat
  hotAt    : Option Nat
  coolAt   : Option Nat
  overRun  : Nat
  overAt   : Option Nat
  deferPe  : Nat
  tokAt    : Nat
  sleep    : Option Bool
deriving DecidableEq, Repr

def Pow.reset : Pow := ⟨none, .none, none, 0, none, none, 0, none, 0, 0, none⟩

/-- The real-time clock (R413): ticks of 2^-15 s, the part of the next tick that has passed (in 2^15 parts of 1 ns counts,
of 10^9), the module-time second at which it was last set, the time record of the configuration flash, and whether the last
sleep was HIBERNATE. -/
structure Rtc where
  ticks  : Nat
  part   : Nat
  setAt  : Nat
  record : Nat
  hib    : Bool
deriving DecidableEq, Repr

def Rtc.new : Rtc := ⟨0, 0, 0, 0, false⟩

/-- The Dormouse (R424): the stored code, the register, whether a delay is running, WAKE at its low level, and whether
the main supply path is closed. -/
structure Dormouse where
  code  : BitVec 24
  reg   : BitVec 24
  delay : Bool
  low   : Bool
  path  : Bool
deriving DecidableEq, Repr

def Dormouse.new : Dormouse := ⟨0, 0, false, false, true⟩

/-- Chain addressing (R435 to R437): the count of the last train when it was valid, the count two trains in a row have agreed
on in this BOOT, CHAIN_IN at the present level, the disagreement shown while MISMATCH is 1, when the addressing phase
began, the start of the last train sent, and the pulses that each lane has counted in the last train
(spec/06_triplex_execution.md R168). -/
structure Chain where
  last    : Option Nat
  agreed  : Option Nat
  present : Bool
  shown   : Option Word
  from'   : Nat
  sentAt  : Option Nat
  cnt     : Vector Word 3
deriving DecidableEq, Repr

def Chain.reset : Chain := ⟨none, none, false, none, 0, none, Vector.replicate 3 0⟩

/-- What the loader is doing, in the coding of UPD.STAT.SSTATE (R456). -/
inductive UpdSt where
  | idle | quick | guarded | verifying | activating | restoring
deriving DecidableEq, Repr

/-- One OTP key slot (R439): the SHA-256 hash of its key, all zero when empty, and the revoked bit. -/
structure OtpSlot where
  hash    : BitVec 256
  revoked : Bool
deriving DecidableEq, Repr

/-- The loader (R438 to R448): its state, IMGLEN of the session, the blocks and sectors written in it, the block being
programmed, the slot OTP is programming with its hash, whether the OTP answered, the four slots, the journal (in BOOTSTAT's coding), the
session number, and sectors replaced. The last four survive module resets. -/
structure Upd where
  st      : UpdSt
  imglen  : Nat
  blocks  : List Nat
  sectors : List Nat
  writing : Option (Nat × List Byte)
  otpBusy : Option (Fin 4 × BitVec 256)
  otpOk   : Bool
  otp     : Vector OtpSlot 4
  journal : Fin 4
  session : Half
  erases  : Nat
deriving DecidableEq, Repr

def Upd.new : Upd := ⟨.idle, 0, [], [], none, none, true, Vector.replicate 4 ⟨0, false⟩, 0, 0, 0⟩

/-- The roles of R457, in the coding of TWN.STAT.ROLE. -/
inductive Role where
  | alone | wait | active | joining | standby | unfit
deriving DecidableEq, Repr

/-- A trigger the active unit has admitted (R462): task, its shadow instant and EPERIOD. -/
structure Trg where
  task : Fin 8
  ts   : Nat
  eper : Word
deriving DecidableEq, Repr

/-- A mirrored input word (R460, R462): PIW, value, QUAL and SUBST, fresh-value time in µs. -/
structure Mir where
  piw   : Nat
  value : Word
  qual  : Bool
  subst : Bool
  fresh : Word
deriving DecidableEq, Repr

/-- What one source last put into an input word while the mirror held it: value, status, and fresh instant plus one. -/
structure OwnIn where
  piw   : Nat
  value : Word
  st    : Word
  fresh : Nat
deriving DecidableEq, Repr

/-- One pair served as referee (R467): the holder, whether the grant is valid, and its expiry. -/
structure RefPair where
  holder : Bool
  valid  : Bool
  expiry : Nat
deriving DecidableEq, Repr

/-- The twin block (R457 to R472): role, FIT, SYNC, HBOK and REFOK; the sequence of its heartbeats and the last multiple of
50 µs one was sent at; the end of the last valid heartbeat, the peer's image identity; the sequence of its messages to the
referee, the instant of the last answer (plus one), of the last RENEW acknowledged and of the last REQUEST while one is
running, and when the next REQUEST in WAIT falls due; when the heartbeat was declared lost; the once-flags of 0x3908, 0x390b and
0x3901; the start of the join, its passes, the memory as it stood when the last pass sent it, the next whole second a
restarted join waits for; mirrored words, triggers and mailbox words waiting; digests received and formed; mismatches in a
row by task; what the sources hold back; whether SAFE has still to be told; and the pairs it serves. -/
structure Twn where
  role    : Role
  fit     : Bool
  sync    : Bool
  hbOk    : Bool
  refOk   : Bool
  hbSeq   : Half
  hbSent  : Nat
  hbAt    : Nat
  peerId  : Word
  owlSeq  : Word
  ansAt   : Nat
  ackAt   : Nat
  reqAt   : Option Nat
  askAt   : Nat
  lostAt  : Option Nat
  told308 : Bool
  told30b : Bool
  joinAt  : Option Nat
  pass    : Nat
  sentPim : Option Memory
  retryAt : Option Nat
  mir     : List Mir
  mirSent : List (Nat × Nat)
  trgs    : List Trg
  mbw     : List (Nat × Byte × List Word)
  cmpRx   : List (Fin 8 × Word × Dword)
  cmpOwn  : List (Fin 8 × Word × Dword)
  mmRun   : Vector Nat 8
  own     : List OwnIn
  tellSafe : Bool
  pairs   : Vector RefPair 8
deriving DecidableEq, Repr

def Twn.reset : Twn where
  role := .alone
  fit := false
  sync := false
  hbOk := false
  refOk := false
  hbSeq := 0
  hbSent := 0
  hbAt := 0
  peerId := 0
  owlSeq := 0
  ansAt := 0
  ackAt := 0
  reqAt := none
  askAt := 0
  lostAt := none
  told308 := false
  told30b := false
  joinAt := none
  pass := 0
  sentPim := none
  retryAt := none
  mir := []
  mirSent := []
  trgs := []
  mbw := []
  cmpRx := []
  cmpOwn := []
  mmRun := Vector.replicate 8 0
  own := []
  tellSafe := false
  pairs := Vector.replicate 8 ⟨false, false, 0⟩

end Sys2Proof.Machine
end

