-- ==== Sys2Proof/Machine/State.lean ====
section
/-!
DEFINITION. The state of the NVM3-300 as plain data, everything INVENTORY.md lists, and the state right after a power-up
reset (spec/01_system_architecture.md R22 to R25, spec/17_start_up_and_update.md R431).
-/
namespace Sys2Proof.Machine

/-- Why a command stops the machine. The spec gives every command of the table an effect, so no command raises a fault of
the model: the type has no constructor. -/
inductive Fault : Type
deriving DecidableEq, Repr

/-- Why a command has no meaning. -/
inductive Refusal where
  /-- Raised by an arm of `exec` whose command is not modelled yet. Safe: the machine stops where the hardware goes on. -/
  | notModelled (mnemonic : String)
deriving DecidableEq, Repr

/-- What has left the module (the prompt's block has no other output): posted writes and MSI-X messages
(spec/14_host_and_mailboxes.md R362, R378), AtomicOp completions (R365), Ethernet frames (spec/11_train_network.md R289),
CAN frames and MVB slave frames (spec/12_bridges.md R320, R321), TWIN frames and referee messages
(spec/18_twin_modules.md R460, R466), chain trains (spec/17_start_up_and_update.md R435). -/
inductive Out where
  | posted (pf : Pf) (addr : Dword) (data : List Byte)
  | msix (pf : Pf) (vec : Nat) (addr : Dword) (data : Word)
  | atomic (pf : Pf) (ur : Bool) (old : Dword)
  | eth (x : Plane) (port : Nat) (f : EthFrame)
  | can (c : Nat) (f : CanFrame)
  | mvb (addr : Nat) (data : List Byte)
  | twin (f : TwinFrame)
  | owl (kind : Nat) (m : OwlMsg)
  | train (p : Nat)
  | pin (n : Nat) (active : Bool)
deriving DecidableEq, Repr

/-- The supply after the ideal diodes (spec/20_hardware_reference.md R497). -/
inductive Supply where
  | off | good | failed
deriving DecidableEq, Repr

/-- The state of the module. -/
structure State where
  -- the model's own fields: the waiting commands, the count of free values drawn, and what has left the module
  pending    : List Instr
  freeCount  : Nat
  outbox     : List Out
  -- supply, reset and module state
  supply     : Supply
  supplyBack : Bool
  rstLow     : Bool
  resetting  : Option ResetCause
  pstate     : PowerState
  mstate     : MState
  bootPh     : BootPh
  bootFrom   : Nat
  safeLatch  : Bool
  -- an image is loaded into PIM, and it is sealed (spec/17_start_up_and_update.md R452)
  imgRun     : Bool
  imgSealed  : Bool
  -- module time, ns, with its 32 fractional bits (spec/13_time.md R339)
  now        : Nat
  frac       : BitVec 32
  -- register pages, table windows and memories
  regs       : Store Word
  tables     : Store Word
  pim        : Memory
  notice     : Memory
  cfgFlash   : Memory
  freshAt    : Store Nat
  -- the blocks
  eng        : Eng
  lanes      : Lanes
  pimc       : PimCtl
  sett       : Sett
  fio        : Vector Fio 4
  fside      : Vector FieldSide 4
  rfx        : Rfx
  mot        : Motion
  pins       : Vector TPin 8
  ptp        : Ptp
  planes     : Vector NetPlane 2
  trdp       : Trdp
  cans       : Vector Can 4
  mvb        : Mvb
  brg        : Brg
  host       : HostIf
  dec        : Dec
  pow        : Pow
  rtc        : Rtc
  dorm       : Dormouse
  chain      : Chain
  upd        : Upd
  twn        : Twn
deriving DecidableEq, Repr

/-- What a byte of PIM and of the notice SRAM that nothing has written reads as (DESIGN CHOICE, log entry 4). -/
def ramFill : Byte := 0

/-- What a byte of the configuration flash that nothing has programmed reads as: erased (log entry 4). -/
def flashFill : Byte := 0xff

/-- The tables behind the windows: the key of word `j` of entry `i` of table `t` (0 publications, 1 subscriptions,
2 telegrams, 3 MVB ports, 4 routing entries). -/
def tableKey (t i j : Nat) : Nat := (t * 0x1000 + i) * 0x10 + j

/-- Reset values of the table words: a subscription has TIMEDOUT 1 and a telegram TOUT 1 (spec/11_train_network.md R295,
R304, R309); all other words are zero. -/
def tableReset (k : Nat) : Word :=
  let t := k / 0x10000
  let j := k % 0x10
  if t = 1 ∧ j = 6 then 1 else if t = 2 ∧ j = 8 then 1 else 0

/-- The module right after power-up. -/
def State.reset : State where
  pending := []
  freeCount := 0
  outbox := []
  supply := .good
  supplyBack := false
  rstLow := false
  resetting := none
  pstate := .run
  mstate := .boot
  bootPh := .clocks
  bootFrom := 0
  safeLatch := false
  imgRun := false
  imgSealed := false
  now := 0
  frac := 0
  regs := [(Reg.sysRstcause, 1)]
  tables := []
  pim := []
  notice := []
  cfgFlash := []
  freshAt := []
  eng := Eng.reset
  lanes := Lanes.reset
  pimc := PimCtl.reset
  sett := Sett.new
  fio := Vector.replicate 4 Fio.reset
  fside := Vector.replicate 4 (FieldSide.start 0 0 0)
  rfx := Rfx.reset
  mot := Motion.reset
  pins := Vector.replicate 8 TPin.reset
  ptp := Ptp.reset
  planes := Vector.replicate 2 NetPlane.reset
  trdp := Trdp.reset
  cans := Vector.replicate 4 Can.reset
  mvb := Mvb.reset
  brg := Brg.reset
  host := HostIf.reset
  dec := Dec.reset
  pow := Pow.reset
  rtc := Rtc.new
  dorm := Dormouse.new
  chain := Chain.reset
  upd := Upd.new
  twn := Twn.reset

end Sys2Proof.Machine
end

