-- ==== Sys2Proof/Machine/Ops.lean ====
section
/-!
DEFINITION. The named operations over registers, memories, process images and the recorder's intake that every meaning
shares (spec/02_register_pages.md R36 to R46, spec/03_program_image.md R59 to R75, spec/05_tasks_and_modes.md R132, R133,
spec/15_sett_recorder.md R391, R394, spec/19_faults_and_diagnostics.md R475).
-/
namespace Sys2Proof.Machine

/-- How a command ends. -/
abbrev Answer := Host.Outcome State Fault Refusal

/-! ## Registers -/

/-- What the register file holds at a BAR0 offset. -/
def State.rd (s : State) (a : Nat) : Word := Store.get regReset s.regs a

/-- The state with a register written. -/
def State.wr (s : State) (a : Nat) (v : Word) : State := { s with regs := Store.put regReset s.regs a v }

/-- Two registers that hold one 64-bit number, low word first. -/
def State.rd64 (s : State) (a : Nat) : Nat := nat64 (s.rd a) (s.rd (a + 4))
def State.wr64 (s : State) (a : Nat) (n : Nat) : State := (s.wr a (loN n)).wr (a + 4) (hiN n)

/-- A counter register that stops at its greatest value. -/
def State.count (s : State) (a : Nat) : State := s.wr a (satInc (s.rd a) 0xffffffff)

/-- EVT_RAW bits of a page are set (R36, R54: setting wins). -/
def State.evt (s : State) (page : Nat) (bits : Word) : State :=
  s.wr (page * 0x1000 + 0x10) (s.rd (page * 0x1000 + 0x10) ||| bits)

/-- EVT_RAW.WREFUSED and EVT_RAW.CONFLICT of a page (R38). -/
def State.refuse (s : State) (page : Nat) : State := s.evt page 0x40000000
def State.conflict (s : State) (page : Nat) : State := s.evt page 0x80000000

/-- The page is locked (R43). -/
def State.locked (s : State) (page : Nat) : Bool := s.rd (page * 0x1000 + 0x1c) == 1

/-- The page is safety-relevant (R34). -/
def safetyPage (page : Nat) : Bool := pageTable.any fun p => p.page == page && p.safety

/-- The page is read-only because a sealed image is loaded (R41, STAT.SEALRO). -/
def State.sealRo (s : State) (page : Nat) : Bool := s.imgRun && s.imgSealed && safetyPage page

/-- A table word behind a window (R46). -/
def State.tbl (s : State) (t i j : Nat) : Word := Store.get tableReset s.tables (tableKey t i j)
def State.setTbl (s : State) (t i j : Nat) (v : Word) : State :=
  { s with tables := Store.put tableReset s.tables (tableKey t i j) v }

/-- Something leaves the module. -/
def State.emit (s : State) (o : Out) : State := { s with outbox := s.outbox ++ [o] }

/-- A free value of 64 bits is drawn (log entry 2). -/
def State.freeDraw (s : State) : Dword := Config.freeSig s.freeCount
def State.drawn (s : State) : State := { s with freeCount := s.freeCount + 1 }

/-- PTP.STAT.SYNCED, bit 2 (spec/13_time.md R340, R358). -/
def State.synced (s : State) : Bool := bit (s.rd Reg.ptpStat) 2

/-! ## PIM -/

/-- PIM words in use: below 0x60_0000; above, nothing is implemented (R59). -/
def pimLimit : Nat := 0x600000

/-- A PIM word (R59). Unimplemented addresses read zero (DESIGN CHOICE, log entry 4). -/
def State.pimRd (s : State) (w : Nat) : Word := if w < pimLimit then s.pim.readWord ramFill (4 * w) else 0

/-- The controller after a line has been written by a master: nothing waits to be written back for it, and single flipped bits
are gone with it (spec/06_triplex_execution.md R181). -/
def PimCtl.wrote (c : PimCtl) (line : Nat) : PimCtl :=
  { c with writeback := c.writeback.filter (· != line)
           flips := (List.range 4).foldl (fun f k =>
             if popCount (Store.get (fun _ => 0) f (4 * line + k)) ≤ 1 then Store.put (fun _ => 0) f (4 * line + k) 0 else f) c.flips }

/-- A PIM word is written; the controller discards writes to the unimplemented range (R61). -/
def State.pimWr (s : State) (w : Nat) (v : Word) : State :=
  if w < pimLimit then { s with pim := s.pim.writeWord ramFill (4 * w) v, pimc := s.pimc.wrote (w / 8) } else s

/-- Consecutive PIM words. -/
def State.pimRds (s : State) (w n : Nat) : List Word := (List.range n).map fun i => s.pimRd (w + i)
def State.pimWrs (s : State) (w : Nat) : List Word → State
  | [] => s
  | v :: r => (s.pimWr w v).pimWrs (w + 1) r

/-- The regions of R60. -/
def pimInst : Nat := 0x280000
def pimIpi : Nat := 0x580000
def pimIst : Nat := 0x584000
def pimOps : Nat := 0x588000
def pimOpc : Nat := 0x58c000
def pimShadow (t : Nat) : Nat := 0x590000 + t * 0x8000
def pimShadowSt (t : Nat) : Nat := 0x594000 + t * 0x8000
def pimForce : Nat := 0x5d0000
def pimSysv (t : Nat) : Nat := 0x5d0400 + 16 * t

/-! ## The image in the mirror (R76 to R85) -/

/-- Word offset and length in bytes of a section of the image in the mirror. -/
def State.secAt (s : State) (k : Nat) : Nat := (s.pimRd (0x11 + 4 * k)).toNat / 4
def State.secLen (s : State) (k : Nat) : Nat := (s.pimRd (0x12 + 4 * k)).toNat

/-- IMGID, IMGREV and FLAGS of the image in the mirror. -/
def State.imgId (s : State) : Word := s.pimRd 5
def State.imgRev (s : State) : Word := s.pimRd 6
def State.imgFlags (s : State) : Word := s.pimRd 3

/-- NDESC, the words of a descriptor and the word address of a constant (R80). -/
def State.ndesc (s : State) : Nat := (s.pimRd (s.secAt 0)).toNat
def State.descAt (s : State) (d : Nat) : Nat := s.secAt 0 + 8 + 8 * d
def State.constAt (s : State) (c : Nat) : Nat := s.secAt 0 + 8 + 8 * s.ndesc + c

/-- INSTWORDS and the tag entries (R73, R81). -/
def State.instWords (s : State) : Nat := (s.pimRd (s.secAt 1)).toNat
def State.ntag (s : State) : Nat := (s.pimRd (s.secAt 1 + 1)).toNat

/-- One tag entry. -/
structure Tag where
  id    : Word
  loc   : Word
  info  : Word
deriving DecidableEq, Repr

def State.tag (s : State) (i : Nat) : Tag :=
  let a := s.secAt 1 + 4 + 4 * i
  ⟨s.pimRd a, s.pimRd (a + 1), s.pimRd (a + 2)⟩

def Tag.dtype (t : Tag) : Nat := fld t.info 0 4
def Tag.forceable (t : Tag) : Bool := bit t.info 8
def Tag.keep (t : Tag) : Bool := bit t.info 9
def Tag.count (t : Tag) : Nat := fld t.info 16 16
def Tag.ref (t : Tag) : Nat := fld t.loc 0 24
def Tag.bit0 (t : Tag) : Nat := fld t.loc 24 5

def State.tags (s : State) : List Tag := (List.range s.ntag).map s.tag

/-- The word reference and, for a BOOL, the bit of element `e` of a tag (R73). -/
def Tag.elem (t : Tag) (e : Nat) : Nat × Option Nat :=
  if t.dtype = 0 then (t.ref + (t.bit0 + e) / 32, some ((t.bit0 + e) % 32)) else (t.ref + e, none)

/-- The task record of task `t` in the TASK section, and the segment entries (R83, R84). -/
def State.taskRecAt (s : State) (t : Nat) : TaskRec :=
  let a := s.secAt 2 + 8 * t
  ⟨s.pimRd a, (s.pimRd (a + 1)).toNat, (s.pimRd (a + 2)).toNat, (s.pimRd (a + 3)).toNat,
    fld (s.pimRd (a + 4)) 0 12, fld (s.pimRd (a + 5)) 0 13, (s.pimRd (a + 6)).toNat⟩

def TaskRec.en (r : TaskRec) : Bool := bit r.word0 0
def TaskRec.trig (r : TaskRec) : Nat := fld r.word0 1 2
def TaskRec.tsrc (r : TaskRec) : Nat := fld r.word0 8 8
def TaskRec.stretch (r : TaskRec) : Nat := fld r.word0 16 4

/-- COMMIT in ns, 0 standing for PERIOD. -/
def TaskRec.commitNs (r : TaskRec) : Nat := 1000 * (if r.commit = 0 then r.period else r.commit)

def State.nseg (s : State) : Nat := (s.pimRd (s.secAt 2 + 64)).toNat

/-- A segment entry: first descriptor, count, COND. -/
def State.seg (s : State) (i : Nat) : Nat × Nat × Word :=
  let a := s.secAt 2 + 72 + 4 * i
  (fld (s.pimRd a) 0 18, fld (s.pimRd (a + 1)) 0 19, s.pimRd (a + 2))

/-- One map entry of IOMAP or NETMAP (R85). -/
structure MapE where
  piw   : Nat
  out   : Bool
  tmask : Byte
  kind  : Nat
  inst  : Nat
  item  : Nat
  subst : Word
  sopt  : Word
deriving DecidableEq, Repr

def State.mapAt (s : State) (a : Nat) : MapE :=
  let w0 := s.pimRd a
  let w1 := s.pimRd (a + 1)
  ⟨fld w0 0 14, bit w0 16, BitVec.ofNat 8 (fld w0 24 8), fld w1 0 8, fld w1 8 8, fld w1 16 8, s.pimRd (a + 2),
    s.pimRd (a + 3)⟩

/-- The map entries of one section. -/
def State.mapSec (s : State) (k : Nat) : List MapE :=
  if s.secLen k = 0 then [] else
  (List.range (s.pimRd (s.secAt k)).toNat).map fun i => s.mapAt (s.secAt k + 2 + 4 * i)

/-- The map entries of the loaded image, IOMAP before NETMAP. -/
def State.maps (s : State) : List MapE := if s.imgRun then s.mapSec 3 ++ s.mapSec 4 else []

/-- The output entries. -/
def State.outMaps (s : State) : List MapE := s.maps.filter fun m => m.out

/-- The input entries of a kind and instance. -/
def State.inMaps (s : State) (kind inst : Nat) : List MapE :=
  s.maps.filter fun m => !m.out && m.kind == kind && m.inst == inst

/-- Every OPC word takes the safe value of its map entry (R82, R141). -/
def State.opcSafe (s : State) : State :=
  s.outMaps.foldl (fun s m => (s.pimWr (pimOpc + m.piw) m.subst).pimWr (pimOps + m.piw) m.subst) s

/-! ## Process images (R74, R75, R134) -/

/-- QUAL 1, and QUAL 0 with SUBST 1. -/
def stGood : Word := 0x80000000
def stBad : Word := 0x40000000

/-- The instant of the last fresh value of an IPI word, plus one; 0 for none. -/
def State.fresh (s : State) (n : Nat) : Nat := Store.get (fun _ => 0) s.freshAt n
/-- Before a source writes an IPI word, every shadow image still being copied saves the old value (R134). -/
def Act.save (a : Act) (n : Nat) (v st : Word) (f : Nat) : Act :=
  if a.stage = .copying ∧ ¬ a.saved.any (fun e => e.1 == n) then { a with saved := a.saved ++ [(n, v, st, f)] } else a

def State.saveOld (s : State) (n : Nat) : State :=
  let v := s.pimRd (pimIpi + n)
  let st := s.pimRd (pimIst + n)
  let f := s.fresh n
  { s with eng := { s.eng with tasks := s.eng.tasks.map fun t => { t with act := t.act.map fun a => a.save n v st f } } }

/-! ### Twin units (spec/18_twin_modules.md R457, R460, R462) -/

def State.modTwn (s : State) (f : Twn → Twn) : State := { s with twn := f s.twn }

/-- The unit drives no outputs and sends nothing: every role but ALONE and ACTIVE. -/
def Role.isolated : Role → Bool
  | .alone => false
  | .active => false
  | .wait => true
  | .joining => true
  | .standby => true
  | .unfit => true

def State.isolated (s : State) : Bool := s.twn.role.isolated

/-- A TWIN frame of these payload bytes, filled up with zero. -/
def twinFrame (bs : List Byte) : TwinFrame := ⟨BitVec.ofNat 128 (leNat (bs.take 16)), true⟩

/-- The MIR frame of an input word: value, status and fresh instant plus one, 0 for none. -/
def mirFrame (n : Nat) (v st : Word) (f : Nat) : TwinFrame :=
  twinFrame ([2, BitVec.ofNat 8 (fld st 31 1 + 2 * fld st 30 1)] ++ natBytesLE n 2 ++ bytesLE v 4 ++
    bytesLE (wd ((f - 1) / 1000)) 4)

/-- The active unit sends an input word. -/
def State.mirSend (s : State) (n : Nat) (v st : Word) (f : Nat) : State :=
  (s.emit (.twin (mirFrame n v st f))).modTwn fun x =>
    { x with mirSent := (n, s.now) :: x.mirSent.filter fun e => e.1 != n }

/-- What the sources of a STANDBY unit have for a word. -/
def State.ownIn (s : State) (n : Nat) : Option OwnIn := s.twn.own.find? fun e => e.piw == n

/-- A word of the IPI, its status and its fresh instant are written. -/
def State.ipiSet (s : State) (n : Nat) (v st : Word) (f : Nat) : State :=
  let s := ((s.saveOld n).pimWr (pimIpi + n) v).pimWr (pimIst + n) st
  { s with freshAt := Store.put (fun _ => 0) s.freshAt n f }

/-- A source writes a word of the IPI, its status and its fresh instant: held back in a STANDBY unit, whose words the mirror
gives, and sent to the standby by an ACTIVE one where value, QUAL or SUBST change (R462). -/
def State.ipiFrom (s : State) (n : Nat) (v st : Word) (f : Nat) : State :=
  if s.twn.role = .standby then s.modTwn fun x => { x with own := ⟨n, v, st, f⟩ :: x.own.filter fun e => e.piw != n }
  else
    let same := s.pimRd (pimIpi + n) == v && s.pimRd (pimIst + n) == st
    let t := s.ipiSet n v st f
    if s.twn.role = .active ∧ same = false then t.mirSend n v st f else t

/-- A source writes a word of the IPI and its status, without a fresh value. -/
def State.ipiPut (s : State) (n : Nat) (v st : Word) : State :=
  s.ipiFrom n v st (match s.ownIn n with
    | some o => o.fresh
    | none => s.fresh n)

/-- A fresh good value. -/
def State.ipiGood (s : State) (n : Nat) (v : Word) : State := s.ipiFrom n v stGood (s.now + 1)

/-- The word goes bad and takes its substitute value. -/
def State.ipiBad (s : State) (m : MapE) : State := s.ipiPut m.piw m.subst stBad

/-- The items of an input kind and instance are written, each good and fresh at an instant (plus one; 0: as it was), or bad. -/
def State.putItemsAt (s : State) (kind inst f : Nat) (g : MapE → Word × Bool) : State :=
  (s.inMaps kind inst).foldl (fun s m =>
    if !(g m).2 then s.ipiBad m else if f = 0 then s.ipiPut m.piw (g m).1 stGood else s.ipiFrom m.piw (g m).1 stGood f) s

/-- The items of an input kind and instance are written, each fresh or bad. -/
def State.putItems (s : State) (kind inst : Nat) (f : MapE → Word × Bool) : State :=
  (s.inMaps kind inst).foldl (fun s m => if (f m).2 then s.ipiGood m.piw (f m).1 else s.ipiBad m) s

/-! ## Events and faults (R475, R391, R394) -/

/-- The codes that the tables list as events alone (R475). 0x0901 and 0x0902 stand in no table; their rule names them as
events (DEDUCED, log entry 7). -/
def eventCodes : List Nat :=
  [0x0010, 0x0101, 0x0103, 0x0201, 0x0202, 0x0205, 0x0207, 0x0301, 0x0302, 0x0303, 0x0305, 0x0306, 0x0309, 0x030a, 0x030b,
    0x0401, 0x0402, 0x0403, 0x0901, 0x0902] ++
  [0x0a09, 0x0a0b, 0x0b01, 0x0b06, 0x1003, 0x1103, 0x1203, 0x1303, 0x1007, 0x1107, 0x1207, 0x1307, 0x100e, 0x110e, 0x120e,
    0x130e, 0x1402, 0x1410, 0x1411, 0x1505, 0x1605, 0x1701] ++
  [0x1802, 0x1806, 0x1807, 0x1902, 0x1903, 0x2001, 0x2002, 0x2003, 0x2101, 0x2102, 0x2103, 0x2202, 0x2304, 0x2306, 0x2403,
    0x2404, 0x2405] ++
  [0x2801, 0x2901, 0x2a01, 0x2b01, 0x2803, 0x2903, 0x2a03, 0x2b03, 0x2c01, 0x2c02, 0x2c03, 0x2d01, 0x2d02, 0x2d03, 0x3004,
    0x3005, 0x3101, 0x3102, 0x3402, 0x3404] ++
  [0x3801, 0x3802, 0x3803, 0x3804, 0x3805, 0x3806, 0x3807, 0x3824, 0x3826, 0x3902, 0x3903, 0x3905, 0x3906, 0x3908, 0x390b,
    0x390c]

/-- The index of a page among the pages of its kind (R34, R388). -/
def pageInst (p : Nat) : Nat :=
  if 0x10 ≤ p ∧ p ≤ 0x13 then p - 0x10 else if p = 0x16 ∨ p = 0x21 then 1
  else if 0x28 ≤ p ∧ p ≤ 0x2b then p - 0x28 else 0

/-- The status output of a block of families 0x0e to 0x11 (spec/04_block_library.md R123). -/
def State.report (s : State) (iref : Nat) (v : Word) : State :=
  { s with eng := { s.eng with reports := (iref, v) :: s.eng.reports.filter fun r => r.1 != iref } }

/-- The ring's size (R393); the recorder is in overflow while the ring is full, and until an overflow that has lost an event ends
(R394). -/
def ringSize : Nat := 16384
def State.ringFull (s : State) : Bool := decide (ringSize ≤ s.sett.ring.length) || s.sett.ovf.isSome

/-- An event is lost and counted (R394); the block that waits for its fate is told. -/
def State.loseEvent (s : State) (e : Event) : State :=
  let o : Overflow := match s.sett.ovf with
    | none => ⟨1, e.t, e.t, e.src, e.code⟩
    | some o => { o with lost := satNat 0xffffffff (o.lost + 1), last := e.t }
  let s := ({ s with sett := { s.sett with ovf := some o } }.count Reg.settLostcnt).evt 0x34 1
  match e.rep with
  | none => s
  | some i => s.report i 2

/-- An event reaches the intake queue (R391): it waits there, or is lost when 1,024 wait or the recorder restarts; after a
supply failure or a reset taken it is lost uncounted (R397, R507). -/
def State.handOver (s : State) (e : Event) : State :=
  if s.sett.stopped then s
  else if s.sett.restart ∨ 1024 ≤ s.sett.intake.length then s.loseEvent e
  else { s with sett := { s.sett with intake := s.sett.intake ++ [.event e s.now] } }

/-- DIA counts the report (R475, R487). -/
def State.tally (s : State) (code : Nat) : State :=
  let p := code / 0x100
  let f := Reg.diaFcnt (p % 64)
  if eventCodes.contains code then (s.count Reg.diaEvtcnt).wr f (satIncFld (s.rd f) 16 16)
  else
    let s := (s.count Reg.diaFltcnt).wr f (satIncFld (s.rd f) 0 16)
    ((s.wr Reg.diaLastflt (wd (code ||| 0x80000000))).wr64 Reg.diaLastfltTLo s.now).evt 4 1

/-- Eight payload words. -/
def pay8 (ws : List Word) : List Word := (ws ++ List.replicate 8 0).take 8

/-- SOURCE of a record (R388). -/
def mkSource (page inst : Nat) (tsync : Bool) : Half := BitVec.ofNat 16 (page + inst * 0x100 + b2n tsync * 0x8000)

/-- A block reports a fault or an event: it is counted and handed to the recorder. -/
def State.raiseI (s : State) (code inst : Nat) (pay : List Word) : State :=
  (s.tally code).handOver ⟨mkSource (code / 0x100) inst s.synced, BitVec.ofNat 16 code, pay8 pay, s.now, none⟩

def State.raise (s : State) (code : Nat) (pay : List Word) : State := s.raiseI code (pageInst (code / 0x100)) pay

/-! ## Task triggers (R132, R133) -/

/-- An event for task `t`: a pending trigger, or a merge. The trigger instant is the first whole microsecond after the
event, and no sooner than PERIOD after the previous one. -/
def State.taskEvent (s : State) (t : Fin 8) : State :=
  let k := s.eng.tasks[t]
  match k.trig with
  | some _ =>
    let d := Reg.tskTdefer t
    ((s.wr d (satIncFld (s.rd d) 0 16)).evt 9 (wd (2 ^ (8 + t.val)))).raise 0x0902 []
  | none =>
    let t0 := nextWhole s.now 1000
    let t1 := max t0 k.notBefore
    { s with eng := { s.eng with tasks := Vec.upd s.eng.tasks t fun k => { k with trig := some t1 } } }

/-- An event of kind `trig` and source `src` reaches the scheduler: every task that names it is triggered. Events count
from the task epoch in RUN, and in HOLD. A STANDBY unit takes its triggers from the active one (R462). -/
def State.trigger (s : State) (trig src : Nat) : State :=
  if s.eng.mode = .stop ∨ s.now < s.rd64 Reg.engEpochLo ∨ s.twn.role = .standby then s else
  (List.finRange 8).foldl (fun s t =>
    let r := s.eng.tasks[t].rec'
    if r.en && r.trig == trig && r.tsrc == src then s.taskEvent t else s) s

/-- An enabled task record names ENG's doorbell bit `b` as its trigger. -/
def State.taskNames (s : State) (b : Nat) : Bool :=
  s.eng.tasks.toList.any fun k => k.rec'.en && k.rec'.trig == 3 && k.rec'.tsrc == b

/-- Bit `b` of DBL.DBm is set (spec/14_host_and_mailboxes.md R377). A bit of ENG that no enabled task names does not stay
set; a named one triggers its tasks. -/
def State.ringBit (s : State) (mid b : Nat) : State :=
  let a := Reg.dblDb mid
  if mid = 1 then
    if s.taskNames b then (s.wr a (s.rd a ||| wd (2 ^ b))).trigger 3 b else s
  else s.wr a (s.rd a ||| wd (2 ^ b))

def State.modFn (s : State) (f : Nat) (g : HostFn → HostFn) : State :=
  { s with host := { s.host with fn := Vec.updAt s.host.fn f g } }

/-- A channel rings bit `b` of a master's doorbell register; bits 0 to 3 of HPF0 with their mask bit send a vector (R378,
R379). -/
def State.ring (s : State) (mid b : Nat) : State :=
  let s := s.ringBit mid b
  if mid = 8 ∧ b < 4 ∧ bit (s.rd (Reg.dblDbmask 8)) b then s.modFn 0 fun f => { f with priv := setBit f.priv b true } else s

/-- A reflex rule rings bit `b`: for a host function it also sets C0ACC and asks for vector C0 (R380). -/
def State.ringC0 (s : State) (mid b : Nat) : State :=
  let s := s.ringBit mid b
  if mid = 8 ∨ mid = 9 then
    let f := mid - 8
    let a := Reg.dblC0acc f
    ((s.wr a (s.rd a ||| wd (2 ^ b))).evt 0x32 (wd (2 ^ f))).modFn f fun x => { x with c0 := x.c0 + 1 }
  else s

/-! ## Module time -/

/-- The module is powered and out of reset. -/
def State.alive (s : State) : Bool :=
  s.supply != .off && s.resetting.isNone && !s.rstLow && s.pstate != .slumber && s.pstate != .hibernate

/-- A commit is still to take place for an instant at or before `t` (spec/05_tasks_and_modes.md R136); in HOLD the commit
instants are suspended. -/
def State.commitBy (s : State) (t : Nat) : Bool :=
  s.eng.mode == .run && s.eng.tasks.toList.any fun k => match k.act with
    | none => false
    | some a => decide (a.tc ≤ t)

/-- BOOT has ended. -/
def State.booted (s : State) : Bool := s.alive && s.mstate != .boot

end Sys2Proof.Machine
end

