-- ==== Sys2Proof/Machine/Mbx.lean ====
section
/-!
DEFINITION. Mailbox channels, end resets, receive windows, and what the module sends to the host
(spec/14_host_and_mailboxes.md R361 to R382).
-/
namespace Sys2Proof.Machine

/-- The number and MID of a function. -/
def pfIdx : Pf → Nat
  | .pf0 => 0
  | .pf1 => 1
def pfMid (pf : Pf) : Nat := 8 + pfIdx pf
def pfOf (f : Nat) : Pf := if f = 0 then .pf0 else .pf1

/-! ## Channels and bindings (R366 to R369) -/

def State.chan (s : State) (n : Nat) : Chan := Vec.at s.host.chans n Chan.reset
def State.modChan (s : State) (n : Nat) (f : Chan → Chan) : State :=
  { s with host := { s.host with chans := Vec.updAt s.host.chans n f } }

def State.bind (s : State) (n : Nat) : Word := s.rd (Reg.mbxBind n)
def State.midA (s : State) (n : Nat) : Nat := fld (s.bind n) 0 4
def State.midB (s : State) (n : Nat) : Nat := fld (s.bind n) 4 4
def State.chanEn (s : State) (n : Nat) : Bool := bit (s.bind n) 31

/-- The end a master holds: true for A. -/
def State.endOf (s : State) (n mid : Nat) : Option Bool :=
  if s.midA n = mid then some true else if s.midB n = mid then some false else none

/-- The channel is a secure one. -/
def secureChan (n : Nat) : Bool := n < 4 || (16 ≤ n && n < 20)

/-- The MIDs that are secure-capable, and those that may hold an end of channel `n` opposite `other` (R366). -/
def secureMid (m : Nat) : Bool := m == 1 || m == 2 || m == 3 || m == 6 || m == 8
def mayHold (n m other : Nat) : Bool :=
  if m = 1 then n < 16 else if m = 2 then secureChan n && other == 8
  else m == 3 || m == 6 || m == 8 || m == 9

/-- A binding is allowed (R367). -/
def bindOk (n : Nat) (v : Word) : Bool :=
  let a := fld v 0 4
  let b := fld v 4 4
  mayHold n a b && mayHold n b a && (!secureChan n || (secureMid a && secureMid b)) && (a != b || a == 1)

/-! ## The state of one direction -/

/-- The queue that end A (true) or B sends into. -/
def Chan.txq (c : Chan) (a : Bool) : List MbMsg := if a then c.ab else c.ba
def Chan.setTxq (c : Chan) (a : Bool) (q : List MbMsg) : Chan := if a then { c with ab := q } else { c with ba := q }
def Chan.staging (c : Chan) (a : Bool) : List Word := if a then c.stA else c.stB
def Chan.setStaging (c : Chan) (a : Bool) (l : List Word) : Chan := if a then { c with stA := l } else { c with stB := l }
def Chan.epoch (c : Chan) (a : Bool) : Byte := if a then c.epA else c.epB

/-- Flag `k` of CSTAT (0 RXRST, 1 RET, 2 FULLREF, 3 LENREF) of end A or B. -/
def Chan.setFlag (c : Chan) (k : Nat) (a : Bool) : Chan := { c with flags := setBit c.flags (2 * k + b2n (!a)) true }

/-- Room for a message of `n` words. -/
def chanRoom (ch : Nat) (q : List MbMsg) (n : Nat) : Bool :=
  if ch < 16 then (q.map fun m => m.words.length).sum + n ≤ 16 else q.length < 8

/-- The oldest message of the direction towards a master. -/
def State.mbHead (s : State) (n mid : Nat) : Option MbMsg :=
  match s.endOf n mid with
  | none => none
  | some a => ((s.chan n).txq !a).head?

/-- The receive window of a function is refreshed where it shows channel `n` (R371). -/
def State.winBusy (s : State) (f n : Nat) : State :=
  if fld (s.rd (Reg.mbxRxsel f)) 0 5 = n then
    s.wr (Reg.mbxRxinfo f) (setBit (s.rd (Reg.mbxRxinfo f)) 30 true)
  else s

/-- The window of the master that receives from end `a` of channel `n`. -/
def State.winTouch (s : State) (n : Nat) (a : Bool) : State :=
  let m := if a then s.midB n else s.midA n
  if m = 8 then s.winBusy 0 n else if m = 9 then s.winBusy 1 n else s

/-- The receiver of what end `a` sends. -/
def State.peerMid (s : State) (n : Nat) (a : Bool) : Nat := if a then s.midB n else s.midA n

/-- The MBW frames of a message that ENG receives (spec/18_twin_modules.md R460, R462). -/
def mbwFrames (n : Nat) (e : Byte) (ws : List Word) : List TwinFrame :=
  ws.zipIdx.map fun p =>
    twinFrame ([4, BitVec.ofNat 8 n, BitVec.ofNat 8 (p.2 + 128 * b2n (p.2 + 1 == ws.length)), e] ++ bytesLE p.1 4)

/-- A message with its epoch enters the queue of end `a`, and the receiver's doorbell bit is rung. -/
def State.mbEnter (s : State) (n : Nat) (a : Bool) (m : MbMsg) : State :=
  let empty := ((s.chan n).txq a).isEmpty
  let s := s.modChan n fun c => c.setTxq a (c.txq a ++ [m])
  let s := if empty then s.winTouch n a else s
  s.ring (s.peerMid n a) n

/-- A message is committed by end `a` (R370). What another master sends to ENG reaches a STANDBY unit's ENG only from the
active unit, which mirrors it (spec/18_twin_modules.md R462). -/
def State.mbPush (s : State) (n : Nat) (a : Bool) (ws : List Word) : State :=
  let e := (s.chan n).epoch a
  let toEng := s.peerMid n a == 1 && s.peerMid n (!a) != 1
  if toEng && s.twn.role == .standby then s else
  let s := if toEng && s.twn.role == .active then (mbwFrames n e ws).foldl (fun s f => s.emit (.twin f)) s else s
  s.mbEnter n a ⟨e, ws⟩

/-- SETT, LDR and TWN clear their doorbell bits as they consume the ring (R377). -/
def State.bellClear (s : State) (n mid : Nat) : State :=
  if mid = 2 ∨ mid = 3 ∨ mid = 6 then s.wr (Reg.dblDb mid) (setBit (s.rd (Reg.dblDb mid)) n false) else s

/-- A pop by end `a` of what is sent to it (R371, R372). -/
def State.mbPop (s : State) (n : Nat) (a : Bool) : State :=
  match (s.chan n).txq !a with
  | [] => s
  | _ :: r =>
    let s := s.modChan n fun c =>
      let c := c.setTxq (!a) r
      if a then { c with popBA := c.popBA + 1 } else { c with popAB := c.popAB + 1 }
    (s.bellClear n (if a then s.midA n else s.midB n)).winTouch n !a

/-! ## End resets (R373 to R375) -/

/-- The queue towards end `a` is discarded, and its sender is told (R374). -/
def State.mbDropTo (s : State) (n : Nat) (a : Bool) : State :=
  let lost := !((s.chan n).txq !a).isEmpty
  let sender := if a then s.midB n else s.midA n
  let s := s.modChan n fun c =>
    let c := (c.setTxq (!a) []).setFlag 0 (!a)
    { c with engRst := c.engRst || sender == 1 }
  let s := ((s.evt 0x31 1).raise 0x3101 [wd n]).ring sender n
  if decide (16 ≤ n) && lost then (((s.modChan n fun c => c.setFlag 1 (!a)).evt 0x31 2).raise 0x3102 [wd n]).ring sender n else s

/-- An update session ends (spec/17_start_up_and_update.md R450): 1 closed, 2 aborted, 3 host end reset, 4 SAFE, 5 loader
restart. -/
def State.updEnd (s : State) (why : Word) : State := (s.evt 0x38 2).raise 0x3802 [why]

/-- A restore starts from the mirror; without a running image the flash stays as written (spec/17_start_up_and_update.md
R447). -/
def State.updRestore (s : State) : State :=
  let s := s.wr Reg.updStat (setBit (s.rd Reg.updStat) 3 false)
  if s.imgRun then { s with upd := { s.upd with st := .restoring, writing := none, journal := 3 } }
  else { s with upd := { s.upd with st := .idle, writing := none, journal := 0 } }

/-- An open Guarded session is aborted. -/
def State.updAbort (s : State) (why : Word) : State := if s.upd.st = .guarded then (s.updEnd why).updRestore else s

/-- End `a` of channel `n` resets; that of HPF0 on MB16 ends a Guarded session. -/
def State.endReset (s : State) (n : Nat) (a : Bool) : State :=
  let s := s.modChan n fun c =>
    let c := c.setStaging a []
    if a then { c with epA := c.epA + 1 } else { c with epB := c.epB + 1 }
  let s := (s.mbDropTo n a).winTouch n !a
  if n = 16 ∧ a then s.updAbort 3 else s

/-- Every end that a master holds resets. -/
def State.midReset (s : State) (mid : Nat) : State :=
  (List.range 32).foldl (fun s n =>
    if !s.chanEn n then s else
    let s := if s.midA n = mid then s.endReset n true else s
    if s.midB n = mid then s.endReset n false else s) s

/-- A binding is written (R367): none where it is refused; a write that changes it resets both ends (R369). -/
def State.bindWrite (s : State) (n : Nat) (v : Word) : Option State :=
  if n = 16 ∨ !bindOk n v then none else
  if v &&& 0x800000ff = s.bind n then some s else
  let s := if s.chanEn n then (s.endReset n true).endReset n false
    else s.modChan n fun c => { c with stA := [], stB := [], ab := [], ba := [], epA := c.epA + 1, epB := c.epB + 1 }
  some (s.wr (Reg.mbxBind n) (v &&& 0x800000ff))

/-! ## What a host function writes (R370 to R372); none where the write is refused with WREFUSED -/

/-- The end of the writer. -/
def State.pfEnd (s : State) (pf : Pf) (n : Nat) : Option Bool := s.endOf n (pfMid pf)

/-- TXWORDn. -/
def State.txWord (s : State) (pf : Pf) (n : Nat) (v : Word) : Option State :=
  match s.pfEnd pf n with
  | none => none
  | some a =>
    let st := (s.chan n).staging a
    if st.length < 16 then some (s.modChan n fun c => c.setStaging a (st ++ [v]))
    else some (((s.modChan n fun c => (c.setStaging a []).setFlag 3 a).evt 0x31 8).refuse 0x31)

/-- LENREF, and the staging is discarded. -/
def State.lenRef (s : State) (n : Nat) (a : Bool) : State := (s.modChan n fun c => (c.setStaging a []).setFlag 3 a).evt 0x31 8

/-- OFFSET and LENGTH of a notice (R372). -/
def noticeOff (ws : List Word) : Nat := fld (ws.getD 0 0) 0 24
def noticeLen (ws : List Word) : Nat := fld (ws.getD 0 0) 24 8 + 256 * fld (ws.getD 1 0) 0 16
def noticeTag (ws : List Word) : Nat := fld (ws.getD 1 0) 16 16

/-- The content of a notice is allowed on channel `n`. -/
def noticeOk (n : Nat) (ws : List Word) : Bool :=
  noticeLen ws != 0 && decide (noticeOff ws + noticeLen ws ≤ 0x800000) && (secureChan n || decide (0x200000 ≤ noticeOff ws))

/-- TXCOMMITn. -/
def State.txCommit (s : State) (pf : Pf) (n len : Nat) : Option State :=
  match s.pfEnd pf n with
  | none => none
  | some a =>
    let st := (s.chan n).staging a
    if len = 0 then some (s.modChan n fun c => c.setStaging a [])
    else if !s.chanEn n then none
    else if len ≠ st.length ∨ (16 ≤ n ∧ (len ≠ 2 ∨ !noticeOk n st)) then some (s.lenRef n a)
    else if !chanRoom n ((s.chan n).txq a) len then some ((s.modChan n fun c => c.setFlag 2 a).evt 0x31 4)
    else some ((s.modChan n fun c => c.setStaging a []).mbPush n a st)

/-- RXPOPn and ENDRSTn: 0x1. -/
def State.rxPop (s : State) (pf : Pf) (n : Nat) : Option State :=
  match s.pfEnd pf n with
  | none => none
  | some a => some (s.mbPop n a)
def State.endRst (s : State) (pf : Pf) (n : Nat) : Option State :=
  match s.pfEnd pf n with
  | none => none
  | some a => some (s.endReset n a)

/-- RXSEL of a function's window. -/
def State.rxSelect (s : State) (f : Nat) (v : Word) : State :=
  let s := s.wr (Reg.mbxRxsel f) (v &&& 0x1f)
  s.wr (Reg.mbxRxinfo f) (setBit (s.rd (Reg.mbxRxinfo f)) 30 true)

/-- CSTATn: W1C of the writer's own end. -/
def State.cstatClear (s : State) (pf : Pf) (n : Nat) (v : Word) : Option State :=
  match s.pfEnd pf n with
  | none => none
  | some a =>
    let own : Byte := if a then 0x55 else 0xaa
    some (s.modChan n fun c => { c with flags := c.flags &&& ~~~ (BitVec.ofNat 8 (fld v 16 8) &&& own) })

/-- CSTATn, CEPOCHn and CPOPn (R384, R385). -/
def State.cstat (s : State) (n : Nat) : Word :=
  let c := s.chan n
  let q (l : List MbMsg) : Nat := if n < 16 then (l.map fun m => m.words.length).sum else l.length
  wd (q c.ab + 256 * q c.ba + 0x10000 * c.flags.toNat + 0x80000000 * b2n (s.chanEn n))
def State.cepoch (s : State) (n : Nat) : Word :=
  let c := s.chan n
  wd (c.epA.toNat + 256 * c.epB.toNat + 0x10000 * c.stA.length + 0x1000000 * c.stB.length)
def State.cpop (s : State) (n : Nat) : Word := wd ((s.chan n).popAB.toNat + 256 * (s.chan n).popBA.toNat)

/-- MB_RX_WINDOW_READY: the window shows the oldest message (R371). -/
def State.winReady (s : State) (f : Nat) : State :=
  let n := fld (s.rd (Reg.mbxRxsel f)) 0 5
  let m := s.mbHead n (8 + f)
  let info : Word := match m with
    | none => 0
    | some m => wd (m.words.length + 256 * m.epoch.toNat + 0x80000000)
  let ws := match m with
    | none => []
    | some m => m.words
  (List.range 16).foldl (fun s j => s.wr (Reg.mbxRxdata f j) (ws.getD j 0)) (s.wr (Reg.mbxRxinfo f) info)

def execMbRxWindowReady (pf : Pf) (s : State) : Answer :=
  let f := pfIdx pf
  if s.alive && bit (s.rd (Reg.mbxRxinfo f)) 30 then .next (s.winReady f) else .next s

/-! ## Posted writes and vectors (R362, R378 to R381) -/

def State.linkUp (s : State) : Bool := bit (s.rd Reg.hifStat) 0
def State.bme (s : State) (f : Nat) : Bool := bit (s.rd Reg.hifStat) (8 + f)
def State.msixEn (s : State) (f : Nat) : Bool := bit (s.rd Reg.hifStat) (10 + f)
def State.canPost (s : State) (f : Nat) : Bool := s.linkUp && s.bme f

/-- A write that cannot be sent is discarded (R362, R382). -/
def State.postDrop (s : State) : State :=
  let s := s.evt 0x30 16
  let told := match s.host.dropAt with
    | none => false
    | some t => decide (s.now < t + 1000000000)
  if told then s else { s.raise 0x3005 [] with host := { s.host with dropAt := some s.now } }

/-- A posted write of a function. -/
def State.post (s : State) (f : Nat) (addr : Dword) (data : List Byte) : State :=
  if s.canPost f then s.emit (.posted (pfOf f) addr data) else s.postDrop

/-- Vector `v` of a function is masked. -/
def State.vecMasked (s : State) (f v : Nat) : Bool := bit (s.rd (Reg.dblMsixCtl f v)) 0

/-- A vector is signalled: pending while masked, sent while MSI-X is enabled (R362, R378). -/
def State.signal (s : State) (f v : Nat) : State :=
  if s.vecMasked f v then s.wr (Reg.dblPba f) (setBit (s.rd (Reg.dblPba f)) v true)
  else if !s.msixEn f then s
  else if s.canPost f then
    s.emit (.msix (pfOf f) v (dword (s.rd (Reg.dblMsixHi f v)) (s.rd (Reg.dblMsixLo f v))) (s.rd (Reg.dblMsixData f v)))
  else s.postDrop

/-- An entry of the MSI-X table is unmasked: a pending message is sent, or stays pending until MSI-X is enabled. -/
def State.unmask (s : State) (f v : Nat) : State :=
  if bit (s.rd (Reg.dblPba f)) v && !s.vecMasked f v && s.msixEn f then
    (s.wr (Reg.dblPba f) (setBit (s.rd (Reg.dblPba f)) v false)).signal f v
  else s

/-- The address of a function's status block. -/
def State.sbAddr (s : State) (f : Nat) : Dword := dword (s.rd (Reg.dblSbhi f)) (s.rd (Reg.dblSblo f))
def State.sbEn (s : State) (f : Nat) : Bool := bit (s.rd (Reg.dblSbctrl f)) 0

/-- EVT_PEND of a page. -/
def State.evtPend (s : State) (p : Nat) : Word := s.rd (p * 0x1000 + 0x10) &&& s.rd (p * 0x1000 + 0x14)

def mstateCode : MState → Nat
  | .boot => 0 | .bare => 1 | .stop => 2 | .run => 3 | .hold => 4 | .safe => 5

/-- The channels that have something for a function's end: a message, RXRST or RET (R381). -/
def State.sbChans (s : State) (f : Nat) : Word :=
  packBits 32 fun n => match s.endOf n (8 + f) with
    | none => false
    | some a =>
      let c := s.chan n
      !(c.txq !a).isEmpty || bit c.flags (b2n (!a)) || bit c.flags (2 + b2n (!a))

/-- The sixteen words of a status block (R381). -/
def State.sbWords (s : State) (f : Nat) : List Word :=
  let dbp := s.rd (Reg.dblDb (8 + f)) &&& s.rd (Reg.dblDbmask (8 + f))
  let pages (p0 : Nat) : Word := packBits 32 fun p => (pageTable.any fun d => d.page == p0 + p) && s.evtPend (p0 + p) != 0
  [s.rd (Reg.dblSbseq f) + 1, wd (mstateCode s.mstate), dbp, s.sbChans f, pages 0, pages 32, loN s.now, hiN s.now,
    s.rd (Reg.dblC0acc f)] ++ List.replicate 7 0

/-- The words of a block that SUM compares: 0x08 above bit 3, 0x0c, 0x10, 0x14 and 0x20. -/
def sumWords (w : List Word) : List Word := [w.getD 2 0 &&& 0xfffffff0, w.getD 3 0, w.getD 4 0, w.getD 5 0, w.getD 8 0]

/-- A status block is written, and vector SUM follows where a bit has risen since the block before it (R378, R381); one that
cannot be sent is discarded (R362). -/
def State.writeBlock (s : State) (f : Nat) : State :=
  let w := s.sbWords f
  let cur := sumWords w
  let old := ((Vec.at s.host.fn f HostFn.reset).prev).getD (List.replicate 5 0)
  let rose := (cur.zip old).any fun p => p.1 &&& ~~~ p.2 != 0
  if !s.canPost f then s.postDrop else
  let s := (s.wr (Reg.dblSbseq f) (w.getD 0 0)).post f (s.sbAddr f) (w.flatMap fun x => bytesLE x 4)
  let s := s.modFn f fun x => { x with prev := some cur }
  if rose then s.signal f 0 else s

/-- STATUS_BLOCK_WRITE: at every multiple of 10 µs. -/
def execStatusBlockWrite (pf : Pf) (s : State) : Answer :=
  let f := pfIdx pf
  let k := s.now / 10000
  if s.alive && s.sbEn f && decide ((Vec.at s.host.fn f HostFn.reset).sbAt < k) then
    .next ((s.modFn f fun x => { x with sbAt := k }).writeBlock f)
  else .next s

/-- C0_MESSAGE_SEND (R380). -/
def execC0MessageSend (pf : Pf) (s : State) : Answer :=
  let f := pfIdx pf
  if (Vec.at s.host.fn f HostFn.reset).c0 = 0 ∨ !s.alive then .next s else
  let s := s.modFn f fun x => { x with c0 := x.c0 - 1 }
  let s := if s.sbEn f then s.post f (s.sbAddr f + 0x20) (bytesLE (s.rd (Reg.dblC0acc f)) 4) else s
  .next (s.signal f 1)

/-- PRIV_VECTOR_SEND (R379): once the message is visible in the window. -/
def execPrivVectorSend (pf : Pf) (v : Fin 4) (s : State) : Answer :=
  let f := pfIdx pf
  let busy := bit (s.rd (Reg.mbxRxinfo f)) 30 && fld (s.rd (Reg.mbxRxsel f)) 0 5 == v.val
  if s.alive && bit (Vec.at s.host.fn f HostFn.reset).priv v && !busy then
    .next ((s.modFn f fun x => { x with priv := setBit x.priv v false }).signal f (2 + v))
  else .next s

/-- SAFE_HOST_NOTIFY (R378, spec/19_faults_and_diagnostics.md R481): the block first, then vector SAFE. -/
def execSafeHostNotify (s : State) : Answer :=
  if !(s.alive && s.host.safeTell) then .next s else
  let s := { s with host := { s.host with safeTell := false } }
  let one (s : State) (f : Nat) : State := (if s.sbEn f then s.writeBlock f else s).signal f 6
  .next (one (one s 0) 1)

/-! ## Link and resets (R373, R382, spec/20_hardware_reference.md R498) -/

/-- The semaphores of a master are released (spec/02_register_pages.md R50). -/
def State.semsOf (s : State) (mid : Word) : State :=
  (List.range 32).foldl (fun s k => if s.rd (Reg.hifSem k) = mid then s.wr (Reg.hifSem k) 0 else s) s

/-- The link goes down. -/
def State.linkDown (s : State) : State :=
  let s := (s.wr Reg.hifStat 0).evt 0x30 1
  let s := ((s.count Reg.hifLinkdncnt).midReset 8).midReset 9
  (s.semsOf 8).raise 0x3001 []

def execPcieLinkDown (s : State) : Answer := if s.alive && s.linkUp then .next s.linkDown else .next s
def execPerstAssert (s : State) : Answer := if s.alive && s.linkUp then .next s.linkDown else .next s

/-- PCIE_LINK_UP (R383). -/
def execPcieLinkUp (gen : BitVec 2) (width : BitVec 4) (s : State) : Answer :=
  if s.alive && !s.linkUp then .next (s.wr Reg.hifStat (wd (1 + 2 * gen.toNat + 16 * width.toNat))) else .next s

/-- FUNCTION_LEVEL_RESET. -/
def execFunctionLevelReset (pf : Pf) (s : State) : Answer :=
  if !(s.alive && s.linkUp) then .next s else
  let f := pfIdx pf
  let st := setBit (setBit (s.rd Reg.hifStat) (8 + f) false) (10 + f) false
  let s := ((s.wr Reg.hifStat st).evt 0x30 (if f = 0 then 2 else 4)).midReset (8 + f)
  .next (if f = 0 then (s.semsOf 8).raise 0x3002 [] else s.raise 0x3003 [])

/-- CONFIG_SPACE_WRITE (R362): with MSI-X enabled, what is pending and not masked is sent. -/
def execConfigSpaceWrite (pf : Pf) (bme msix : Bool) (s : State) : Answer :=
  let f := pfIdx pf
  if s.alive && s.linkUp then
    let s := s.wr Reg.hifStat (setBit (setBit (s.rd Reg.hifStat) (8 + f) bme) (10 + f) msix)
    .next ((List.range 32).foldl (fun s v => s.unmask f v) s)
  else .next s

/-! ## BAR2 (R31, R33, R365) -/

/-- An AtomicOp is completed. -/
def atomicResult (r : AtomicReq) (old : Dword) : Dword :=
  match r.kind with
  | .fetchAdd => old + r.x
  | .swap => r.x
  | .cas => if old = (if r.width = 4 then r.x &&& 0xffffffff else r.x) then r.y else old

def execAtomicOp (pf : Pf) (r : AtomicReq) (s : State) : Answer :=
  if !s.booted then .next s else
  let a := r.off.toNat
  let ok := r.bar2 && (r.width == 4 || r.width == 8) && a % r.width == 0 && decide (a + r.width ≤ 0x800000) &&
    (pf == .pf0 || decide (0x200000 ≤ a))
  if !ok then
    .next ((((s.evt 0x30 8).count Reg.hifUrcnt).raise 0x3004 []).emit (.atomic pf true 0))
  else
    let old : Dword := BitVec.ofNat 64 (leNat (s.notice.readBytes ramFill a r.width))
    let s := { s with notice := s.notice.writeBytes ramFill a (bytesLE (atomicResult r old) r.width) }
    .next ((s.count Reg.hifAtomcnt).emit (.atomic pf false old))

/-- NOTICE_SRAM_WRITE: bytes of the secure partition written by PF1 and bytes of the reserved half are ignored. -/
def execNoticeSramWrite (pf : Pf) (off : BitVec 24) (data : List Byte) (s : State) : Answer :=
  if !s.booted then .next s else
  .next { s with notice := data.zipIdx.foldl (fun m p =>
    let a := off.toNat + p.2
    if decide (0x800000 ≤ a) || (pf == .pf1 && decide (a < 0x200000)) then m else m.write ramFill a p.1) s.notice }

/-- A write to semaphore `k` by master `m` (spec/02_register_pages.md R48). -/
def State.semPut (s : State) (k : Nat) (m v : Word) : State :=
  let a := Reg.hifSem k
  if s.rd a = 0 then (if v = m then s.wr a m else s)
  else if s.rd a = m ∧ v = 0 then s.wr a 0
  else s

/-- SEM_WRITE (spec/02_register_pages.md R48, R32): `mid` as the fabric names the writer; HPF1 cannot write HIF,
and reserved bits are ignored (R40). -/
def execSemWrite (k : Fin 32) (mid : BitVec 4) (v : Word) (s : State) : Answer :=
  if !s.booted then .next s
  else if mid = 9 then .next (s.refuse 0x30)
  else if ! [1, 2, 3, 4, 5, 6, 8].contains mid.toNat then .next s
  else .next (s.semPut k (mid.zeroExtend 32) (v &&& 0xf))

end Sys2Proof.Machine
end

