-- ==== Sys2Proof/Machine/SettOps.lean ====
section
/-!
DEFINITION. The recorder: records and their bytes, the open record, the ring, overflow, flash pages and blocks, the store's
ends and protection (spec/15_sett_recorder.md).
-/
namespace Sys2Proof.Machine

def State.modSett (s : State) (f : Sett → Sett) : State := { s with sett := f s.sett }
def State.modFlash (s : State) (f : Flash → Flash) : State := s.modSett fun x => { x with flash := f x.flash }

/-! ## Records (R387 to R390) -/

/-- The 64 bytes of a record. -/
def Rec.bytes (r : Rec) : List Byte :=
  let b := natBytesLE r.seq 6 ++ natBytesLE r.repeats 2 ++ natBytesLE r.tfirst 8 ++ natBytesLE r.tlast 8 ++ bytesLE r.src 2 ++
    bytesLE r.code 2 ++ (r.pay.take 8).flatMap (fun w => bytesLE w 4)
  b ++ bytesLE (crc32c b) 4

/-- The number after a sequence number (R390). -/
def nextSeqNo (n : Nat) : Nat := if 0xfffffffffffe ≤ n then 1 else n + 1

/-- `a` comes before `b`, as distances modulo 2^48. -/
def seqBefore (a b : Nat) : Bool :=
  let d := (b + 2 ^ 48 - a % 2 ^ 48) % 2 ^ 48
  0 < d && d < 2 ^ 47
def seqLe (a b : Nat) : Bool := a == b || seqBefore a b

/-- The level of the ring at which overflow ends (R394). -/
def ringLow : Nat := 12288

/-- An event opens a record. -/
def recOf (e : Event) : Rec := ⟨0, 0, e.t, e.t, e.src, e.code, pay8 e.pay⟩

/-- An event is identical to a record: SOURCE[14:0], CODE and payload (R392). -/
def Rec.same (r : Rec) (e : Event) : Bool := fld r.src 0 15 == fld e.src 0 15 && r.code == e.code && r.pay == pay8 e.pay

/-! ## The ring and the open record (R392 to R394) -/

/-- A sealed record enters the ring and takes its SEQ; RINGCNT keeps its highest count. -/
def State.ringPush (s : State) (r : Rec) : State :=
  let seq := s.sett.flash.nextSeq
  let s := s.modSett fun x =>
    { x with ring := x.ring ++ [({ r with seq := seq }, s.now)], flash := { x.flash with nextSeq := nextSeqNo seq } }
  let n := s.sett.ring.length
  let hi := fld (s.rd Reg.settRingcnt) 16 15
  if hi < n then s.wr Reg.settRingcnt (setFld (s.rd Reg.settRingcnt) 16 15 n) else s

/-- The open record is sealed. -/
def State.sealOpen (s : State) : State :=
  match s.sett.opened with
  | none => s
  | some (r, _) => (s.modSett fun x => { x with opened := none }).ringPush r

/-- A message of SETT to the other end of MB2, dropped when the queue is full (R403). -/
def State.settTell (s : State) (code : Nat) : State :=
  match s.endOf 2 3 with
  | none => s
  | some a => if s.chanEn 2 ∧ chanRoom 2 ((s.chan 2).txq a) 1 then s.mbPush 2 a [wd code] else s

/-- OVERFLOW_END: the open record is sealed, and one lost-count record follows (R394). -/
def State.overflowEnd (s : State) : State :=
  match s.sett.ovf with
  | none => s
  | some o =>
    if ringLow < s.sett.ring.length then s else
    let s := (s.modSett fun x => { x with ovf := none }).sealOpen
    let pay := [wd o.lost, loN o.first, hiN o.first, loN o.last, hiN o.last, wd (o.src.toNat + 0x10000 * o.code.toNat)]
    let s := (s.tally 0x3401).ringPush ⟨0, 0, s.now, s.now, 0x0034, 0x3401, pay8 pay⟩
    s.settTell 0x3401

/-- PAGE, then INST, of an event (R388). -/
def Event.rank (e : Event) : Nat := 128 * fld e.src 0 8 + fld e.src 8 7

/-- The place of the event that is taken before the others of its K0 clock of 5 ns, with `e` at the head (R391). -/
def intakeFirst (e : Event) (t : Nat) (r : List Intake) : Nat :=
  let ranks := (r.map fun
    | .event f u => if u / 5 = t / 5 then some f.rank else none
    | .seal => none).takeWhile Option.isSome
  ((ranks.zipIdx 1).foldl (fun (b : Nat × Nat) p => if p.1.getD 0 < b.1 then (p.1.getD 0, p.2) else b) (e.rank, 0)).2

/-- What the intake takes next, and the queue without it: the head, but of events that arrived in one K0 clock the one of
lowest PAGE, then INST (R391). -/
def nextIntake : List Intake → Option (Intake × List Intake)
  | [] => none
  | .seal :: r => some (.seal, r)
  | .event e t :: r =>
    let q := .event e t :: r
    let i := intakeFirst e t r
    some (q.getD i .seal, q.eraseIdx i)

/-- The intake takes an entry of its queue (R391, R392, R394). -/
def State.takeIntake (s : State) : Intake → State
  | .seal => if s.ringFull then s else s.sealOpen
  | .event e _ =>
    let rep (s : State) (v : Word) : State := match e.rep with
      | none => s
      | some i => s.report i v
    match s.sett.opened with
    | none =>
      if s.ringFull then s.loseEvent e else rep (s.modSett fun x => { x with opened := some (recOf e, s.now) }) 1
    | some (r, _) =>
      if r.same e then
        rep (s.modSett fun x => { x with opened := some ({ r with repeats := satNat 0xffff (r.repeats + 1), tlast := e.t }, s.now) }) 1
      else if s.ringFull then s.loseEvent e
      else rep (s.sealOpen.modSett fun x => { x with opened := some (recOf e, s.now) }) 1

/-! ## Flash (R393, R395, R396) -/

/-- A sequence number lies in a protected range. -/
def Flash.protSeq (f : Flash) (n : Nat) : Bool :=
  f.prot.toList.any fun p => match p with
    | none => false
    | some (a, c) => seqLe a n && decide ((n + 2 ^ 48 - a) % 2 ^ 48 < c)

/-- A block is protected. -/
def Flash.protBlock (f : Flash) (b : StoreBlock) : Bool := b.recs.any fun e => f.protSeq e.2.seq

/-- The records of the store, oldest first. -/
def Flash.recs (f : Flash) : List Rec := f.blocks.flatMap fun b => b.recs.map fun e => e.2

/-- FIRST and LAST (R400); 0 for none. -/
def Flash.first (f : Flash) : Nat :=
  match (f.blocks.filter fun b => !b.passed).flatMap (fun b => b.recs) with
  | [] => 0
  | e :: _ => e.2.seq
def Flash.last (f : Flash) : Nat := match f.recs.getLast? with | none => 0 | some r => r.seq

/-- The place of the oldest block that is not protected. -/
def Flash.oldest (f : Flash) : Option Nat := (List.range f.blocks.length).find? fun i =>
  match f.blocks[i]? with
  | none => false
  | some b => !f.protBlock b

/-- The oldest unprotected block is erased; older ones, protected, are passed (R395, R396). -/
def Flash.eraseOldest (f : Flash) : Flash :=
  match f.oldest with
  | none => f
  | some i =>
    { f with blocks := (f.blocks.take i).map (fun b => { b with passed := true }) ++ f.blocks.drop (i + 1), erased := f.erased + 1 }

/-- A block with room for a page stands last: an erased one is taken, after an erasure where none is left. -/
def Flash.ready (f : Flash) : Flash :=
  let full := match f.blocks.getLast? with
    | none => true
    | some b => decide (65536 ≤ b.used)
  if !full then f else
  let f := if f.erased = 0 then f.eraseOldest else f
  if f.erased = 0 then f else { f with blocks := f.blocks ++ [⟨[], 0, false⟩], erased := f.erased - 1 }

/-- A page of records is written to the last block. -/
def Flash.page (f : Flash) (rs : List Rec) : Flash :=
  { f with blocks := modAt f.blocks (f.blocks.length - 1) fun b =>
      { b with recs := b.recs ++ rs.zipIdx.map (fun p => (b.used + p.2, p.1)), used := b.used + 256 } }

/-- The oldest records of the ring, at most 256, are written as one page. -/
def State.writePage (s : State) : State :=
  let rs := (s.sett.ring.take 256).map fun e => e.1
  if rs.isEmpty then s else
  (((s.modFlash fun f => f.ready.page rs).modSett fun x => { x with ring := x.ring.drop 256 }).count Reg.settPagecnt).overflowEnd

/-- The whole ring is written. -/
def State.writeRing (s : State) : Nat → State
  | 0 => s
  | n + 1 => s.writePage.writeRing n

/-- The intake takes all that waits, in its order. -/
def State.takeAll (s : State) : Nat → State
  | 0 => s
  | n + 1 => match nextIntake s.sett.intake with
    | none => s
    | some (e, r) => ((s.modSett fun x => { x with intake := r }).takeIntake e).takeAll n

/-- The open record is sealed and the whole ring written, as at a supply failure (R397, R507). -/
def State.settFlush (s : State) : State := (s.writeRing 65).sealOpen.writeRing 65

/-- A block fails to erase or program (R395). -/
def State.retire (s : State) : State :=
  let s := s.evt 0x34 8
  if s.sett.flash.spare = 0 then
    (((s.modFlash fun f => { f with retired := f.retired + 1, erased := f.erased - 1 }).raise 0x3405 []).settTell 0x3405)
  else (((s.modFlash fun f => { f with retired := f.retired + 1, spare := f.spare - 1 }).raise 0x3404 []).settTell 0x3404)

/-! ## Commands to the recorder (R396, R398) -/

/-- The recorder restarts: the open record and the ring are written, its mailbox ends and semaphores released. -/
def State.settRestart (s : State) : State :=
  let s := s.settFlush
  ((s.midReset 3).semsOf 3).modSett fun x =>
    { x with restart := true, ready := false, extract := none }

/-- Protect range `k` (R396); while the ends of the store are not known, no range lies between them. -/
def State.settProtect (s : State) (k : Nat) : State :=
  let f := s.sett.flash
  let a := s.rd64 Reg.settProtfirstLo % 2 ^ 48
  let c := fld (s.rd Reg.settProtcnt) 0 26
  let l := (a + c - 1) % 2 ^ 48
  let g : Flash := { f with prot := Vec.updAt f.prot k fun _ => some (a, c) }
  let free := ((f.blocks.filter fun b => !b.passed && !g.protBlock b).length) + f.erased
  let bad := !s.sett.ready || (Vec.at f.prot k none).isSome || c == 0 || f.first == 0 || !seqLe f.first a || !seqLe l f.last || !seqLe a l ||
    decide (free < 64)
  if bad then s.evt 0x34 4 else
  { s with sett := { s.sett with flash := g } }.evt 0x34 2

/-- PROTk (R405). -/
def State.protReg (s : State) (k j : Nat) : Word :=
  match Vec.at s.sett.flash.prot k none with
  | none => 0
  | some (a, c) => if j = 0 then loN a else if j = 1 then wd (a / 2 ^ 32 + 0x80000000) else wd c

/-- Release range `k`. -/
def State.settRelease (s : State) (k : Nat) : State :=
  s.modFlash fun f => { f with prot := Vec.updAt f.prot k fun _ => none }

/-- A seal command enters the intake queue (R392). -/
def State.settSeal (s : State) : State := s.modSett fun x => { x with intake := x.intake ++ [.seal] }

/-- SETT.CMD from PF0 (R392, R396, R398, R405): none where the value is not assigned. -/
def State.settCmd (s : State) (v : Word) : Option State :=
  let k := fld v 4 2
  match fld v 0 4 with
  | 1 => some s.settSeal
  | 2 => some s.settRestart
  | 3 => some (s.settProtect k)
  | 4 => some (s.settRelease k)
  | _ => none

end Sys2Proof.Machine
end

