-- ==== Sys2Proof/Machine/Recorder.lean ====
section
/-! DEFINITION. The commands of the Sett event recorder (spec/15_sett_recorder.md). -/
namespace Sys2Proof.Machine

/-- The recorder is powered (R399). -/
def State.settOn (s : State) : Bool := s.supply != .off && s.pstate != .slumber && s.pstate != .hibernate

/-- RECORD_INTAKE: one event of the queue. -/
def execRecordIntake (s : State) : Answer :=
  match nextIntake s.sett.intake with
  | none => .next s
  | some (e, r) =>
    if !s.settOn then .next s else .next (((s.modSett fun x => { x with intake := r }).takeIntake e).overflowEnd)

/-- An event identical to `r` is the next to be taken. -/
def State.mergeNext (s : State) (r : Rec) : Bool :=
  match nextIntake s.sett.intake with
  | some (.event e _, _) => r.same e
  | _ => false

/-- OPEN_RECORD_EXPIRY: 1 s after the last occurrence; an identical event of the same K0 clock merges first (R392). -/
def execOpenRecordExpiry (s : State) : Answer :=
  match s.sett.opened with
  | none => .next s
  | some (r, t) =>
    let due := t + 1000000000
    if s.settOn && !s.ringFull && decide (due ≤ s.now) && !(s.now / 5 == due / 5 && s.mergeNext r) then .next s.sealOpen
    else .next s

/-- Pages may be written: the ends of the store are known. -/
def State.pageOn (s : State) : Bool := s.settOn && s.sett.ready && !s.sett.restart

/-- FLASH_PAGE_WRITE: 256 records wait, or the ring is being emptied; a block that fails is retired, and the page waits. -/
def execFlashPageWrite (ok : Bool) (s : State) : Answer :=
  if s.pageOn && (decide (256 ≤ s.sett.ring.length) || (s.sett.stopped && !s.sett.ring.isEmpty)) then
    .next (if ok then s.writePage else s.retire)
  else .next s

/-- FLUSH_TIMEOUT: the oldest waiting record has waited FLUSHT. -/
def execFlushTimeout (s : State) : Answer :=
  match s.sett.ring with
  | [] => .next s
  | (_, t) :: _ =>
    if s.pageOn && decide (t + 1000000 * fld (s.rd Reg.settCtrl) 0 16 ≤ s.now) then .next s.writePage else .next s

/-- BLOCK_ERASE: no more than two blocks are erased, and an unprotected one is there to erase. -/
def execBlockErase (ok : Bool) (s : State) : Answer :=
  if s.pageOn && decide (s.sett.flash.erased ≤ 2) && s.sett.flash.oldest.isSome then
    let s := s.modFlash Flash.eraseOldest
    .next (if ok then s else s.retire)
  else .next s

/-- The newest `n` records leave the store: they failed their CRC. -/
def Flash.discard (f : Flash) (n : Nat) : Flash :=
  let keep := f.recs.length - n
  let cut := f.blocks.foldl (fun (p : List StoreBlock × Nat) b =>
    (p.1 ++ [{ b with recs := b.recs.take p.2 }], p.2 - b.recs.length)) (([] : List StoreBlock), keep)
  { f with blocks := cut.1 }

/-- The ends of the store are found: 0x3402 is the first record, and the records that waited follow it (R397). -/
def State.settStart (s : State) (discarded : Nat) : State :=
  let s := s.modFlash fun f => f.discard discarded
  let last := s.sett.flash.last
  let wait := s.sett.ring.map fun e => e.1
  let pay := pay8 [wd discarded, loN last, hiN last]
  let s := s.modSett fun x =>
    { x with ring := [], ready := true, restart := false, flashFlt := false, flash := { x.flash with nextSeq := nextSeqNo last } }
  let s := (s.tally 0x3402).ringPush ⟨0, 0, s.now, s.now, mkSource 0x34 0 s.synced, 0x3402, pay⟩
  wait.foldl (fun s r => s.ringPush r) s

/-- DIA.PREVSAFE takes the cause of the newest 0x0401 record (spec/19_faults_and_diagnostics.md R487). -/
def State.prevSafe (s : State) : State :=
  match (s.sett.flash.recs.filter fun r => r.code == 0x0401).getLast? with
  | none => s
  | some r => s.wr Reg.diaPrevsafe (0x80000000 ||| wd (fld (r.pay.headD 0) 0 16))

/-- STORE_SCAN_DONE, after module reset. -/
def execStoreScanDone (discarded : Nat) (s : State) : Answer :=
  if s.settOn && !s.sett.ready && !s.sett.restart then .next (s.settStart discarded).prevSafe.overflowEnd else .next s

/-- SETT_RESTART_DONE (R398): an overflow of the restart ends. -/
def execSettRestartDone (s : State) : Answer :=
  if s.settOn && s.sett.restart then .next (s.settStart 0).overflowEnd else .next s

/-- FLASH_CONTROLLER_FAULT: 0x3406, and the recorder restarts. -/
def execFlashControllerFault (s : State) : Answer :=
  if !s.settOn || s.sett.restart then .next s else
  let s := ((s.modSett fun x => { x with flashFlt := true }).evt 0x34 16).raise 0x3406 []
  .next s.settRestart

/-! ## Reading (R400 to R402) -/

/-- A record held in the store, by its SEQ. -/
def Flash.find (f : Flash) (n : Nat) : Option Rec := f.recs.find? fun r => r.seq == n

/-- A write of RDSEQ_LO starts the read. -/
def State.readStart (s : State) (v : Word) : State :=
  let s := (s.wr Reg.settRdseqLo v).wr Reg.settRdstat 1
  s.modSett fun x => { x with reading := some (nat64 v (s.rd Reg.settRdseqHi) % 2 ^ 48) }

/-- RECORD_READ_DONE: the record, or GONE; of a record that fails its CRC the bytes are what the flash gave (R389; log
entry 2). -/
def execRecordReadDone (s : State) (crcBad : Bool := false) : Answer :=
  match s.sett.reading with
  | none => .next s
  | some n =>
    if !s.pageOn then .next s else
    let r := s.sett.flash.find n
    let bs := match r with
      | none => []
      | some r => r.bytes
    let bad := crcBad && r.isSome
    let k := s.freeCount
    let word (j : Nat) : Word := if bad then lo32 (Config.freeSig (k + j)) else wd (leNat ((bs.drop (4 * j)).take 4))
    let s := { s.modSett fun x => { x with reading := none } with freeCount := k + 16 * b2n bad }
    let s := s.wr Reg.settRdstat (if r.isSome then 2 + 8 * wd (b2n bad) else 4)
    .next ((List.range 16).foldl (fun s j => s.wr (Reg.settRddata j) (word j)) s)

/-- SETT.SNAP. -/
def State.settSnap (s : State) (v : Word) : State :=
  if v ≠ 1 then s else (s.wr64 Reg.settFirstLo s.sett.flash.first).wr64 Reg.settLastLo s.sett.flash.last

/-- EXTRACT_REQUEST: a request notice stands on MB17, and none is being answered. -/
def execExtractRequest (s : State) : Answer :=
  match s.mbHead 17 3 with
  | none => .next s
  | some m =>
    if s.pageOn && s.sett.extract.isNone then .next (s.modSett fun x => { x with extract := some m.words }) else .next s

/-- The records a request takes (R402). -/
def Flash.extract (f : Flash) (start max : Nat) (fromFirst : Bool) : List Rec :=
  if fromFirst && f.first == 0 then [] else
  let from' := if fromFirst then f.first else start
  (f.recs.filter fun r => seqLe from' r.seq).take max

/-- Some number between two neighbours is skipped. -/
def hasGap : List Rec → Bool
  | a :: b :: t => nextSeqNo a.seq != b.seq || hasGap (b :: t)
  | _ => false

/-- The reply to a request in the buffer at `off` of `len` bytes: header and records. -/
def State.extractReply (s : State) (off len : Nat) : State × Nat :=
  let f := s.sett.flash
  let word (a : Nat) : Word := s.notice.readWord ramFill (off + a)
  let start := nat64 (word 0) (word 4) % 2 ^ 48
  let fromFirst := bit (word 0xc) 0
  let rs := if len < 128 then [] else f.extract start (min (word 8).toNat ((len - 64) / 64)) fromFirst
  let below := !fromFirst && match f.recs.head? with
    | none => false
    | some r => seqBefore start r.seq
  let above := !fromFirst && (f.last == 0 || seqBefore f.last start)
  let skips := match rs with
    | [] => false
    | r :: _ => !fromFirst && !below && r.seq != start
  let stat := b2n below + 2 * b2n above + 4 * b2n (skips || hasGap rs)
  let head := natBytesLE f.first 6 ++ [0, 0] ++ natBytesLE f.last 6 ++ [0, 0] ++ natBytesLE rs.length 4 ++ natBytesLE stat 4 ++
    natBytesLE f.first 6 ++ [0, 0]
  let n := s.notice.writeBytes ramFill (off + 0x20) (head.take (len - 0x20))
  ({ s with notice := n.writeBytes ramFill (off + 64) (rs.flatMap fun r => r.bytes) }, rs.length)

/-- EXTRACT_DONE: the buffer is filled, the reply notice is committed towards the requester, and the request is popped; a
request that a new binding has discarded (R369) is dropped. -/
def execExtractDone (s : State) : Answer :=
  match s.sett.extract, s.endOf 17 3 with
  | some ws, some a =>
    let s' := s.modSett fun x => { x with extract := none }
    if (s.mbHead 17 3).map (·.words) ≠ some ws then .next s'
    else if !(s.pageOn && s.chanEn 17 && chanRoom 17 ((s.chan 17).txq a) 2) then .next s else
    let (s, n) := s'.extractReply (noticeOff ws) (noticeLen ws)
    let l := 64 + 64 * n
    let s := s.count Reg.settExtrcnt
    let s := s.mbPush 17 a [wd (noticeOff ws + 0x1000000 * (l % 256)), wd (l / 256 + 0x10000 * noticeTag ws)]
    .next (s.mbPop 17 a)
  | _, _ => .next s

/-- SETT_MB2_COMMAND: operations 0x1, 0x3 and 0x4 of HPF0 (R403). -/
def execSettMb2Command (s : State) : Answer :=
  match s.mbHead 2 3, s.endOf 2 3 with
  | some m, some a =>
    if !(s.settOn && !s.sett.restart) then .next s else
    let v := m.words.headD 0
    let s := s.mbPop 2 a
    .next (match fld v 0 4 with
      | 1 => s.settSeal
      | 3 => s.settProtect (fld v 4 2)
      | 4 => s.settRelease (fld v 4 2)
      | _ => s)
  | _, _ => .next s

/-- SETT.STAT [4:0] (R406). -/
def State.settStat (s : State) : Nat :=
  b2n s.sett.ready + 2 * b2n s.ringFull + 4 * b2n s.sett.opened.isSome + 8 * b2n s.sett.flashFlt +
    16 * b2n s.sett.restart

end Sys2Proof.Machine
end

