-- ==== Sys2Proof/Machine/Crypto.lean ====
section
/-!
DEFINITION. SHA-256 (FIPS 180-4) and the verification of an ECDSA P-256 signature (FIPS 186-4), which
spec/03_program_image.md R90 and spec/17_start_up_and_update.md R438 to R441 name. The constants and the curve are the
standards' own (PRESUMED, log entry 13).
-/
namespace Sys2Proof.Machine

/-! ## SHA-256 -/

/-- The round constants of SHA-256. -/
def shaK : List Word :=
  [0x428a2f98, 0x71374491, 0xb5c0fbcf, 0xe9b5dba5, 0x3956c25b, 0x59f111f1, 0x923f82a4, 0xab1c5ed5] ++
  [0xd807aa98, 0x12835b01, 0x243185be, 0x550c7dc3, 0x72be5d74, 0x80deb1fe, 0x9bdc06a7, 0xc19bf174] ++
  [0xe49b69c1, 0xefbe4786, 0xfc19dc6, 0x240ca1cc, 0x2de92c6f, 0x4a7484aa, 0x5cb0a9dc, 0x76f988da] ++
  [0x983e5152, 0xa831c66d, 0xb00327c8, 0xbf597fc7, 0xc6e00bf3, 0xd5a79147, 0x6ca6351, 0x14292967] ++
  [0x27b70a85, 0x2e1b2138, 0x4d2c6dfc, 0x53380d13, 0x650a7354, 0x766a0abb, 0x81c2c92e, 0x92722c85] ++
  [0xa2bfe8a1, 0xa81a664b, 0xc24b8b70, 0xc76c51a3, 0xd192e819, 0xd6990624, 0xf40e3585, 0x106aa070] ++
  [0x19a4c116, 0x1e376c08, 0x2748774c, 0x34b0bcb5, 0x391c0cb3, 0x4ed8aa4a, 0x5b9cca4f, 0x682e6ff3] ++
  [0x748f82ee, 0x78a5636f, 0x84c87814, 0x8cc70208, 0x90befffa, 0xa4506ceb, 0xbef9a3f7, 0xc67178f2]

/-- The initial hash value of SHA-256. -/
def shaH : List Word :=
  [0x6a09e667, 0xbb67ae85, 0x3c6ef372, 0xa54ff53a, 0x510e527f, 0x9b05688c, 0x1f83d9ab, 0x5be0cd19]

/-- A message padded to whole blocks of 64 bytes: 0x80, zeros, and the length in bits in the last 8 bytes. -/
def shaPad (bs : List Byte) : List Byte :=
  let n := bs.length
  bs ++ [0x80] ++ List.replicate ((119 - n % 64) % 64) 0 ++ natBytesBE (8 * n) 8

/-- The next word of the message schedule, from the words so far, newest first. -/
def shaNext (w : List Word) : Word :=
  let a := w.getD 1 0
  let b := w.getD 14 0
  (a.rotateRight 17 ^^^ a.rotateRight 19 ^^^ (a >>> 10)) + w.getD 6 0 +
    (b.rotateRight 7 ^^^ b.rotateRight 18 ^^^ (b >>> 3)) + w.getD 15 0

/-- The message schedule: `n` more words, newest first. -/
def shaExtend : Nat → List Word → List Word
  | 0, w => w
  | n + 1, w => shaExtend n (shaNext w :: w)

/-- The eight working variables. -/
structure ShaVars where
  a : Word
  b : Word
  c : Word
  d : Word
  e : Word
  f : Word
  g : Word
  h : Word

def ShaVars.ofList (l : List Word) : ShaVars :=
  ⟨l.getD 0 0, l.getD 1 0, l.getD 2 0, l.getD 3 0, l.getD 4 0, l.getD 5 0, l.getD 6 0, l.getD 7 0⟩
def ShaVars.toList (v : ShaVars) : List Word := [v.a, v.b, v.c, v.d, v.e, v.f, v.g, v.h]

/-- One round with round constant and schedule word. -/
def ShaVars.round (v : ShaVars) (k w : Word) : ShaVars :=
  let t1 := v.h + (v.e.rotateRight 6 ^^^ v.e.rotateRight 11 ^^^ v.e.rotateRight 25) + ((v.e &&& v.f) ^^^ (~~~v.e &&& v.g)) + k + w
  let t2 := (v.a.rotateRight 2 ^^^ v.a.rotateRight 13 ^^^ v.a.rotateRight 22) + ((v.a &&& v.b) ^^^ (v.a &&& v.c) ^^^ (v.b &&& v.c))
  ⟨t1 + t2, v.a, v.b, v.c, v.d + t1, v.e, v.f, v.g⟩

/-- The hash value after one block of 64 bytes. -/
def shaBlock (h : List Word) (bs : List Byte) : List Word :=
  let w16 := (List.range 16).map fun i => wd (beNat ((bs.drop (4 * i)).take 4))
  let w := (shaExtend 48 w16.reverse).reverse
  let v := (shaK.zip w).foldl (fun v x => v.round x.1 x.2) (ShaVars.ofList h)
  List.zipWith (· + ·) h v.toList

/-- `n` blocks. -/
def shaBlocks : Nat → List Word → List Byte → List Word
  | 0, h, _ => h
  | n + 1, h, bs => shaBlocks n (shaBlock h (bs.take 64)) (bs.drop 64)

/-- The 32 bytes of a SHA-256 hash. -/
def sha256 (bs : List Byte) : List Byte :=
  let p := shaPad bs
  (shaBlocks (p.length / 64) shaH p).flatMap fun w => (bytesLE w 4).reverse

/-- The hash as a number, most significant byte first. -/
def sha256Nat (bs : List Byte) : Nat := beNat (sha256 bs)

/-! ## ECDSA on P-256 -/

/-- The prime of the field, the order of the base point, the coefficient b, and the base point. -/
def p256p : Nat := 0xffffffff00000001000000000000000000000000ffffffffffffffffffffffff
def p256n : Nat := 0xffffffff00000000ffffffffffffffffbce6faada7179e84f3b9cac2fc632551
def p256b : Nat := 0x5ac635d8aa3a93e7b3ebbd55769886bc651d06b0cc53b0f63bce3c3e27d2604b
def p256gx : Nat := 0x6b17d1f2e12c4247f8bce6e563a440f277037d812deb33a0f4a13945d898c296
def p256gy : Nat := 0x4fe342e2fe1a7f9b8ee7eb4a7c0f9e162bce33576b315ececbb6406837bf51f5

/-- `b` to the power `e` modulo `m`, for exponents below 2^fuel. -/
def powMod (m : Nat) : Nat → Nat → Nat → Nat
  | 0, _, _ => 1 % m
  | fuel + 1, b, e => if e = 0 then 1 % m else (powMod m fuel (b * b % m) (e / 2)) * (if e % 2 = 1 then b else 1) % m

/-- The inverse modulo a prime. -/
def invMod (m a : Nat) : Nat := powMod m 256 (a % m) (m - 2)

/-- A point of the curve, or the point at infinity. -/
abbrev EcPoint := Option (Nat × Nat)

/-- The point with slope `l` through (x1, y1) and a point of abscissa x2. -/
def ecChord (l x1 y1 x2 : Nat) : EcPoint :=
  let p := p256p
  let x := (l * l + 2 * p - x1 - x2) % p
  some (x, (l * (x1 + p - x) + p - y1) % p)

/-- The sum of two points. -/
def ecAdd : EcPoint → EcPoint → EcPoint
  | none, q => q
  | some a, none => some a
  | some (x1, y1), some (x2, y2) =>
    let p := p256p
    if x1 = x2 then
      if (y1 + y2) % p = 0 then none
      else ecChord ((3 * x1 * x1 + p - 3) * invMod p (2 * y1) % p) x1 y1 x2
    else ecChord ((y2 + p - y1) * invMod p (x2 + p - x1) % p) x1 y1 x2

/-- `k` times a point, for k below 2^fuel. -/
def ecMul : Nat → Nat → EcPoint → EcPoint
  | 0, _, _ => none
  | fuel + 1, k, q =>
    if k = 0 then none
    else
      let r := ecMul fuel (k / 2) (ecAdd q q)
      if k % 2 = 1 then ecAdd q r else r

/-- A public key is a point of the curve. -/
def ecValid (x y : Nat) : Bool :=
  decide (x < p256p) && decide (y < p256p) && (y * y) % p256p == (x * x * x + (p256p - 3) * x + p256b) % p256p

/-- The signature (r, s) over a message with hash `e` verifies with the key (x, y). -/
def ecdsaOk (x y e r s : Nat) : Bool :=
  let n := p256n
  if ecValid x y && decide (0 < r) && decide (r < n) && decide (0 < s) && decide (s < n) then
    let w := invMod n s
    match ecAdd (ecMul 256 (e * w % n) (some (p256gx, p256gy))) (ecMul 256 (r * w % n) (some (x, y))) with
    | none => false
    | some (px, _) => px % n == r
  else false

end Sys2Proof.Machine
end

