-- ==== Sys2Proof/Machine/BridgeOps.lean ====
section
/-!
DEFINITION. The routing bridge: entries, matching, forwarding into buffers and destinations, side-band messages, and the
words of receive areas (spec/12_bridges.md R316 to R333).
-/
namespace Sys2Proof.Machine

/-- A plane, or a line, as a number. -/
def planeIdx : Plane → Nat
  | .a => 0
  | .b => 1

/-! ## Tables -/

/-- The entries of table `t` whose word `j` has bit 31 (EN) set, in ascending order. -/
def State.enabled (s : State) (t j : Nat) : List Nat :=
  s.tables.filterMap fun e =>
    if e.1 / 0x10000 = t ∧ e.1 % 0x10 = j ∧ bit e.2 31 then some (e.1 / 0x10 % 0x1000) else none

/-- A routing entry (R323). -/
structure Route where
  sport : Nat
  dport : Nat
  side  : Bool
  dide  : Bool
  dfd   : Bool
  dbrs  : Bool
  priv  : Bool
  sid   : Nat
  smask : Nat
  soff  : Nat
  slen  : Nat
  did   : Nat
  doff  : Nat
  dlen  : Nat
  fill  : Byte
  miniv : Nat
  tout  : Nat
  sb    : Word
deriving DecidableEq, Repr

/-- The fields of a routing entry's words. -/
def Route.ofWords (w : Nat → Word) : Route where
  sport := fld (w 0) 0 3
  dport := fld (w 0) 4 3
  side := bit (w 0) 8
  dide := bit (w 0) 9
  dfd := bit (w 0) 10
  dbrs := bit (w 0) 11
  priv := bit (w 0) 16
  sid := fld (w 1) 0 29
  smask := fld (w 2) 0 29
  soff := fld (w 3) 0 11
  slen := fld (w 3) 16 7
  did := fld (w 4) 0 29
  doff := fld (w 5) 0 11
  dlen := fld (w 5) 16 7
  fill := BitVec.ofNat 8 (fld (w 5) 24 8)
  miniv := fld (w 6) 0 16
  tout := fld (w 6) 16 16
  sb := w 7

/-- SBID and SBOFF of a privileged entry. -/
def Route.sbid (r : Route) : Nat := fld r.sb 0 29
def Route.sboff (r : Route) : Nat := fld r.sb 0 11

def State.route (s : State) (e : Nat) : Route := Route.ofWords fun j => s.tbl 4 e j
def State.routes (s : State) : List Nat := s.enabled 4 0

/-- The bridge, the CAN channels and the MVB interface run (R333). -/
def State.bridgeRuns (s : State) : Bool :=
  s.alive && (s.mstate == .stop || s.mstate == .run || s.mstate == .hold)

def State.ent (s : State) (e : Nat) : EntSt := Store.get (fun _ => EntSt.zero) s.brg.ents e
def State.modEnt (s : State) (e : Nat) (f : EntSt → EntSt) : State :=
  { s with brg := { s.brg with ents := Store.put (fun _ => EntSt.zero) s.brg.ents e (f (s.ent e)) } }
def State.buf (s : State) (a b : Nat) : List BMsg := Store.get (fun _ => []) s.brg.bufs (7 * a + b)
def State.setBuf (s : State) (a b : Nat) (l : List BMsg) : State :=
  { s with brg := { s.brg with bufs := Store.put (fun _ => []) s.brg.bufs (7 * a + b) l } }
def State.canCh (s : State) (c : Nat) : Can := Vec.at s.cans c Can.reset
def State.modCan (s : State) (c : Nat) (f : Can → Can) : State := { s with cans := Vec.updAt s.cans c f }

/-- CANx.CTRL.EN and CANx.STAT.ERRST (R336). -/
def State.canEn (s : State) (c : Nat) : Bool := bit (s.rd (Reg.canCtrl c)) 0
def State.canErrst (s : State) (c : Nat) : Nat :=
  let x := s.canCh c
  if !s.canEn c then 3 else if x.busOff then 2 else if 127 < x.tec ∨ 127 < x.rec' then 1 else 0

/-! ## Receive areas (R328) -/

/-- The four bytes of word `w` of a receive area as the entry orders them: SOPT[8] 1 for byte 4w in bits [7:0]. -/
def wordOf (little : Bool) (b : Nat → Byte) : Word :=
  let bs := [b 0, b 1, b 2, b 3]
  wd (if little then leNat bs else beNat bs)

/-- The four bytes of a word in that order. -/
def bytesOf (little : Bool) (v : Word) : List Byte := if little then bytesLE v 4 else (bytesLE v 4).reverse

/-- A receive area has had no routed write for TOUT ms, counted from the load before the first one (R328). -/
def State.areaStale (s : State) (a tout : Nat) : Bool :=
  let at' := Store.get (fun _ => 0) s.brg.areaAt a
  tout != 0 && decide (at' - 1 + 1000000 * tout ≤ s.now)

/-- The last status byte of a privileged entry that writes an area. -/
def State.areaStat (s : State) (a : Nat) : Nat :=
  match s.routes.find? fun e => (s.route e).priv && (s.route e).dport == 6 && (s.route e).did == a with
  | none => 0
  | some e => (s.ent e).stat.toNat

/-- The status of an input word as its source last gave it. -/
def State.sourceStat (s : State) (n : Nat) : Word :=
  match s.ownIn n with
  | some o => o.st
  | none => s.pimRd (pimIst + n)

/-- An item of a receive area is written; `fresh` where a routed write reaches word `w`. A word that was bad because the area
was stale is good again once it is not. -/
def State.areaItem (s : State) (m : MapE) (fresh : Bool) : State :=
  let w := fld m.sopt 0 4
  let stale := s.areaStale m.inst (fld m.sopt 16 16)
  if m.item = 1 then
    s.ipiGood m.piw (wd (b2n ((s.inMaps 0x44 m.inst).any fun x => x.item == 0 && s.areaStale m.inst (fld x.sopt 16 16)) +
      256 * s.areaStat m.inst))
  else if !Store.get (fun _ => false) s.brg.words (16 * m.inst + w) || stale then s.ipiBad m
  else
    let v := wordOf (bit m.sopt 8) fun i => Store.get (fun _ => (0 : Byte)) s.brg.area (64 * m.inst + 4 * w + i)
    if fresh then s.ipiGood m.piw v
    else if s.sourceStat m.piw = stGood then s
    else s.ipiPut m.piw v stGood

/-- The IPI words of an area: those of the words in `ws` are fresh. -/
def State.areaItems (s : State) (a : Nat) (ws : List Nat) : State :=
  (s.inMaps 0x44 a).foldl (fun s m => s.areaItem m (m.item == 1 || ws.contains (fld m.sopt 0 4))) s

/-- Bytes from `off` of a store of bytes are replaced. -/
def putBytes (m : Store Byte) (a : Nat) : List Byte → Store Byte
  | [] => m
  | b :: r => putBytes (Store.put (fun _ => (0 : Byte)) m a b) (a + 1) r

/-- A routed write reaches a receive area. -/
def State.areaWrite (s : State) (a off : Nat) (bs : List Byte) : State :=
  let ws := (List.range 16).filter fun w => decide (off < 4 * w + 4) && decide (4 * w < off + bs.length)
  let words := ws.foldl (fun m w => Store.put (fun _ => false) m (16 * a + w) true) s.brg.words
  let s := { s with brg := { s.brg with
    area := putBytes s.brg.area (64 * a + off) bs
    words := words
    areaAt := Store.put (fun _ => 0) s.brg.areaAt a (s.now + 1) } }
  s.areaItems a ws

/-! ## MVB ports (R322) -/

/-- The enabled entry of a port address and direction. -/
def State.mvbEntry (s : State) (addr : Nat) (source : Bool) : Option Nat :=
  (s.enabled 3 0).find? fun e => fld (s.tbl 3 e 0) 0 12 == addr && bit (s.tbl 3 e 0) 16 == source

/-- The size of a port in bytes. -/
def State.mvbSize (s : State) (e : Nat) : Nat := 2 * 2 ^ fld (s.tbl 3 e 0) 12 3

/-- The data of a port: zeros until first written. -/
def State.mvbData (s : State) (e : Nat) : List Byte :=
  (List.range (s.mvbSize e)).map fun i => Store.get (fun _ => (0 : Byte)) s.mvb.bytes (32 * e + i)

/-! ## Forwarding (R326, R327, R329, R330, R332) -/

/-- A message of source port `a` is dropped. -/
def State.brgDrop (s : State) (a entry : Nat) : State :=
  let s := (s.count (Reg.brgDrop a)).evt 0x2d 1
  let told := match s.brg.dropAt with
    | none => false
    | some t => decide (s.now < t + 1000000000)
  if told then s else { s.raise 0x2d01 [wd entry] with brg := { s.brg with dropAt := some s.now } }

/-- The routed bytes of a published dataset are replaced. -/
def State.routedWrite (s : State) (p off : Nat) (bs : List Byte) : State :=
  { s with brg := { s.brg with routed :=
    (bs.zipIdx.foldl (fun m x => Store.put (fun _ => none) m (2048 * p + off + x.2) (some x.1)) s.brg.routed) } }

/-- The bytes of a message that is not for a CAN channel reach their destination. -/
def State.deliver (s : State) (dport did off : Nat) (bs : List Byte) : State :=
  if dport = 4 then
    match s.mvbEntry did true with
    | none => s
    | some e => { s with mvb := { s.mvb with bytes := putBytes s.mvb.bytes (32 * e + off) bs } }
  else if dport = 5 then s.routedWrite did off bs
  else s.areaWrite did off bs

/-- The CAN frame of an entry for the copied bytes. -/
def Route.frame (r : Route) (bs : List Byte) : CanFrame where
  ext := r.dide
  fd := r.dfd
  brs := r.dbrs
  esi := false
  rtr := false
  id := BitVec.ofNat 29 r.did
  data := List.replicate r.doff r.fill ++ bs ++ List.replicate (r.dlen - r.doff - bs.length) r.fill

/-- A forward is counted and timed. -/
def State.forwarded (s : State) (e : Nat) : State :=
  let w := s.tbl 4 e 8
  let s := (s.setTbl 4 e 8 (setFld w 16 16 (fld w 16 16 + 1))).count Reg.brgFwdcnt
  s.modEnt e fun x => { x with fwdAt := s.now + 1, held := none }

/-- Entry `e` forwards `bs`. -/
def State.forwardNow (s : State) (e : Nat) (bs : List Byte) : State :=
  let r := s.route e
  if r.dport < 4 then
    if 2 ≤ s.canErrst r.dport ∨ 16 ≤ ((s.buf r.sport r.dport).filter fun m => !m.side).length then
      (s.modEnt e fun x => { x with held := none }).brgDrop r.sport e
    else (s.forwarded e).setBuf r.sport r.dport (s.buf r.sport r.dport ++ [⟨e, false, r.frame bs⟩])
  else (s.forwarded e).deliver r.dport r.did r.doff bs

/-- Entry `e` forwards `bs`, or holds it for MINIV (R327). -/
def State.forward (s : State) (e : Nat) (bs : List Byte) : State :=
  let r := s.route e
  let x := s.ent e
  if r.miniv ≠ 0 ∧ x.fwdAt ≠ 0 ∧ s.now < x.fwdAt - 1 + 1000 * r.miniv then s.modEnt e fun x => { x with held := some bs }
  else s.forwardNow e bs

/-- A message of port `sport` with identifier `sid` reaches entry `e`. -/
def State.routeOne (s : State) (can : Bool) (bs : List Byte) (e : Nat) : State :=
  let r := s.route e
  let s := s.modEnt e fun x => { x with msgAt := s.now + 1 }
  if can ∧ bs.length < r.soff + r.slen then (s.count Reg.brgShort).evt 0x2d 8
  else s.forward e ((bs.drop r.soff).take r.slen)

/-- Routing is enabled and the bridge runs. -/
def State.routing (s : State) : Bool := s.bridgeRuns && bit (s.rd Reg.brgCtrl) 0

/-- The entries that a message of a port other than CAN matches (R325). -/
def State.bridgeMsg (s : State) (sport sid : Nat) (bs : List Byte) : State :=
  if !s.routing then s else
  (s.routes.filter fun e => (s.route e).sport == sport && (s.route e).sid == sid).foldl (fun s e => s.routeOne false bs e) s

/-- The entries that a CAN frame matches, and UNMATCHED. -/
def State.bridgeCan (s : State) (c : Nat) (f : CanFrame) : State :=
  if !s.routing then s else
  let hit := s.routes.filter fun e =>
    let r := s.route e
    r.sport == c && r.side == f.ext && (f.id.toNat &&& r.smask) == (r.sid &&& r.smask)
  if hit.isEmpty then s.count Reg.brgUnmatched else hit.foldl (fun s e => s.routeOne true f.data e) s

/-- The side-band message of entry `e` (R332). -/
def State.sideBand (s : State) (e : Nat) (st : Byte) : State :=
  let r := s.route e
  let n := (s.ent e).chg + 1
  let s := ((s.modEnt e fun x => { x with chg := n }).evt 0x2d 4).raise 0x2d03 [wd e]
  let bs : List Byte := [st, BitVec.ofNat 8 r.sport, byteOf n 0, byteOf n 1]
  if r.dport < 4 then
    let m : BMsg := ⟨e, true, ⟨r.dide, r.dfd, r.dbrs, false, false, BitVec.ofNat 29 r.sbid, bs⟩⟩
    if 2 ≤ s.canErrst r.dport then s.brgDrop r.sport e else
    let l := s.buf r.sport r.dport
    let sending := match (s.canCh r.dport).tx with
      | none => false
      | some (p, x) => p == r.sport && l.head? == some x
    let h := if sending then l.take 1 else []
    let t := if sending then l.drop 1 else l
    if t.any fun x => x.side && x.entry == e then
      s.setBuf r.sport r.dport (h ++ t.map fun x => if x.side && x.entry == e then m else x)
    else s.setBuf r.sport r.dport (l ++ [m])
  else s.deliver r.dport r.did r.sboff bs

/-- The receive areas start with a load: no word routed yet, and their timeouts count from now (R328). -/
def State.areasStart (s : State) : State :=
  let areas := ((s.maps.filter fun m => !m.out && m.kind == 0x44).map fun m => m.inst).eraseDups
  { s with brg := { s.brg with
    area := []
    words := []
    areaAt := areas.foldl (fun l a => Store.put (fun _ => 0) l a (s.now + 1)) [] } }

/-- All buffers and held messages are emptied, and nothing is being sent (R333). -/
def State.bridgeEmpty (s : State) : State :=
  { s with brg := { s.brg with bufs := [], ents := [] }
           cans := s.cans.map fun (c : Can) => { c with tx := none } }

/-- A routed byte of dataset `p` as published: FILL of its entry in STOP and before the first routed write (R326). -/
def State.routedByte (s : State) (p i : Nat) : Byte :=
  match s.routes.find? fun e =>
      let r := s.route e
      r.dport == 5 && r.did == p && decide (r.doff ≤ i) && decide (i < r.doff + r.slen) with
  | none => 0
  | some e => if s.mstate = .stop then (s.route e).fill
    else (Store.get (fun _ => none) s.brg.routed (2048 * p + i)).getD (s.route e).fill

end Sys2Proof.Machine
end

