-- ==== Sys2Proof/Machine/Bridge.lean ====
section
/-!
DEFINITION. The commands of the CAN channels, the MVB interface and the bridge (spec/12_bridges.md).
-/
namespace Sys2Proof.Machine

/-! ## CAN (R317 to R320) -/

/-- The channel takes part in the bus: enabled, the bridge runs, no restricted operation, not bus-off. -/
def State.canOn (s : State) (c : Nat) : Bool :=
  s.bridgeRuns && s.canEn c && !bit (s.rd (Reg.canCtrl c)) 2 && !(s.canCh c).busOff

/-- An event of channel `c`. -/
def State.canRaise (s : State) (c code : Nat) : State := s.raise (code + 0x100 * c) [wd c]

/-- What a change of the error counters brings about (R319, R334). -/
def State.canAfter (s : State) (c old : Nat) : State :=
  let x := s.canCh c
  if 255 < x.tec ∧ !x.busOff then
    let s := (List.range 7).foldl (fun s p => s.setBuf p c []) s
    let s := s.modCan c fun x => { x with busOff := true, recover := false, tx := none }
    ((s.evt (0x28 + c) 2).count (Reg.canBocnt c)).canRaise c 0x2802
  else if s.canErrst c = 1 ∧ old = 0 then (s.evt (0x28 + c) 1).canRaise c 0x2801
  else s

/-- CAN_FRAME_RX (R317, R319, R325). -/
def execCanFrameRx (c : Fin 4) (f : CanFrame) (s : State) : Answer :=
  if !s.canOn c then .next s
  else if f.rtr then .next ((s.count (Reg.canRxdisc c)).evt (0x28 + c) 8)
  else if f.fd && !bit (s.rd (Reg.canCtrl c)) 1 then .next s
  else
    let s := s.modCan c fun x =>
      { x with rec' := if 127 < x.rec' then 119 + Config.canRec c % 9 else x.rec' - 1 }
    .next ((s.count (Reg.canRxcnt c)).bridgeCan c f)

/-- The order of arbitration: lower wins (R320). -/
def arbOf (f : CanFrame) : Nat :=
  if f.ext then f.id.toNat / 2 ^ 18 * 2 ^ 19 + 2 ^ 18 + f.id.toNat % 2 ^ 18 else f.id.toNat % 2 ^ 11 * 2 ^ 19

/-- The head messages of the buffers that lead to channel `c`, with their source ports. An FD frame waits while FDEN is 0
(R336; DESIGN CHOICE, log entry 21). -/
def State.canHeads (s : State) (c : Nat) : List (Nat × BMsg) :=
  ((List.range 7).filterMap fun p => ((s.buf p c).head?).map fun m => (p, m)).filter fun x =>
    !x.2.frame.fd || bit (s.rd (Reg.canCtrl c)) 1

/-- The head that wins: the lowest in arbitration, then the lower source port. -/
def winner : List (Nat × BMsg) → Option (Nat × BMsg)
  | [] => none
  | h :: t => some (t.foldl (fun b x => if arbOf x.2.frame < arbOf b.2.frame then x else b) h)

/-- CAN_TX_START (R320). -/
def execCanTxStart (c : Fin 4) (s : State) : Answer :=
  if s.canOn c && (s.canCh c).tx.isNone then .next (s.modCan c fun x => { x with tx := winner (s.canHeads c) }) else .next s

/-- CAN_TX_DONE (R319): sent, an FD frame with ESI while the channel is error passive (R317), or retransmitted. -/
def execCanTxDone (c : Fin 4) (r : CanTxEnd) (s : State) : Answer :=
  if !s.canOn c then .next s else
  match (s.canCh c).tx, r with
  | some (p, m), .sent =>
    let esi := m.frame.fd && s.canErrst c == 1
    let s := s.setBuf p c ((s.buf p c).drop 1)
    let s := s.modCan c fun x => { x with tx := none, tec := x.tec - 1 }
    .next ((s.count (Reg.canTxcnt c)).emit (.can c { m.frame with esi := esi }))
  | some _, .lostArbitration => .next s
  | some _, .error => .next s
  | none, _ => .next s

/-- CAN_BUS_ERROR (R319). -/
def execCanBusError (c : Fin 4) (e : CanErr) (s : State) : Answer :=
  if !s.canOn c then .next s else
  let old := s.canErrst c
  .next ((s.modCan c fun x => { x with tec := x.tec + e.dTec, rec' := satNat 255 (x.rec' + e.dRec) }).canAfter c old)

/-- CAN_BUSOFF_RECOVERY (R319). -/
def execCanBusoffRecovery (c : Fin 4) (s : State) : Answer :=
  let x := s.canCh c
  if s.bridgeRuns && s.canEn c && !bit (s.rd (Reg.canCtrl c)) 2 && x.busOff && (bit (s.rd (Reg.canCtrl c)) 3 || x.recover) then
    .next (((s.modCan c fun _ => Can.reset).evt (0x28 + c) 4).canRaise c 0x2803)
  else .next s

/-- CANx.CMD (R319, R335): 0x1 starts recovery of a channel in bus-off. -/
def State.canCmd (s : State) (c : Nat) (v : Word) : State :=
  if v = 1 then s.modCan c fun x => { x with recover := x.busOff } else s

/-- CANx.CTRL is written: the channel starts error active, or is disabled (R336). -/
def State.canCtrlWrite (s : State) (c : Nat) (v : Word) : State :=
  let was := s.canEn c
  let s := s.wr (Reg.canCtrl c) v
  if bit v 0 != was then s.modCan c fun _ => Can.reset else s

/-! ## MVB (R321, R322) -/

/-- The interface is enabled and runs. -/
def State.mvbOn (s : State) : Bool := s.bridgeRuns && bit (s.rd Reg.mvbCtrl) 0

/-- Line `l` is used, and is reported good. -/
def State.mvbLineEn (s : State) (l : Nat) : Bool := bit (s.rd Reg.mvbCtrl) (1 + l)
def State.mvbLineOk (s : State) (l : Nat) : Bool := bit (s.rd Reg.mvbStat) l
def State.setLine (s : State) (l : Nat) (ok : Bool) : State := s.wr Reg.mvbStat (setBit (s.rd Reg.mvbStat) l ok)

/-- MVB_MASTER_FRAME: an answer for an enabled source port or the device status request; a telegram begins for an enabled
sink port. -/
def execMvbMasterFrame (fcode : BitVec 4) (addr : BitVec 12) (s : State) : Answer :=
  if !s.mvbOn then .next s else
  if fcode = 15 then
    if addr.toNat = fld (s.rd Reg.mvbDevaddr) 0 12 then
      .next (s.emit (.mvb addr.toNat (natBytesBE (Config.mvbStatus &&& 0x8fff).toNat 2)))
    else .next s
  else
    match s.mvbEntry addr.toNat true with
    | some e =>
      if fld (s.tbl 3 e 0) 12 3 = fcode.toNat then .next (s.emit (.mvb addr.toNat (s.mvbData e))) else .next s
    | none => match s.mvbEntry addr.toNat false with
      | none => .next s
      | some e =>
        if fld (s.tbl 3 e 0) 12 3 ≠ fcode.toNat then .next s else
        .next { s with mvb := { s.mvb with
          tel := some (addr.toNat, none), run := s.mvb.run.map fun n => satNat 0xffff (n + 1) } }

/-- A sink port is updated and delivered to the bridge (R322, R325). -/
def State.mvbUpdate (s : State) (e : Nat) (addr : Nat) (bs : List Byte) : State :=
  let s := { s with mvb := { s.mvb with
    bytes := putBytes s.mvb.bytes (32 * e) bs, at' := Store.put (fun _ => 0) s.mvb.at' e (s.now + 1) } }
  ((s.setTbl 3 e 2 0).bridgeMsg 4 addr bs)

/-- MVB_SLAVE_FRAME: the first correct frame of a telegram is accepted, the other line's only supervises. -/
def execMvbSlaveFrame (line : Plane) (addr : BitVec 12) (data : List Byte) (s : State) : Answer :=
  let l := planeIdx line
  if !(s.mvbOn && s.mvbLineEn l) then .next s else
  match s.mvbEntry addr.toNat false with
  | none => .next s
  | some e =>
    if data.length ≠ s.mvbSize e then .next (s.count (Reg.mvbErr l)) else
    let s := (s.count (Reg.mvbFrm l)).setLine l true
    let s := { s with mvb := { s.mvb with run := Vec.updAt s.mvb.run l fun _ => 0 } }
    let take (s : State) : State :=
      { s with mvb := { s.mvb with tel := some (addr.toNat, some (line, data)) } }.mvbUpdate e addr.toNat data
    match s.mvb.tel with
    | some (a, some (l0, d0)) =>
      if a = addr.toNat ∧ l0 ≠ line then
        .next (if d0 = data then s else { s with mvb := { s.mvb with dis := setBit s.mvb.dis l true } })
      else .next (take s)
    | some (_, none) => .next (take s)
    | none => .next (take s)

/-- MVB_LINE_BAD: sixteen telegrams without a correct frame, or a disagreement. -/
def execMvbLineBad (line : Plane) (s : State) : Answer :=
  let l := planeIdx line
  if !(s.mvbOn && s.mvbLineEn l && (bit s.mvb.dis l || decide (16 ≤ Vec.at s.mvb.run l 0))) then .next s else
  let s := { s with mvb := { s.mvb with dis := setBit s.mvb.dis l false, run := Vec.updAt s.mvb.run l fun _ => 0 } }
  .next (((s.setLine l false).evt 0x2c (wd (2 ^ l))).raise (0x2c01 + l) [wd l])

/-- MVB_SINK_STALE (R322). -/
def execMvbSinkStale (e : Fin 256) (s : State) : Answer :=
  let w := s.tbl 3 e 0
  let fto := fld (s.tbl 3 e 1) 0 16
  let at' := Store.get (fun _ => 0) s.mvb.at' e
  if s.mvbOn && bit w 31 && !bit w 16 && fto != 0 && !bit (s.tbl 3 e 2) 16 && decide (at' - 1 + 1000000 * fto ≤ s.now) then
    .next (((s.setTbl 3 e 2 (setBit (s.tbl 3 e 2) 16 true)).evt 0x2c 4).raise 0x2c03 [wd e])
  else .next s

/-! ## The bridge (R327, R331, R332) -/

/-- MINIV_RELEASE. -/
def execMinivRelease (e : Fin 4096) (s : State) : Answer :=
  let x := s.ent e
  match x.held with
  | none => .next s
  | some bs =>
    if s.routing && decide (x.fwdAt - 1 + 1000 * (s.route e).miniv ≤ s.now) then .next (s.forwardNow e bs) else .next s

/-- NETx.STAT.UP: an external link of the plane (spec/11_train_network.md R313). -/
def State.netUp (s : State) (x : Nat) : Bool := fld (s.rd (Reg.netStat x)) 0 2 != 0

/-- LINE of a status byte (R331). -/
def State.lineOf (s : State) (port : Nat) : Nat :=
  if port < 4 then s.canErrst port
  else if port = 4 then
    if !s.mvbOn then 3 else if s.mvbLineOk 0 && s.mvbLineOk 1 then 0 else if s.mvbLineOk 0 || s.mvbLineOk 1 then 1 else 2
  else if port = 5 then (if s.netUp 0 && s.netUp 1 then 0 else if s.netUp 0 || s.netUp 1 then 1 else 2)
  else if s.mstate = .run then 0 else 3

/-- STALE of entry `e` (R331). -/
def State.entStale (s : State) (e : Nat) : Bool :=
  let r := s.route e
  (r.tout != 0 && decide ((s.ent e).msgAt - 1 + 1000000 * r.tout ≤ s.now)) ||
    (r.sport == 5 && bit (s.tbl 1 r.sid 6) 0) ||
    (r.sport == 4 && match s.mvbEntry r.sid false with
      | none => false
      | some p => bit (s.tbl 3 p 2) 16)

/-- One entry at the poll. -/
def State.pollEntry (s : State) (e : Nat) : State :=
  let stale := s.entStale e
  let st : Byte := BitVec.ofNat 8 (s.lineOf (s.route e).sport + 4 * b2n stale)
  let old := s.ent e
  let w := s.tbl 4 e 8
  let s := if stale && !bit w 0 then
      ((s.evt 0x2d 2).raise 0x2d02 [wd e]).wr Reg.brgLaststale (wd (e + 0x80000000))
    else s
  let s := s.setTbl 4 e 8 (setFld (setBit w 0 stale) 8 8 st.toNat)
  let s := s.modEnt e fun x => { x with stat := st }
  if (s.route e).priv && st != old.stat then s.sideBand e st else s

/-- BRIDGE_POLL: once for each whole millisecond. -/
def execBridgePoll (s : State) : Answer :=
  let ms := s.now / 1000000
  if !(s.bridgeRuns && decide (s.brg.pollMs < ms)) then .next s else
  let s := { s with brg := { s.brg with pollMs := ms } }
  let s := (List.range 4).foldl (fun s c =>
    let x := s.canCh c
    s.wr (Reg.canStat c) (setFld (setFld (s.rd (Reg.canStat c)) 8 8 (satNat 255 x.tec)) 16 8 (satNat 255 x.rec'))) s
  let s := ((s.enabled 3 0).filter fun e => !bit (s.tbl 3 e 0) 16).foldl (fun s e =>
    let at' := Store.get (fun _ => 0) s.mvb.at' e
    s.setTbl 3 e 2 (setFld (s.tbl 3 e 2) 0 16 (satNat 0xffff ((s.now + 1 - at') / 1000000)))) s
  let s := if bit (s.rd Reg.brgCtrl) 0 then s.routes.foldl (fun s e => s.pollEntry e) s else s
  .next ((s.maps.filter fun m => !m.out && m.kind == 0x44).foldl (fun s m => s.areaItem m (m.item == 1)) s)

end Sys2Proof.Machine
end

