-- ==== Sys2Proof/Machine/Float.lean ====
section
/-!
DEFINITION. REAL arithmetic: IEEE 754 binary32 on exact integers, rounded to nearest, ties to even, subnormals kept, every
computed NaN the quiet NaN 0x7fc0_0000 (spec/03_program_image.md R58, spec/04_block_library.md R99, R100, R104, R506).
-/
namespace Sys2Proof.Machine

/-- The quiet NaN of R58. -/
def fNaN : Word := 0x7fc00000

def fSign (w : Word) : Bool := bit w 31
def fExp (w : Word) : Nat := fld w 23 8
def fMan (w : Word) : Nat := fld w 0 23
def fIsNaN (w : Word) : Bool := fExp w == 255 && fMan w != 0
def fIsInf (w : Word) : Bool := fExp w == 255 && fMan w == 0
def fIsZero (w : Word) : Bool := fExp w == 0 && fMan w == 0

/-- Infinity and zero of a sign. -/
def fInf (neg : Bool) : Word := if neg then 0xff800000 else 0x7f800000
def fZero (neg : Bool) : Word := if neg then 0x80000000 else 0

/-- A finite number is `m` times 2 to the power `e`. -/
def fM (w : Word) : Nat := if fExp w = 0 then fMan w else fMan w + 2 ^ 23
def fE (w : Word) : Int := if fExp w = 0 then -149 else (fExp w : Int) - 150

/-- A finite number as a signed multiple of 2^-149. -/
def fScaled (w : Word) : Int :=
  let v : Int := fM w * 2 ^ (fE w + 149).toNat
  if fSign w then -v else v

/-- `n` shifted right by `k`, rounded to nearest, ties to even. -/
def shiftRne (n k : Nat) : Nat :=
  let q := n >>> k
  let r := n % 2 ^ k
  let h := 2 ^ k / 2
  if k = 0 then n else if h < r ∨ (r = h ∧ q % 2 = 1) then q + 1 else q

/-- The number `n` times 2^`e`, rounded to binary32 (R58). -/
def fRound (neg : Bool) (n : Nat) (e : Int) : Word :=
  if n = 0 then fZero neg else
  let len := Nat.log2 n + 1
  let sh : Int := max ((len : Int) - 24) (-149 - e)
  let m := if 0 < sh then shiftRne n sh.toNat else n <<< (-sh).toNat
  let e1 := e + sh
  let (m, e1) := if m = 2 ^ 24 then (2 ^ 23, e1 + 1) else (m, e1)
  let body :=
    if m < 2 ^ 23 then m
    else if 105 ≤ e1 then 255 * 2 ^ 23
    else (e1 + 150).toNat * 2 ^ 23 + (m - 2 ^ 23)
  wd (body + b2n neg * 2 ^ 31)

/-- A signed multiple of 2^`e`, rounded; an exact zero is +0. -/
def fOfScaled (v : Int) (e : Int) : Word := fRound (decide (v < 0)) v.natAbs e

/-- The negation of a number (a NaN keeps its bits but the sign). -/
def fNeg (w : Word) : Word := w ^^^ 0x80000000

/-- Addition. -/
def fAdd (a b : Word) : Word :=
  if fIsNaN a || fIsNaN b then fNaN
  else if fIsInf a then (if fIsInf b && fSign a != fSign b then fNaN else a)
  else if fIsInf b then b
  else if fIsZero a && fIsZero b then fZero (fSign a && fSign b)
  else
    let e := min (fE a) (fE b)
    let va : Int := fM a * 2 ^ (fE a - e).toNat
    let vb : Int := fM b * 2 ^ (fE b - e).toNat
    fOfScaled ((if fSign a then -va else va) + (if fSign b then -vb else vb)) e

/-- Subtraction. -/
def fSub (a b : Word) : Word := if fIsNaN b then fNaN else fAdd a (fNeg b)

/-- Multiplication. -/
def fMul (a b : Word) : Word :=
  let n := fSign a != fSign b
  if fIsNaN a || fIsNaN b then fNaN
  else if fIsInf a || fIsInf b then (if fIsZero a || fIsZero b then fNaN else fInf n)
  else fRound n (fM a * fM b) (fE a + fE b)

/-- Division. -/
def fDiv (a b : Word) : Word :=
  let n := fSign a != fSign b
  if fIsNaN a || fIsNaN b then fNaN
  else if fIsInf a then (if fIsInf b then fNaN else fInf n)
  else if fIsInf b then fZero n
  else if fIsZero b then (if fIsZero a then fNaN else fInf n)
  else
    let x := fM a * 2 ^ 50
    let q := x / fM b
    fRound n (2 * q + b2n (x % fM b != 0)) (fE a - fE b - 51)

/-- The integer square root, by `k` bits from the top. -/
def isqrtBits (n : Nat) : Nat → Nat → Nat
  | 0, r => r
  | k + 1, r =>
    let t := r + 2 ^ k
    isqrtBits n k (if t * t ≤ n then t else r)

/-- Square root. -/
def fSqrt (a : Word) : Word :=
  if fIsNaN a then fNaN
  else if fIsZero a then a
  else if fSign a then fNaN
  else if fIsInf a then a
  else
    let k : Nat := if (fE a) % 2 = 0 then 52 else 53
    let n := fM a * 2 ^ k
    let r := isqrtBits n 40 0
    fRound false (2 * r + b2n (r * r != n)) ((fE a - k) / 2 - 1)

/-- The order key of a number that is no NaN; the two zeros have one key (R100). -/
def fKey (w : Word) : Int :=
  let v : Int := fld w 0 31
  if fSign w then -v else v

def fLt (a b : Word) : Bool := !fIsNaN a && !fIsNaN b && decide (fKey a < fKey b)
def fLe (a b : Word) : Bool := !fIsNaN a && !fIsNaN b && decide (fKey a ≤ fKey b)
def fEq (a b : Word) : Bool := !fIsNaN a && !fIsNaN b && decide (fKey a = fKey b)

/-- An integer as a REAL (R104). -/
def fOfInt (v : Int) : Word := fOfScaled v 0

/-- A REAL as an integer, rounded to nearest, ties to even; infinities give a bound beyond every type, NaN gives 0. -/
def fToIntRne (w : Word) : Int :=
  if fIsNaN w then 0
  else
    let m : Nat := if fIsInf w then 2 ^ 64 else
      if 0 ≤ fE w then fM w * 2 ^ (fE w).toNat else shiftRne (fM w) (-fE w).toNat
    if fSign w then -(m : Int) else m

/-- A REAL as an integer, rounded towards zero; infinities and NaN as above. -/
def fToIntTrunc (w : Word) : Int :=
  if fIsNaN w then 0
  else
    let m : Nat := if fIsInf w then 2 ^ 64 else
      if 0 ≤ fE w then fM w * 2 ^ (fE w).toNat else fM w >>> (-fE w).toNat
    if fSign w then -(m : Int) else m

/-- limit(x, lo, hi) of R506, one operation on its rounded arguments, as the block LIMIT (R100, R104). -/
def fLimit (x lo hi : Word) : Word :=
  if fIsNaN x || fIsNaN lo || fIsNaN hi then fNaN
  else if fLt hi lo then lo else if fLt x lo then lo else if fLt hi x then hi else x

end Sys2Proof.Machine
end

