-- ==== Sys2Proof/Machine/FieldOps.lean ====
section
/-!
DEFINITION. The operations of the field groups that several meanings share: the fields of the frames, FIOg.STAT, the
process-image items, the enable latch, the lane words and the field side's vote (spec/07_field_io.md R190, R199 to R219,
R224, spec/08_reflex_and_reaction.md R225, R231, spec/06_triplex_execution.md R166).
-/
namespace Sys2Proof.Machine

def State.fioG (s : State) (g : Nat) : Fio := Vec.at s.fio g Fio.reset
def State.modFio (s : State) (g : Nat) (f : Fio → Fio) : State := { s with fio := Vec.updAt s.fio g f }
def State.fsideG (s : State) (g : Nat) : FieldSide := Vec.at s.fside g (FieldSide.start 0 0 0)
def State.modFside (s : State) (g : Nat) (f : FieldSide → FieldSide) : State :=
  { s with fside := Vec.updAt s.fside g f }

/-- The field links run: powered, out of reset, the clocks phase of BOOT over (spec/17_start_up_and_update.md R431). -/
def State.linksOn (s : State) : Bool := s.alive && s.bootPh != .clocks

/-! ## The last good upstream frame (R208) -/

def Fio.inp (f : Fio) : Byte := BitVec.ofNat 8 (fld f.frame 80 8)
def Fio.rbk (f : Fio) : BitVec 4 := BitVec.ofNat 4 (fld f.frame 76 4)
def Fio.gate (f : Fio) : BitVec 4 := BitVec.ofNat 4 (fld f.frame 72 4)
def Fio.gf (f : Fio) : Bool := bit f.frame 69
def Fio.rst (f : Fio) : Bool := bit f.frame 68
def Fio.sup (f : Fio) : Nat := fld f.frame 66 2
def Fio.latch (f : Fio) : Bool := bit f.frame 65
def Fio.cls (f : Fio) : Bool := bit f.frame 64
def Fio.vw (f : Fio) (lane : Nat) : Bool := bit f.frame (63 - lane)
def Fio.rdy (f : Fio) : Bool := bit f.frame 56

/-- Detail slot `n` as last received (R210). -/
def Fio.slot (f : Fio) (n : Nat) : Half := Vec.at f.detail n 0

/-! ## The lanes' copies (R193, R195, R215) -/

/-- Lane `l`'s copy. -/
def Fio.copy (f : Fio) (l : Nat) : FioCopy := Vec.at f.cp l FioCopy.reset

/-- Lane `l` counts in votes. -/
def Lanes.counts (l : Lanes) (i : Nat) : Bool := !bit l.held i

/-- The first lane that counts. -/
def Lanes.lead (l : Lanes) : Nat := if l.counts 0 then 0 else if l.counts 1 then 1 else 2

/-- The bit that the lanes which count agree on: two of three, or that of the first one (R167). -/
def Lanes.maj (l : Lanes) (f : Nat → Bool) : Bool :=
  if l.counts 0 && l.counts 1 && l.counts 2 then maj3 (f 0) (f 1) (f 2) else f l.lead

/-- What a copy contributes to the group's words: filtered inputs, good bits, enable latch. -/
def FioCopy.word (c : FioCopy) : Dword :=
  BitVec.ofNat 64 (c.filt.toNat + 0x100 * c.good.toNat + 0x10000 * b2n c.en)

/-- The copy whose contribution takes effect: one that agrees with another, or that of the first lane that counts. -/
def State.fioCopy (s : State) (g : Nat) : FioCopy :=
  let f := Vec.at s.fio g Fio.reset
  if s.lanes.counts 0 && s.lanes.counts 1 && s.lanes.counts 2 then
    if (f.copy 0).word = (f.copy 1).word || (f.copy 0).word = (f.copy 2).word then f.copy 0 else f.copy 1
  else f.copy s.lanes.lead

/-- The good bit of each input in a copy: its test-source check and its comparator (R195). -/
def Fio.goodBits (f : Fio) (c : FioCopy) : Byte := c.good &&& ~~~ (BitVec.ofNat 8 (f.slot 4).toNat)

def State.modCopies (s : State) (g : Nat) (h : FioCopy → FioCopy) : State := s.modFio g fun f => { f with cp := f.cp.map h }

/-- GEN as voted by the field side in the last downstream frame it acted on: the GEN bits of the frame that DSEQ names, of
the lane words that VW shows valid (R166, R208, R219; log entry 10). -/
def Fio.genVoted (f : Fio) : Bool :=
  let g := Vec.at f.genHist (fld f.frame 57 4) 0
  let v := (List.range 3).filter fun l => f.vw l
  decide (2 ≤ v.length) && decide (2 ≤ v.countP fun l => bit g l)

/-! ## FIOg.CTRL and STAT (R223, R224) -/

def State.fioCls (s : State) (g : Nat) : Bool := bit (s.rd (Reg.fioCtrl g)) 0
def State.fioOuten (s : State) (g k : Nat) : Bool := bit (s.rd (Reg.fioCtrl g)) (4 + k)

/-- Outputs `2p` and `2p + 1` are paired (R200). -/
def State.fioPair (s : State) (g p : Nat) : Bool := bit (s.rd (Reg.fioCtrl g)) (1 + p)

/-- The reported class equals CTRL.CLASS. -/
def State.clsOk (s : State) (g : Nat) : Bool := (s.fioG g).cls == s.fioCls g

/-- READY (R216). -/
def State.fioReady (s : State) (g : Nat) : Bool :=
  let f := s.fioG g
  f.accepted && !f.rst && !f.latch && f.rdy && s.clsOk g

/-- FIOg.STAT [8:0]. Before the links are brought up, every bit is 0; log entry 9. -/
def State.fioStat (s : State) (g : Nat) : Word :=
  let f := s.fioG g
  wd (b2n f.accepted + 2 * b2n f.rst + 4 * f.sup + 16 * b2n f.latch + 32 * b2n f.rdy +
    64 * b2n (if f.accepted then f.gf else s.linksOn) + 128 * b2n (f.accepted && s.clsOk g) + 256 * b2n (s.fioReady g))

/-! ## Process-image items (R219) -/

/-- The word an input item holds, and whether it is good. -/
def State.fioItem (s : State) (g : Nat) (m : MapE) : Word × Bool :=
  let f := s.fioG g
  let inBad := !f.accepted || decide (2 ≤ f.sup) || decide (32 ≤ f.clsRun)
  let c := s.fioCopy g
  let live := 1024 * b2n (s.fioReady g) + 2048 * b2n (!c.en)
  match m.kind, m.item with
  | 1, 0 => (c.filt.zeroExtend 32, !inBad)
  | 1, 1 => (f.inp.zeroExtend 32, !inBad)
  | 1, _ => ((f.goodBits c).zeroExtend 32, f.accepted)
  | 2, _ =>
    if f.accepted then
      (wd (f.rbk.toNat + 16 * f.gate.toNat + 256 * b2n f.genVoted + 512 * b2n f.latch + live), true)
    else (setFld m.subst 10 2 (live / 1024), false)
  | _, 0 => (s.fioStat g, true)
  | _, 5 => (wd (fld (f.slot 5) 0 10 + 0x10000 * fld (f.slot 6) 0 8), f.accepted)
  | _, k => ((f.slot (k - 1)).zeroExtend 32, f.accepted)

/-- One item is written; `fresh` says that a good frame gives it. -/
def State.fioPut (s : State) (g : Nat) (fresh : Bool) (m : MapE) : State :=
  let (v, ok) := s.fioItem g m
  if ok then (if fresh || (m.kind == 3 && m.item == 0) then s.ipiGood m.piw v else s.ipiPut m.piw v stGood)
  else if m.kind == 2 then s.ipiPut m.piw v stBad else s.ipiBad m

/-- Every input word of the group is written, as one voted write (R193). -/
def State.fioWrite (s : State) (g : Nat) (fresh : Bool) : State :=
  (s.maps.filter fun m => !m.out && (m.kind == 1 || m.kind == 2 || m.kind == 3) && m.inst == g).foldl
    (fun s m => s.fioPut g fresh m) s

/-- The live words of the logic side follow READY and the enable latch (R219). -/
def State.fioLive (s : State) (g : Nat) : State :=
  (s.maps.filter fun m => !m.out && (m.kind == 2 || (m.kind == 3 && m.item == 0)) && m.inst == g).foldl
    (fun s m => s.fioPut g false m) s

/-- The group's enable latch clears in every lane (R215); `flt` where fault 0x1005, 0x1009 or 0x100d clears it. -/
def State.clearEn (s : State) (g : Nat) (flt : Bool) : State :=
  ((s.modCopies g fun c => { c with en := false }).modFio g fun f => { f with latchFlt := f.latchFlt || flt }).fioLive g

/-- A fault or event of group `g` (R221). -/
def State.fioRaise (s : State) (g code : Nat) (n : Nat) : State := s.raise (code + 0x100 * g) [wd n]

/-- Bits of FIOg.EVT_RAW. -/
def State.fioEvt (s : State) (g n : Nat) : State := s.evt (0x10 + g) (wd (2 ^ n))

/-! ## The reflex matrix as the groups and the rules see it (R225, R231, R232) -/

/-- Rule `r` of lane `l`'s copy. -/
def State.rule (s : State) (l r : Nat) : Rule := Vec.at (Vec.at s.rfx.rules l (Vector.replicate 64 Rule.reset)) r Rule.reset

/-- Outputs that lane `l`'s copy holds off by a latch or HOLDOFF. -/
def State.deoff (s : State) (l : Nat) : Half :=
  (List.range 64).foldl (fun d r =>
    let x := s.rule l r
    let act : Half := BitVec.ofNat 16 (fld (s.rd (Reg.rfxRact r)) 0 16)
    d ||| x.hold ||| (if x.latch then act else 0)) 0

/-- The de-energise vector of lane `l`'s copy in this clock, with the bits that are wrong in it. -/
def State.deVec (s : State) (l : Nat) : Half := s.deoff l ^^^ Vec.at s.lanes.vecDev l 0

/-- The reflex matrix and the monitors are active (R226, R482). -/
def State.reflexOn (s : State) : Bool :=
  s.alive && (s.mstate == .stop || s.mstate == .run || s.mstate == .hold)

/-- The committed ON bits of a lane's LCR as one vector, bit 4g + k. -/
def State.committedOn (s : State) (lane : Nat) : Half := (Vec.at s.lanes.lcr lane 0).truncate 16

/-- An input is valid as lane `l` sees it (R231). -/
def State.inValid (s : State) (l g k : Nat) : Bool :=
  let f := s.fioG g
  f.accepted && decide (f.sup < 2) && s.clsOk g && bit (f.goodBits (f.copy l)) k

/-! ## Downstream frames (R200, R201, R205 to R207) -/

/-- The upper output of a pair takes the lower one's bit. -/
def State.paired (s : State) (g : Nat) (on : Nat) : Nat :=
  let on := if s.fioPair g 0 then on / 4 * 4 + 3 * (on % 2) else on
  if s.fioPair g 1 then on % 4 + 12 * (on / 4 % 2) else on

/-- The ON bits a lane would send for group `g`, before test pulses clear any. -/
def State.onBefore (s : State) (g lane : Nat) : Nat :=
  let off := if s.reflexOn then s.deVec lane else 0
  s.paired g (fld (s.committedOn lane &&& ~~~ off) (4 * g) 4)

/-- The GEN bit a lane sends (R215). -/
def State.genSent (s : State) (g lane : Nat) : Bool := bit (Vec.at s.lanes.lcr lane 0) (16 + g) && ((s.fioG g).copy lane).en

/-- Outputs whose test pulse runs. -/
def Fio.pulsing (f : Fio) : Nat :=
  (List.range 4).foldl (fun m k => if (Vec.at f.tp k TestPulse.reset).active.isSome then m + 2 ^ k else m) 0

/-- Output `k` is commanded on, for test pulses, by the lanes that count (R201). -/
def State.outOn (s : State) (g k : Nat) : Bool :=
  s.lanes.maj fun l => (s.onBefore g l).testBit k && s.genSent g l

/-- The test sources a lane commands on (R194). -/
def State.srcSent (s : State) (g : Nat) : Nat :=
  let c := s.rd (Reg.fioTscfg g)
  let one (j : Nat) : Bool := bit c (30 + j) && ((Vec.at (s.fioG g).ts j ⟨0, none, 0⟩).active.isNone)
  b2n (one 0) + 2 * b2n (one 1)

/-- The 16 data bits of a lane word (R206). In SAFE every bit is 0 (R481). -/
def State.laneData (s : State) (g lane : Nat) : Nat :=
  if s.safeLatch then 0 else
  let on := s.onBefore g lane &&& (15 ^^^ (s.fioG g).pulsing)
  on + 16 * b2n (s.genSent g lane) + 32 * b2n (!bit s.lanes.held lane) + 64 * s.srcSent g

/-- The check of a lane word: the CRC-8 over lane number, SEQ and data bits. -/
def laneCheck (lane seq data : Nat) : Nat := (crc8 (bitsMsb lane 2 ++ bitsMsb seq 4 ++ bitsMsb data 16)).toNat

/-- A lane word: data bits and check. -/
def State.laneWord (s : State) (g lane seq : Nat) : Nat :=
  let d := s.laneData g lane
  d * 256 + laneCheck lane seq d

/-- CFG of a configuration slot (R207). -/
def State.cfgSlot (s : State) (g seq : Nat) : Nat :=
  let c := s.rd (Reg.fioCtrl g)
  if seq = 0 then fld c 0 1 else if seq = 1 then fld c 1 2 + 4 * fld c 4 4 else 0

/-- HCHK: the CRC-8 over SEQ and CFG. -/
def hdrCheck (seq cfg : Nat) : Nat := (crc8 (bitsMsb seq 4 ++ bitsMsb cfg 8)).toNat

/-- The downstream frame of group `g` (R205). -/
def State.downFrame (s : State) (g : Nat) : BitVec 96 :=
  let seq := (s.fioG g).downSeq.toNat
  let cfg := s.cfgSlot g seq
  BitVec.ofNat 96 (0b1011 * 2 ^ 92 + seq * 2 ^ 88 + cfg * 2 ^ 80 + hdrCheck seq cfg * 2 ^ 72 +
    s.laneWord g 0 seq * 2 ^ 48 + s.laneWord g 1 seq * 2 ^ 24 + s.laneWord g 2 seq)

/-! ## The field side (R166, R190, R197, R207, R212, R216) -/

/-- SYNC and HCHK of a downstream frame pass. -/
def downGood (f : BitVec 96) : Bool := fld f 92 4 == 0b1011 && fld f 72 8 == hdrCheck (fld f 88 4) (fld f 80 8)

/-- Lane word `lane` of a downstream frame, and whether it is valid: its check passes and LV is set. -/
def downWord (f : BitVec 96) (lane : Nat) : Nat := fld f (48 - 24 * lane) 24
def downValid (f : BitVec 96) (lane : Nat) : Bool :=
  let w := downWord f lane
  w % 256 == laneCheck lane (fld f 88 4) (w / 256) && (w / 256).testBit 5

/-- The vote of R166 on data bit `i`. -/
def downVote (f : BitVec 96) (i : Nat) : Bool :=
  let v := (List.range 3).filter fun l => downValid f l
  let ons := v.countP fun l => (downWord f l / 256).testBit i
  decide (2 ≤ v.length) && decide (2 ≤ ons)

/-- Everything is switched off and latched (R212, R214). -/
def FieldSide.drop (x : FieldSide) : FieldSide := { x with on := 0, gen := false, gsw := false, latch := true }

/-- One frame slot passes since the configuration slots were seen. -/
def FieldSide.age (x : FieldSide) : FieldSide :=
  let up (e : Option (Byte × Nat)) : Option (Byte × Nat) := e.map fun e => (e.1, satNat 17 (e.2 + 1))
  { x with seen0 := up x.seen0, seen1 := up x.seen1 }

/-- One downstream frame is missing; the second in a row switches everything off (R212). -/
def FieldSide.miss (x : FieldSide) : FieldSide :=
  if !x.locked then { x with lockRun := 0 } else
  let x := { x with bad := satNat 255 (x.bad + 1), missing := satNat 2 (x.missing + 1), genZero := 0 }.age
  if x.missing < 2 then x else { x.drop with src := 0, locked := false, lockRun := 0, seen0 := none, seen1 := none }

/-- The group switch after the vote; `was` is the GEN voted before. It closes only after the check of the output rail, which is
made once for each time GEN comes (R197). -/
def FieldSide.switch (x : FieldSide) (was gen railLow : Bool) : FieldSide :=
  if !gen || x.latch then { x with gsw := false }
  else if x.gsw || (was && x.gswFlt) then x
  else { x with gsw := railLow, gswFlt := !railLow }

/-- A slot value received in two consecutive rounds of 16 frames is adopted, CLASS only with the group switch open (R190,
R207). -/
def FieldSide.adopt (x : FieldSide) (seq : Nat) (v : Byte) : FieldSide :=
  if seq = 0 then { x with cfg0 := if x.seen0 = some (v, 16) ∧ x.gsw = false then v else x.cfg0, seen0 := some (v, 0) }
  else if seq = 1 then { x with cfg1 := if x.seen1 = some (v, 16) then v else x.cfg1, seen1 := some (v, 0) }
  else x

/-- A downstream frame with good HCHK reaches a locked field side (R166, R207). -/
def FieldSide.act (x : FieldSide) (f : BitVec 96) (railLow : Bool) : FieldSide :=
  let on : BitVec 4 := BitVec.ofNat 4 ((List.range 4).foldl (fun a k => a + 2 ^ k * b2n (downVote f k)) 0)
  let gen := downVote f 4
  let src : BitVec 2 := BitVec.ofNat 2 (b2n (downVote f 6) + 2 * b2n (downVote f 7))
  let vw : BitVec 3 := BitVec.ofNat 3 (4 * b2n (downValid f 0) + 2 * b2n (downValid f 1) + b2n (downValid f 2))
  let trip := x.tripped &&& on
  let was := x.gen
  let x := { x with on := on, gen := gen, src := src, tripped := trip, ovc := x.ovc &&& trip, ovt := x.ovt &&& trip, vw := vw,
                    dseq := BitVec.ofNat 4 (fld f 88 4), missing := 0,
                    genZero := if gen then 0 else satNat 16 (x.genZero + 1) }
  (x.switch was gen railLow).age.adopt (fld f 88 4) (BitVec.ofNat 8 (fld f 80 8))

/-- A frame on the wire reaches the field side. -/
def FieldSide.receive (x : FieldSide) (f : BitVec 96) (railLow : Bool) : FieldSide :=
  if !downGood f then x.miss
  else if x.locked then x.act f railLow
  else { x with lockRun := satNat 8 (x.lockRun + 1) }

/-- Output `k` is gated on: voted on, in use, not tripped, the switch closed (R197, R207). -/
def FieldSide.gate (x : FieldSide) (k : Nat) : Bool := bit x.on k && bit x.cfg1 (2 + k) && !bit x.tripped k && x.gsw

/-- The gate bits. -/
def FieldSide.gates (x : FieldSide) : Nat := (List.range 4).foldl (fun a k => a + 2 ^ k * b2n (x.gate k)) 0

/-- Input `k` and the readback of output `k` as the field side reads them in its class (R190, R191, R196). -/
def FieldSide.reads (x : FieldSide) (v : List Int) (mid : Bool) (k : Nat) : Bool :=
  (vClass (bit x.cfg0 0)).reads (v.getD k 0) mid
def FieldSide.inp (x : FieldSide) (p : FieldPins) : Nat :=
  (List.range 8).foldl (fun a k => a + 2 ^ k * b2n (x.reads p.inV (bit p.mid k) k)) 0
def FieldSide.rbk (x : FieldSide) (p : FieldPins) (k : Nat) : Bool := x.reads p.outV (bit p.mid (8 + k)) k

/-- The design version of a field side, 0x0001 to 0xffff (R210). -/
def fsVer (g : Nat) : Nat := (Config.fsVersion g).toNat % 0xffff + 1

/-- A detail slot as the field side fills it (R210). -/
def FieldSide.slot (x : FieldSide) (g n : Nat) (p : FieldPins) : Nat :=
  if n < 4 then
    b2n (bit x.ovc n) + 2 * b2n (bit p.open' n) + 4 * b2n (bit x.ovt n) + 8 * b2n (x.rbk p n && !x.gate n) +
      16 * b2n (bit p.clamp n) + 256 * satNat 255 p.meter.toNat
  else if n = 4 then x.cmp.toNat
  else if n = 5 then satNat 1023 (x.lplus / 250)
  else if n = 6 then p.meter.toNat % 256
  else if n = 7 then x.cfg0.toNat + 256 * x.cfg1.toNat
  else if n = 8 then b2n x.gsw + 2 * b2n x.gswFlt
  else if n = 9 then x.bad + 256 * x.restarts
  else if n = 10 then fsVer g
  else 0

/-- GF (R210): SUP, LATCH, RST or a fault bit of the detail slots. -/
def FieldSide.gf (x : FieldSide) (p : FieldPins) : Bool :=
  x.sup != 0 || x.latch || x.rst || x.ovc != 0 || x.ovt != 0 || x.cmp != 0 || x.gswFlt ||
    (List.range 4).any fun k => x.rbk p k && !x.gate k

/-- The upstream frame of the field side (R208, R209). -/
def FieldSide.frame (x : FieldSide) (g : Nat) (p : FieldPins) : BitVec 96 :=
  let seq := x.upSeq.toNat
  let top := seq * 2 ^ 72 + x.inp p * 2 ^ 64 + (List.range 4).foldl (fun a k => a + 2 ^ (60 + k) * b2n (x.rbk p k)) 0 + x.gates * 2 ^ 56 + p.tsr.toNat * 2 ^ 54 +
    b2n (x.gf p) * 2 ^ 53 + b2n x.rst * 2 ^ 52 + x.sup.toNat * 2 ^ 50 + b2n x.latch * 2 ^ 49 +
    fld x.cfg0 0 1 * 2 ^ 48 + x.vw.toNat * 2 ^ 45 + x.dseq.toNat * 2 ^ 41 + b2n x.rdy * 2 ^ 40 +
    x.slot g seq p % 0x10000
  BitVec.ofNat 96 (0b1101 * 2 ^ 92 + top * 2 ^ 16 + (crc16 (bitsMsb top 76)).toNat)

/-- SYNC and CRC of an upstream frame pass (R209). -/
def upGood (f : BitVec 96) : Bool :=
  fld f 92 4 == 0b1101 && fld f 0 16 == (crc16 (bitsMsb (fld f 16 76) 76)).toNat

end Sys2Proof.Machine
end

