-- ==== Sys2Proof/Machine/TwinOps.lean ====
section
/-!
DEFINITION. What other blocks do to the twin block, and what it sends: roles, restart, desynchronisation, UNFIT, heartbeats
and messages to the referee (spec/18_twin_modules.md R457 to R468).
-/
namespace Sys2Proof.Machine

def State.twnEn (s : State) : Bool := bit (s.rd Reg.twnCtrl) 0
def State.twnUnit (s : State) : Bool := bit (s.rd Reg.twnCtrl) 1
def State.mlag (s : State) : Nat := 1000 * fld (s.rd Reg.twnMlag) 0 8

/-- The coding of ROLE (R474). -/
def Role.code : Role → Nat
  | .alone => 0 | .wait => 1 | .active => 2 | .joining => 3 | .standby => 4 | .unfit => 5

/-- The TWN block sends a word to HPF0 on MB1, dropped where the queue is full (R473). -/
def State.twnTell (s : State) (code : Nat) : State :=
  match s.endOf 1 6 with
  | none => s
  | some a => if s.chanEn 1 ∧ chanRoom 1 ((s.chan 1).txq a) 1 then s.mbPush 1 a [wd code] else s

/-- ROLE changes. -/
def State.setTwnRole (s : State) (r : Role) : State :=
  if s.twn.role = r then s else (s.modTwn fun x => { x with role := r }).twnTell r.code

/-- The TWN block restarts (R459): mirror, join and referee state start afresh. -/
def State.twnRestart (s : State) : State :=
  let s := match s.endOf 1 6 with
    | none => s
    | some a => s.endReset 1 a
  ((s.semsOf 6).modTwn fun x =>
    { Twn.reset with role := x.role, hbSeq := x.hbSeq, hbSent := x.hbSent, owlSeq := x.owlSeq, tellSafe := x.tellSafe, pairs := x.pairs }).raise
    0x390c []

/-- The role becomes WAIT (R458): the block restarts, and the unit is fit. -/
def State.twnWait (s : State) : State :=
  let s := (s.modTwn fun x => { x with role := .wait }).twnRestart
  (s.modTwn fun x => { x with fit := true, askAt := s.now }).twnTell (Role.wait).code

/-- A join starts (R465). -/
def State.twnJoin (s : State) : State :=
  (s.setTwnRole .joining).modTwn fun x =>
    { x with sync := false, reqAt := none, lostAt := none, joinAt := none, pass := 0, sentPim := none, retryAt := none
             mir := [], trgs := [], mbw := [], cmpRx := [], cmpOwn := [] }

/-- SYNC is lost (R463): 0x390a, and a standby starts a new join. -/
def State.twnLose (s : State) : State :=
  let s := (s.modTwn fun x => { x with sync := false, pass := 0, sentPim := none }).raise 0x390a []
  if s.twn.role = .standby then s.twnJoin else s

/-- A force, a release, an on-line change or a HOLD in the ACTIVE unit (R463). -/
def State.desync (s : State) : State := if s.twn.role = .active ∧ s.twn.sync then s.twnLose else s

/-- The standby becomes UNFIT (R464). -/
def State.twnUnfit (s : State) : State :=
  if s.twn.role = .standby then
    (((s.setTwnRole .unfit).modTwn fun x => { x with fit := false, sync := false, reqAt := none }).evt 0x39 8).raise 0x3904 []
  else s

/-- A message to the referee, or from this module as a referee, on both planes (R466). -/
def State.owlSend (s : State) (kind : Nat) (pair : Half) (unit : Bool) (holder valid : Bool) : State :=
  let seq := s.twn.owlSeq + 1
  (s.modTwn fun x => { x with owlSeq := seq }).emit
    (.owl kind ⟨BitVec.ofBool unit, pair, seq, BitVec.ofNat 64 s.now, BitVec.ofBool holder, valid, true⟩)

/-- PAIRID. -/
def State.pairId (s : State) : Half := BitVec.ofNat 16 (fld (s.rd Reg.twnPairid) 0 16)

/-- RENEW (1), REQUEST (3) or RELINQUISH (6) of this unit. -/
def State.owlTell (s : State) (kind : Nat) : State := s.owlSend kind s.pairId s.twnUnit false false

/-- The image identity: CRC-32 of the image header and SIGN (R460). -/
def State.imageId (s : State) : Word :=
  crc32 ((s.pimRds 0 64 ++ s.pimRds (s.secAt 8) 24).flatMap fun w => bytesLE w 4)

/-- Byte 1 of a heartbeat. -/
def State.hbByte (s : State) : Byte :=
  BitVec.ofNat 8 (s.twn.role.code + 8 * b2n s.twn.fit + 16 * b2n s.twn.sync + 32 * b2n s.safeLatch)

/-- A heartbeat leaves (R460). -/
def State.hbSend (s : State) : State :=
  let q := s.twn.hbSeq + 1
  (s.modTwn fun x => { x with hbSeq := q }).emit
    (.twin (twinFrame ([1, s.hbByte] ++ bytesLE q 2 ++ natBytesLE s.now 8 ++ bytesLE s.imageId 4)))

end Sys2Proof.Machine
end

