-- ==== Sys2Proof/Machine/Safe.lean ====
section
/-!
DEFINITION. Changes of the module state and the engine mode: the stop sequence of R141, and entering SAFE
(spec/01_system_architecture.md R22, R24, spec/05_tasks_and_modes.md R141, R142, R144, spec/19_faults_and_diagnostics.md
R480 to R482).
-/
namespace Sys2Proof.Machine

/-- SYS.STAT.MSTATE changes and SYS.EVT_RAW.STATECHG is set (spec/17_start_up_and_update.md R451, R452). -/
def State.setMState (s : State) (m : MState) : State :=
  if s.mstate = m then s else { s.evt 0 2 with mstate := m }

/-- ENG.CTRL.MODE follows the engine mode (R142); telegram instants before the first whole microsecond of it pass unsent
(spec/11_train_network.md R306). -/
def State.setMode (s : State) (m : EngMode) : State :=
  { s.wr Reg.engCtrl (if m = .stop then 0 else 1) with
    eng := { s.eng with mode := m }
    trdp := { s.trdp with telFrom := nextWhole s.now 1000 } }

/-- The semaphores of an owner are released (spec/02_register_pages.md R50). -/
def State.releaseSems (s : State) (mid : Word) : State :=
  (List.range 32).foldl (fun s k => if s.rd (Reg.hifSem k) = mid then s.wr (Reg.hifSem k) 0 else s) s

/-- Every activation and pending trigger is abandoned, and everything staged is discarded. -/
def Task.abandon (t : Task) : Task := { t with act := none, trig := none }

def Eng.abandon (e : Eng) : Eng :=
  { e with tasks := e.tasks.map Task.abandon, running := none, halted := none, passed := none, telOpen := [] }

/-- The outputs of the field groups. -/
def State.fieldMaps (s : State) : List MapE := s.outMaps.filter fun m => m.kind == 4 && decide (m.inst < 4)

/-- Command bits with those of a KIND 0x04 word put in: [3:0] ON and [4] GEN (spec/07_field_io.md R219). -/
def lcrPut (l : BitVec 20) (m : MapE) (w : Word) : BitVec 20 :=
  setBit (setFld l (4 * m.inst) 4 (fld w 0 4)) (16 + m.inst) (bit w 4)

/-- The bits of one word. -/
def lcrMask (m : MapE) : BitVec 20 := lcrPut 0 m 0x1f

/-- The command bits that the OPC words of the field groups give (R166). -/
def State.opcBits (s : State) : BitVec 20 := s.fieldMaps.foldl (fun l m => lcrPut l m (s.pimRd (pimOpc + m.piw))) 0

/-- Command bits as an LCR holds them committed: an isolated twin unit sees every GEN as 0 (spec/18_twin_modules.md R457). -/
def State.genMask (s : State) (l : BitVec 20) : BitVec 20 := if s.isolated then l &&& 0xffff else l

/-- The committed bits that the voted OPC words ask for (R165). -/
def State.lcrOfOpc (s : State) : BitVec 20 := s.genMask s.opcBits

/-- A copy's enable latch sees the committed GEN bit: a rising edge while READY is 1 sets it (spec/07_field_io.md R215). -/
def FioCopy.see (c : FioCopy) (ready gen : Bool) : FioCopy :=
  { c with genPrev := gen, en := c.en || (gen && !c.genPrev && ready) }

/-- The lanes' enable latches of a group see the committed GEN bits. -/
def State.genSee (s : State) (g : Nat) : State :=
  let ready := s.fioReady g
  let was := (s.fioCopy g).en
  let s := s.modFio g fun f => { f with cp := Vector.ofFn fun (l : Fin 3) => f.cp[l].see ready (bit s.lanes.lcr[l] (16 + g)) }
  if !was && (s.fioCopy g).en then (s.modFio g fun f => { f with latchFlt := false }).fioLive g else s

/-- A lane takes part in what the lanes execute: it counts, or its engine part has been loaded (R177). -/
def Lanes.runs (l : Lanes) (i : Nat) : Bool :=
  let loaded := match l.rs with
    | .idle => false
    | .reset _ => false
    | .engine _ => true
    | .k0 _ => true
    | .agreed _ _ => true
  l.counts i || (loaded && !bit l.retired i)

/-- Every lane that executes writes the bits of an output word into the staged half of its own LCR, without a vote; `dev` is
what a disturbance makes of them (R166). -/
def State.lcrStage (s : State) (i : Nat) (w : Word) (dev : Tri) : State :=
  match s.fieldMaps.find? fun m => m.piw == i with
  | none => s
  | some m =>
    let put (l : Fin 3) : BitVec 20 :=
      let d : Dword := if l.val = 0 then dev.a else if l.val = 1 then dev.b else dev.c
      if s.lanes.runs l then lcrPut s.lanes.lcrS[l] m (w ^^^ lo32 d) else s.lanes.lcrS[l]
    { s with lanes := { s.lanes with lcrS := Vector.ofFn put } }

/-- The staged bits of the words that tasks of `due` own become committed in every lane, and the enable latches see them
(R134, R166). -/
def State.lcrCommit (s : State) (due : List (Fin 8)) : State :=
  let mask := (s.fieldMaps.filter fun m => due.any fun t => bit m.tmask t).foldl (fun l m => l ||| lcrMask m) (0 : BitVec 20)
  let now (l : Fin 3) : BitVec 20 := s.genMask ((s.lanes.lcr[l] &&& ~~~ mask) ||| (s.lanes.lcrS[l] &&& mask))
  let s := { s with lanes := { s.lanes with lcr := Vector.ofFn now } }
  (List.range 4).foldl (fun s g => s.genSee g) s

/-- The committed half of every LCR takes the bits of the OPC words, and the enable latches see them: at a change of the twin
role (spec/18_twin_modules.md R457, R470). -/
def State.lcrShow (s : State) : State :=
  let s := { s with lanes := { s.lanes with lcr := Vector.replicate 3 s.lcrOfOpc } }
  (List.range 4).foldl (fun s g => s.genSee g) s

/-- Both halves of every LCR take the bits of the OPC words: at a load and a halt. -/
def State.lcrLoad (s : State) : State :=
  { s with lanes := { s.lanes with lcrS := Vector.replicate 3 s.opcBits } }.lcrShow

/-- The engine halts and the outputs take their safe values (R141): shared by the overrun, the stop command and SAFE. -/
def State.haltEngine (s : State) : State :=
  (((({ s with eng := s.eng.abandon }).opcSafe).lcrLoad).setMode .stop).releaseSems 1

/-- The module comes to STOP at instant `t` (R141, R144): `task` is the overrunning task, none for a stop command. -/
def State.stopAt (s : State) (t : Nat) (task : Option Nat) : State :=
  let s := s.haltEngine.setMState .stop
  let s := (s.wr Reg.engOvrtask (match task with | some k => wd (k ||| 0x80000000) | none => 0)).wr64 Reg.engOvrtLo t
  let s := { s with rfx := { s.rfx with ovr := task.isSome, stopc := task.isNone }
                    eng := { s.eng with change := s.eng.change.stopped } }
  s.evt 8 (match task with | some _ => 6 | none => 2)

/-- MSTATE as SYS.STAT codes it (R452). -/
def MState.code : MState → Word
  | .boot => 0 | .bare => 1 | .stop => 2 | .run => 3 | .hold => 4 | .safe => 5

/-- The outputs of the time pins go to their inactive level (spec/13_time.md R350). -/
def State.pinsQuiet (s : State) : State :=
  (List.range 8).foldl (fun s n =>
    if (Vec.at s.pins n TPin.reset).running.isSome then
      { s with pins := Vec.updAt s.pins n fun p => { p with running := none, due := none } }.emit (.pin n false)
    else { s with pins := Vec.updAt s.pins n fun p => { p with due := none } }) s

/-- A Guarded session ends with SAFE, and a restore starts; an activation is abandoned (spec/17_start_up_and_update.md R446,
R447). A Quick session continues. -/
def State.updSafe (s : State) : State :=
  let s := s.updAbort 4
  if s.upd.st = .activating then { s with upd := { s.upd with st := .idle } } else s

/-- What entering SAFE ends in the other blocks (R481, R482): transitions in progress are abandoned, a power state is left,
buffers of the bridge and the pins are cleared, and the host and the referee will be told. -/
def State.safeEnds (s : State) : State :=
  let s := { s.wr Reg.pwrStat (setFld (s.rd Reg.pwrStat) 0 3 0) with
    pstate := .run
    eng := { s.eng with change := .none }
    lanes := { s.lanes with rs := .idle }
    pow := { s.pow with opc := .none, opWant := none, sleep := none, planExit := none }
    host := { s.host with safeTell := true }
    twn := { s.twn with tellSafe := s.twnEn } }
  s.bridgeEmpty.pinsQuiet.updSafe.twnUnfit

/-- A fault of R478: every SAFE latch sets, the module enters SAFE, the cause and event 0x0401 are staged and sealed
(R480, R481, R392). With the latches set, a later fault is only recorded. DBG.HSTAT and HDESC keep what they show (DESIGN
CHOICE, log entry 64). -/
def State.enterSafe (s : State) (code inst : Nat) (pay : List Word) : State :=
  if s.safeLatch then s.raiseI code inst pay else
  let was := s.mstate
  let s := s.raiseI code inst pay
  let p0 := pay.headD 0
  let s := (List.range 4).foldl (fun s g => s.clearEn g false) s.haltEngine
  let s := { s with
    safeLatch := true
    pimc := { s.pimc with scrubOff := s.pimc.scrubOff || code == 0x0b03 || code == 0x0b04 || code == 0x0b05 } }
  let s := s.setMState .safe
  let s := (((s.wr Reg.diaSafecause (wd (code ||| 0x80000000))).wr Reg.diaSafepay p0).wr64 Reg.diaSafetLo s.now).evt 4 2
  let s := s.raise 0x0401 [wd code, p0, was.code]
  { s with sett := { s.sett with intake := s.sett.intake ++ [Intake.seal] } }.safeEnds

end Sys2Proof.Machine
end

