-- ==== Sys2Proof/Machine/Vote.lean ====
section
/-!
DEFINITION. Voting: declaring a lane odd, retiring it, no majority, and the comparison at a voted point; the PIM
controller's corrections and retries (spec/06_triplex_execution.md R162 to R167, R174 to R178, R181, R182, R184,
spec/19_faults_and_diagnostics.md R486).
-/
namespace Sys2Proof.Machine

/-- CLK.STAT fields (spec/16_clocks_and_power.md R428): the running PLL of the fixed tree is B, the engine source, and
whether the standby PLL is ready. -/
def State.fixB (s : State) : Bool := bit (s.rd Reg.clkStat) 5
def State.engSrc (s : State) : Nat := fld (s.rd Reg.clkStat) 6 2
def State.pllRdy (s : State) (b : Bool) : Bool := bit (s.rd Reg.clkStat) (if b then 4 else 3)
def State.standbyReady (s : State) : Bool := s.pllRdy !s.fixB

/-- DIA.DEGR [4:0] (spec/19_faults_and_diagnostics.md R487): lanes that do not count, NOSTBY, ENGTCXO. -/
def State.degrLow (s : State) : Nat :=
  s.lanes.held.toNat + 8 * b2n (!s.standbyReady && s.bootPh != .clocks) + 16 * b2n (s.engSrc == 2)

/-- DIA.DEGR (R487). -/
def State.degrWord (s : State) : Word :=
  let grp (g : Nat) : Bool := s.linksOn && ((s.fioG g).gf || !(s.fioG g).accepted)
  wd (s.degrLow + 256 * flagsN ((List.range 4).map grp) + 0x1000 * b2n s.dec.engFlt + 0x2000 * b2n s.ringFull +
    0x4000 * b2n (s.twn.role == .unfit))

/-- DIA.STAT.DEGRADED: DEGR[3:0] is not zero (R488). -/
def State.degraded (s : State) : Bool := s.degrLow % 16 != 0

/-- After a change, event 0x0402 is recorded if DEGRADED rose (R486). -/
def State.degrAfter (s t : State) : State :=
  if t.degraded && !s.degraded then (t.evt 4 4).raise 0x0402 [t.degrWord] else t

/-- The descriptor an activation stands at. -/
def State.descOf (s : State) (t : Fin 8) (a : Act) : Option Nat :=
  match a.pos with
  | .desc i k => some ((s.seg (s.eng.tasks[t].rec'.segFirst + i)).1 + k)
  | _ => none

/-- The descriptor and task executing, as VOTE.LASTDESC shows them. -/
def State.runDesc (s : State) : Option (Nat × Nat) :=
  match s.eng.running with
  | none => none
  | some t => match s.eng.tasks[t].act with
    | none => none
    | some a => (s.descOf t a).map fun d => (d, t.val)

/-- The payload of the records of R185. -/
def lanePay (lane cause : Nat) (w1 task : Nat) : List Word := [wd (lane + cause * 16), wd w1, wd task]

/-- The task of a record of R185: the running one. -/
def State.runTask (s : State) : Nat := match s.eng.running with | none => 0 | some t => t.val

/-- No two lanes agree: fault 0x0a08 and SAFE (R167, R174). -/
def State.noMajority (s : State) (cause w1 : Nat) : State := s.enterSafe 0x0a08 0 (lanePay 3 cause w1 s.runTask)

/-- A lane is declared odd (R175): it is held, the fault of its cause is recorded; a third declaration within 10 s retires
it (R178), and with another lane already held there is no majority (R167). -/
def State.laneOdd (s : State) (lane : Fin 3) (cause w1 : Nat) : State :=
  let others := s.lanes.held &&& ~~~ BitVec.ofNat 3 (2 ^ lane.val)
  if others != 0 then s.noMajority cause w1 else
  let c := Reg.voteOddcnt lane
  let t := s.wr c (setFld (satIncFld (s.rd c) 0 16) 16 3 cause)
  let t := (t.wr Reg.voteLastodd (wd (lane.val + cause * 16 + 0x80000000))).wr64 Reg.voteLastoddtLo s.now
  let t := t.wr Reg.voteLastdesc (match s.runDesc with | some (d, k) => wd (d + k * 0x40000 + 0x80000000) | none => 0)
  let log := ((lane, s.now) :: s.lanes.oddLog).filter fun e => decide (s.now < e.2 + 10000000000)
  let t := { t with lanes := { t.lanes with
    held := t.lanes.held ||| BitVec.ofNat 3 (2 ^ lane.val), oddLog := log, oddAt := s.now, starved := false, rs := .idle,
    vecDev := t.lanes.vecDev.set lane 0, vecCnt := t.lanes.vecCnt.set lane 0 } }
  let t := s.degrAfter ((t.evt 10 1).raise (0x0a00 + cause) (lanePay lane cause w1 s.runTask))
  if (log.filter fun e => e.1 == lane).length < 3 then t else
  let t := { t.evt 10 4 with lanes := { t.lanes with retired := t.lanes.retired ||| BitVec.ofNat 3 (2 ^ lane.val) } }
  let p := lanePay lane cause w1 s.runTask
  if bit (s.rd Reg.voteCtrl) 0 then t.enterSafe 0x0a0a 0 p else t.raise 0x0a0a p

/-- The engine part of the held lane has been loaded, so that its requests are compared though not counted (R177). -/
def Lanes.joining (l : Lanes) : Option (Fin 3) :=
  match l.rs with
  | .idle => none
  | .reset _ => none
  | _ => (List.finRange 3).find? fun i => bit l.held i && !bit l.retired i

/-- The value of one lane. -/
def triLane (t : Tri) (i : Nat) : Dword := if i = 0 then t.a else if i = 1 then t.b else t.c

/-- What a comparison finds: the value that takes effect and the odd lane, or no majority. -/
inductive Verdict where
  | value (v : Dword) (odd : Option (Fin 3))
  | noMajority
deriving DecidableEq, Repr

/-- The comparison at a voted point among the lanes that count (R165, R167). -/
def Lanes.compare (l : Lanes) (t : Tri) : Verdict :=
  match l.counts 0, l.counts 1, l.counts 2 with
  | true, true, true =>
    if t.a = t.b then (if t.b = t.c then .value t.a none else .value t.a (some 2))
    else if t.b = t.c then .value t.b (some 0)
    else if t.a = t.c then .value t.a (some 1)
    else .noMajority
  | true, true, false => if t.a = t.b then .value t.a none else .noMajority
  | true, false, true => if t.a = t.c then .value t.a none else .noMajority
  | false, true, true => if t.b = t.c then .value t.b none else .noMajority
  | true, false, false => .value t.a none
  | false, true, false => .value t.b none
  | false, false, true => .value t.c none
  | false, false, false => .noMajority

/-- A lane being resynchronised whose request differs from the one that takes effect has failed (R177). -/
def State.joinCheck (s : State) (w1 : Nat) (differs : Nat → Bool) : State :=
  match s.lanes.joining with
  | none => s
  | some l => if differs l then s.laneOdd l 4 w1 else s

/-- A voted point: the state after the odd lane, if any, is declared, and the value that takes effect; none once the module
is in SAFE. -/
def State.vote (s : State) (cause w1 : Nat) (t : Tri) : State × Option Dword :=
  match s.lanes.compare t with
  | .noMajority => (s.noMajority cause w1, none)
  | .value v odd =>
    let s := match odd with
      | none => s
      | some l => s.laneOdd l cause w1
    let s := s.joinCheck w1 fun l => triLane t l != v
    (s, if s.safeLatch then none else some v)

/-- The lanes that count. -/
def Lanes.counting (l : Lanes) : List (Fin 3) := (List.finRange 3).filter fun (i : Fin 3) => l.counts i.val

/-- A request that lanes make alone: one such lane is odd, and the request is not carried out (R164). -/
def State.voteAlone (s : State) (w1 : Nat) (alone : BitVec 3) : State :=
  let s' := match s.lanes.counting.filter fun (i : Fin 3) => bit alone i.val with
    | [] => s
    | [l] => if s.lanes.counting.length = 3 then s.laneOdd l 1 w1 else s.noMajority 1 w1
    | _ => s.noMajority 1 w1
  if s'.safeLatch then s' else s'.joinCheck w1 fun l => bit alone l

/-- A write request that lanes omit (R164): whether the request of the others is carried out. -/
def State.voteOmit (s : State) (w1 : Nat) (omitted : BitVec 3) : State × Bool :=
  let r : State × Bool := match s.lanes.counting.filter fun (i : Fin 3) => bit omitted i.val with
    | [] => (s, true)
    | [l] => if s.lanes.counting.length = 3 then (s.laneOdd l 1 w1, true) else (s.noMajority 1 w1, false)
    | [_, _] =>
      if s.lanes.counting.length = 3 then
        match s.lanes.counting.find? fun (i : Fin 3) => !bit omitted i.val with
        | some l => (s.laneOdd l 1 w1, false)
        | none => (s, false)
      else (s, false)
    | _ => (s, false)
  let t := r.1
  if t.safeLatch then (t, false) else (t.joinCheck w1 fun l => bit omitted l != !r.2, r.2)

/-- The target takes the request that the voter copies of two lanes which count produce alike, `vc` holding each copy's own
deviation; where no two do, there is no majority (R164). -/
def State.voteCopies (s : State) (w1 : Nat) (vc : Tri) : State × Bool :=
  let cs := s.lanes.counting.map fun (l : Fin 3) => triLane vc l
  if s.safeLatch then (s, false)
  else if cs.length < 2 || cs.any (fun c => decide (2 ≤ cs.count c)) then (s, true)
  else (s.noMajority 1 w1, false)

/-- What a vote on one write request lets through: the deviations of the majority request in address, byte mask, target and
data. -/
structure Through where
  addr   : Nat
  mask   : Nat
  target : Bool
  data   : Word
deriving DecidableEq, Repr

/-- A write request is voted (R164, R165): the state, and what is carried out. -/
def State.voteWrite (s : State) (w1 : Nat) (u : WriteUpset) : State × Option Through :=
  let s := s.voteAlone w1 u.alone
  if s.safeLatch then (s, none) else
  match s.voteOmit w1 u.omitted with
  | (s, false) => (s, none)
  | (s, true) => match s.vote 1 w1 u.req with
    | (s, none) => (s, none)
    | (s, some q) => match s.vote 1 w1 u.data with
      | (s, none) => (s, none)
      | (s, some d) => match s.voteCopies w1 u.vc with
        | (s, false) => (s, none)
        | (s, true) => (s, some ⟨fld q 0 32, fld q 32 4, bit q 36, lo32 d⟩)

/-! ## The PIM controller (R180 to R184) -/

/-- The key of codeword `cw` of a line in the store of flipped bits. -/
def flipKey (line cw : Nat) : Nat := 4 * line + cw

/-- The flipped bits of a codeword. -/
def State.flips (s : State) (line cw : Nat) : BitVec 72 := Store.get (fun _ => 0) s.pimc.flips (flipKey line cw)
def State.setFlips (s : State) (line cw : Nat) (v : BitVec 72) : State :=
  { s with pimc := { s.pimc with flips := Store.put (fun _ => 0) s.pimc.flips (flipKey line cw) v } }

/-- Stored bits flip. -/
def State.pimStrike (s : State) (fs : List PimFlip) : State :=
  fs.foldl (fun s f => s.setFlips f.line.toNat f.cw.toNat (s.flips f.line.toNat f.cw.toNat ^^^ f.bits)) s

/-- A single-bit error is corrected (R181): counted, recorded, and the line waits to be written back. -/
def State.pimCorrect (s : State) (line cw b : Nat) : State :=
  let s := (s.count Reg.pimCecnt).wr Reg.pimCeaddr (wd (line + cw * 0x100000 + b * 0x400000 + 0x80000000))
  let s := { s with pimc := { s.pimc with writeback := s.pimc.writeback.filter (· != line) ++ [line] } }
  (s.evt 11 1).raise 0x0b01 [0, wd (8 * line), wd s.runTask]

/-- An uncorrectable result starts a retry, which stalls every requester (R182). -/
def State.pimRetryStart (s : State) (line mid : Nat) : State :=
  let second := match s.pimc.lastRetry with
    | none => false
    | some t => decide (s.now < t + 10000000)
  let s := (s.count Reg.pimRetrycnt).wr Reg.pimRetryaddr (wd (line + mid * 0x100000 + 0x80000000))
  { s with pimc := { s.pimc with retry := some (line, mid, second), lastRetry := some s.now } }

/-- The fault that takes the module to SAFE, which PIM.FATAL names (R182, R184, R188); in SAFE it keeps what it holds. -/
def State.pimFatal (s : State) (code line mid kind w1 : Nat) : State :=
  let t := if s.safeLatch then s
    else s.wr Reg.pimFatal (wd (line + mid * 0x100000 + kind * 0x1000000 + 0x80000000))
  t.enterSafe code 0 [0, wd w1, wd s.runTask]

/-- What the code finds in one codeword (R180): nothing, a single bit that it corrects, or an uncorrectable error. An error
of three or more bits that it does not find becomes data. -/
inductive CodeFinds where
  | clean | corrects (b : Nat) | fails | misses
deriving DecidableEq, Repr

def codeFinds (e : BitVec 72) : CodeFinds :=
  match popCount e with
  | 0 => .clean
  | 1 => .corrects (((List.range 72).find? fun i => bit e i).getD 0)
  | 2 => .fails
  | _ => if Config.pimFinds e then .fails else .misses

/-- The two words of codeword `cw` of a line take the flipped data bits. -/
def State.flipsIn (s : State) (line cw : Nat) : State :=
  let e := s.flips line cw
  let a := 8 * line + 2 * cw
  let s := s.setFlips line cw 0
  if a + 1 < pimLimit then
    let pim := s.pim.writeWord ramFill (4 * a) (s.pimRd a ^^^ wd (fld e 0 32))
    { s with pim := pim.writeWord ramFill (4 * (a + 1)) (s.pimRd (a + 1) ^^^ wd (fld e 32 32)) }
  else s

/-- One codeword is checked: the state, and whether it delivers. -/
def State.codeCheck (s : State) (line cw : Nat) : State × Bool :=
  match codeFinds (s.flips line cw) with
  | .clean => (s, true)
  | .corrects b => (s.pimCorrect line cw b, true)
  | .fails => (s, false)
  | .misses => (s.flipsIn line cw, true)

/-- A line is read and checked (R181): the first codeword that fails starts a retry. -/
def State.lineCheck (s : State) (mid line : Nat) : State × Bool :=
  (List.range 4).foldl (fun r cw => if r.2 then (match r.1.codeCheck line cw with
    | (s, true) => (s, true)
    | (s, false) => (s.pimRetryStart line mid, false)) else r) (s, true)

/-- Lines are read by a requester: whether all of them deliver (R181, R182). -/
def State.linesCheck (s : State) (mid : Nat) (lines : List Nat) : State × Bool :=
  if s.pimc.flips = [] then (s, true)
  else lines.foldl (fun r l => if r.2 then r.1.lineCheck mid l else r) (s, true)

/-- The check of the reads of a step with what disturbs them: wrong line-address bits are uncorrectable when one or two, and
so is what a lane that executes finds itself (R180 to R182). -/
def State.pimCheck (s : State) (mid : Nat) (lines : List Nat) (e : PimErr) : State × Bool :=
  let s := s.pimStrike e.flips
  let n := popCount e.addr
  let addrBad := n != 0 && (decide (n ≤ 2) || !Config.pimEscapes e.addr)
  let laneBad := (List.range 3).any fun l => bit e.lanes l && s.lanes.runs l
  if addrBad || laneBad then (s.pimRetryStart (lines.headD 0) mid, false) else s.linesCheck mid lines

/-- The lines are read and checked for a requester other than the lanes; during a retry it waits (R181, R182). -/
def State.readLines (s : State) (mid : Nat) (lines : List Nat) : State × Bool :=
  if s.pimc.retry.isSome then (s, false) else s.linesCheck mid lines

/-- The lines of consecutive words. -/
def linesOf (w n : Nat) : List Nat := ((List.range n).map fun i => (w + i) / 8).eraseDups

end Sys2Proof.Machine
end

