-- ==== Sys2Proof/Machine/Operands.lean ====
section
/-!
DEFINITION. Every operand form of a block: the data types, the operand slots and the spaces they reach, reads and writes
with INV and BIT, and forced values (spec/03_program_image.md R56, R57, R62 to R67, spec/05_tasks_and_modes.md R134, R150).
-/
namespace Sys2Proof.Machine

/-! ## Data types (R56), by their codes -/

def tBOOL : Nat := 0
def tBYTE : Nat := 1
def tWORD : Nat := 2
def tDWORD : Nat := 3
def tSINT : Nat := 4
def tINT : Nat := 5
def tDINT : Nat := 6
def tUSINT : Nat := 7
def tUINT : Nat := 8
def tUDINT : Nat := 9
def tREAL : Nat := 10
def tTIME : Nat := 11
def tPOS : Nat := 12

/-- The width of a type in bits. -/
def tyWidth (t : Nat) : Nat :=
  if t = 0 then 1 else if t = 1 ∨ t = 4 ∨ t = 7 then 8 else if t = 2 ∨ t = 5 ∨ t = 8 then 16 else 32

/-- The groups of the block tables. -/
def tyBS (t : Nat) : Bool := 1 ≤ t && t ≤ 3
def tyBIT (t : Nat) : Bool := t ≤ 3
def tySI (t : Nat) : Bool := t == 4 || t == 5 || t == 6 || t == 11 || t == 12
def tyUI (t : Nat) : Bool := t == 7 || t == 8 || t == 9
def tyINT (t : Nat) : Bool := tySI t || tyUI t
def tyNUM (t : Nat) : Bool := tyINT t || t == 10
def tyALL (t : Nat) : Bool := t ≤ 12

/-- The extension of R57: the low bits of the word, sign- or zero-extended as the type requires. -/
def tyExt (t : Nat) (w : Word) : Word :=
  if t = 0 then w &&& 1 else if tySI t then wi (sfld w 0 (tyWidth t)) else wd (fld w 0 (tyWidth t))

/-- The integer that an extended word of a type stands for. -/
def tyVal (t : Nat) (w : Word) : Int := if tySI t then sfld w 0 (tyWidth t) else (fld w 0 (tyWidth t) : Int)

/-- The least and greatest value of an integer or bit-string type. -/
def tyMin (t : Nat) : Int := if tySI t then -(2 ^ (tyWidth t - 1)) else 0
def tyMax (t : Nat) : Int := if tySI t then 2 ^ (tyWidth t - 1) - 1 else 2 ^ tyWidth t - 1

/-- The nearest limit of the type. -/
def tyClamp (t : Nat) (v : Int) : Int := if v < tyMin t then tyMin t else if tyMax t < v then tyMax t else v

/-- The word that holds an integer of a type: its low bits, extended (R57, R96). -/
def tyOf (t : Nat) (v : Int) : Word := tyExt t (wi v)

/-! ## Operand slots (R66) -/

def slotRef (w : Word) : Nat := fld w 0 24
def slotBit (w : Word) : Nat := fld w 24 5
def slotInv (w : Word) : Bool := bit w 29
def slotOut (w : Word) : Bool := bit w 30

/-- The reference lies in PIM space; else its part of the system space and index (R62, R63). -/
def refPim (r : Nat) : Bool := decide (r < 0x800000)
def refPart (r : Nat) : Nat := r / 0x100000 % 8
def refIdx (r : Nat) : Nat := r % 0x100000

/-- The task as it stands. -/
def State.task (s : State) (t : Fin 8) : Task := s.eng.tasks[t]

/-- The task changed. -/
def State.modTask (s : State) (t : Fin 8) (f : Task → Task) : State :=
  { s with eng := { s.eng with tasks := Vec.upd s.eng.tasks t f } }

/-- The activation changed. -/
def State.modAct (s : State) (t : Fin 8) (f : Act → Act) : State :=
  s.modTask t fun k => { k with act := k.act.map f }

/-- The value an OUT word reads as: the last one staged in the activation, else the committed one (R63). -/
def State.outValue (s : State) (a : Act) (w : Nat) : Word :=
  a.staged.foldl (fun v e => match e with
    | .out w' v' => if w' = w then v' else v
    | _ => v) (s.pimRd (pimOpc + w))

/-- The word an operand reference reads; `x` disturbs a PIM address (R62, R63, R165). -/
def State.readRef (s : State) (t : Fin 8) (a : Act) (ref dtype x : Nat) : Word :=
  if refPim ref then s.pimRd (ref ^^^ x) else
  let i := refIdx ref
  match refPart ref with
  | 0 => if dtype = tREAL then wd (i * 0x1000) else wi (sfld (wd i) 0 20)
  | 1 => s.pimRd (s.constAt i)
  | 2 => s.pimRd (pimShadow t + i)
  | 3 => s.outValue a i
  | 4 => ((a.axSnap.find? fun e => e.1 == i).map fun e => e.2).getD 0
  | 5 => s.pimRd (pimSysv t + i)
  | 6 => s.pimRd (pimShadowSt t + i)
  | _ => 0

/-- The value a block sees in an operand slot: the selected bit, inverted where INV says so, or the word extended by R57. -/
def State.readSlot (s : State) (t : Fin 8) (a : Act) (slot : Word) (dtype x : Nat) : Word :=
  let w := s.readRef t a (slotRef slot) dtype x
  if dtype = tBOOL then b2w (bit w (slotBit slot) != slotInv slot) else tyExt dtype w

/-- A value with the forced bits or the forced word of its location put in (R150). -/
def forced (frc : List (Nat × Option Nat × Word)) (ref : Nat) (v : Word) : Word :=
  frc.foldl (fun v f => if f.1 = ref then (match f.2.1 with
    | none => f.2.2
    | some b => setBit v b (bit f.2.2 0)) else v) v

/-- The whole word a write to a slot stores, from the word that stands there (R57, R66). -/
def slotWord (slot : Word) (dtype : Nat) (old v : Word) : Word :=
  if dtype = tBOOL then setBit old (slotBit slot) (bit v 0 != slotInv slot) else tyExt dtype v

/-- The word that stands after a request with byte mask deviations `m`: the bytes left out keep what stood. -/
def maskWord (old new : Word) (m : Nat) : Word :=
  (List.range 4).foldl (fun w k => if m.testBit k then setFld w (8 * k) 8 (fld old (8 * k) 8) else w) new

/-- Nothing deviates in the majority request. -/
def Through.clean : Through := ⟨0, 0, false, 0⟩

/-- A majority request of the lanes writes a PIM word. One that reaches the image mirror is discarded and takes the module to
SAFE; one that reaches another target writes nothing here (R61, spec/06_triplex_execution.md R164, R184). -/
def State.votedWr (s : State) (w : Nat) (v : Word) (x : Through) : State :=
  let a := w ^^^ x.addr
  if x.target then s
  else if a < pimInst then s.pimFatal 0x0b05 (a / 8) 1 3 a
  else s.pimWr a (maskWord (s.pimRd a) (v ^^^ x.data) x.mask)

/-- A write through an operand slot, with what deviates in the majority request, and in the bits each lane writes into its own
LCR: PIM space at once; OUT and AXIS staged; of the system variables only OVF, which a write of 0 clears whatever BIT selects
(R63, R64; DESIGN CHOICE, log entry 50). -/
def State.writeSlot (s : State) (t : Fin 8) (a : Act) (slot : Word) (dtype : Nat) (v : Word) (x : Through) (lcr : Tri) : State :=
  let ref := slotRef slot
  if refPim ref then s.votedWr ref (forced a.frc ref (slotWord slot dtype (s.pimRd ref) v)) x
  else
    let i := refIdx ref
    match refPart ref with
    | 3 =>
      let cur := ((s.task t).act.getD a)
      let i := (i ^^^ x.addr) % 0x4000
      let w := maskWord (s.outValue cur i) (forced a.frc ref (slotWord slot dtype (s.outValue cur i) v) ^^^ x.data) x.mask
      if x.target then s else
      (((s.modAct t fun c => { c with staged := c.staged ++ [.out i w] })).pimWr (pimOps + i) w).lcrStage i w lcr
    | 4 =>
      if x.target then s else
      s.modAct t fun c => { c with staged := c.staged ++ [.axis (i / 0x10000) (i % 0x10000) (tyExt dtype v ^^^ x.data)] }
    | 5 =>
      if i = 4 ∧ dtype = tBOOL ∧ (bit v 0 != slotInv slot) = false ∧ x.target = false then s.pimWr (pimSysv t + 4) 0 else s
    | _ => s

/-- The operand slots of a descriptor in the order the block sees them (R65, R67). -/
def State.slotsOf (s : State) (d : Nat) : List Word :=
  let w := s.pimRds (s.descAt d) 8
  let h := w.getD 0 0
  let nops := fld h 16 3
  if bit h 19 then
    let n := fld (w.getD 1 0) 24 8
    ((w.drop 2).take 5) ++ (List.range n).map fun i => s.pimRd (s.constAt (refIdx (slotRef (w.getD 7 0)) + i))
  else (w.drop 2).take nops

end Sys2Proof.Machine
end

