-- ==== Sys2Proof/Machine/BlockRun.lean ====
section
/-!
DEFINITION. How a block is executed: the activation it belongs to, the header check, the reads before the writes, the vote
of its requests, its PE cost and the advance to the next block (spec/03_program_image.md R65 to R71,
spec/04_block_library.md R93 to R95, spec/05_tasks_and_modes.md R137, R139, R145, spec/06_triplex_execution.md R162 to
R165).
-/
namespace Sys2Proof.Machine

/-- What a block sees: its task, descriptor number, DTYPE and instance address, the time step, the values of its read
operands, its instance words after the header, the number of its written operands, and what was taken at the shadow instant
(the mailbox heads and its own status output). `konst` reads a word of the constant pool. -/
structure BIn where
  t     : Nat
  d     : Nat
  dty   : Nat
  iref  : Nat
  dt    : Int
  ins   : List Word
  inst  : List Word
  nout  : Nat
  tabs  : List Nat
  konst : Nat → Word
  mb    : List (Nat × Nat × List Word)
  rep   : Word

/-- Read operand `k`, as a word, a number of the operation's type, a DINT-coded TIME, or a BOOL. -/
def BIn.w (x : BIn) (k : Nat) : Word := x.ins.getD k 0
def BIn.v (x : BIn) (k : Nat) : Int := tyVal x.dty (x.w k)
def BIn.time (x : BIn) (k : Nat) : Int := sfld (x.w k) 0 32
def BIn.b (x : BIn) (k : Nat) : Bool := bit (x.w k) 0

/-- Instance word `k` (word 0 is the header). -/
def BIn.iw (x : BIn) (k : Nat) : Word := x.inst.getD (k - 1) 0

/-- What a block does: the values of its written operands (none leaves one unwritten), its instance words after the header,
whether it sets OVF, and what it stages. -/
structure BOut where
  outs : List (Option Word)
  inst : List Word
  ovf  : Bool
  eff  : List Effect
deriving DecidableEq, Repr

/-- One value out, no instance data. -/
def BOut.q (w : Word) : BOut := ⟨[some w], [], false, []⟩
/-- Two values out. -/
def BOut.q2 (w e : Word) : BOut := ⟨[some w, some e], [], false, []⟩
/-- Values out and instance words. -/
def BOut.qi (outs inst : List Word) : BOut := ⟨outs.map some, inst, false, []⟩

/-- A block of the library: its opcodes, the types of its read and written operands by DTYPE, opcode member and index, its
instance words after the header by DTYPE, and what it does. -/
structure BlockDef where
  opc   : Nat → Bool
  inTy  : Nat → Nat → Nat → Nat
  outTy : Nat → Nat → Nat
  words : Nat
  sem   : BIn → BOut

/-- The position after a descriptor (R134, R137). -/
def State.nextPos (s : State) (t : Fin 8) : Pos → Pos
  | .cond i => .cond i
  | .desc i k =>
    let r := (s.task t).rec'
    if k + 1 < (s.seg (r.segFirst + i)).2.1 then .desc i (k + 1)
    else if i + 1 < r.segCount then .cond (i + 1) else .done
  | .done => .done

/-- The earliest commit instant of an activation in progress. -/
def State.firstCommit (s : State) : Option Nat :=
  (s.eng.tasks.toList.filterMap fun k => k.act.map fun a => a.tc).min?

/-- A commit instant has passed and waits for its COMMIT: the watchdog, which would have halted the engine at it, goes first
(R141; DEDUCED, log entry 1). -/
def State.commitLate (s : State) : Bool := s.firstCommit.any fun tc => decide (tc < s.now)

/-- The engine executes: powered, in the mode asked for, with no PIM retry (R182) and no commit instant behind it. -/
def State.engineRuns (s : State) (m : EngMode) : Bool :=
  s.alive && s.eng.mode == m && s.pimc.retry.isNone && (s.pstate == .run) && !s.commitLate

/-- The activation running in the lanes. -/
def State.runAct (s : State) : Option (Fin 8 × Act) :=
  match s.eng.running with
  | none => none
  | some t => match (s.task t).act with
    | some a => if a.stage = .running then some (t, a) else none
    | none => none

/-- A breakpoint stands on a descriptor: BP at load, or an enabled DBG.BPk (R145). -/
def State.isBp (s : State) (d : Nat) : Bool :=
  bit (s.pimRd (s.descAt d)) 20 ||
    (List.range 16).any fun k => bit (s.rd (Reg.dbgBp k)) 31 && fld (s.rd (Reg.dbgBp k)) 0 18 == d

/-- The block the lanes execute next: task, activation and descriptor number. -/
def State.nextBlock (s : State) : Option (Fin 8 × Act × Nat) :=
  match s.runAct with
  | none => none
  | some (t, a) => (s.descOf t a).map fun d => (t, a, d)

/-- The PEs of an activation grow, and a count above WCPE is fault 0x0802 and SAFE (R139). Those of a deferrable
task count for the governor (spec/16_clocks_and_power.md R419). -/
def State.addPe (s : State) (t : Fin 8) (n : Nat) : State :=
  let s := s.modAct t fun a => { a with pe := a.pe + n }
  let s := if 4 ≤ t.val then { s with pow := { s.pow with deferPe := s.pow.deferPe + n } } else s
  match (s.task t).act with
  | none => s
  | some a => if (s.task t).rec'.wcpe < a.pe then s.enterSafe 0x0802 t [] else s

/-- The word address a slot reads or writes, for the records of R185. -/
def slotAddr (slot : Word) : Nat := if refPim (slotRef slot) then slotRef slot else pimOps + refIdx (slotRef slot)

/-! ## Task signatures (spec/06_triplex_execution.md R171) -/

/-- Words enter a signature, most significant bit first; the polynomial is that of ECMA-182. The order of the fields within one
entry is the model's (log entry 6). -/
def sigWords (c : Dword) (ws : List Word) : Dword :=
  crcMsb (0x42f0e1eba9ea3693 : Dword) c (ws.flatMap fun w => bitsMsb w.toNat 32)

/-- The signature register takes in words, and each lane's deviation from it follows: the code is linear. -/
def Act.sigIn (a : Act) (ws : List Word) (dev : Nat → List Word) : Act :=
  let one (d : Dword) (l : Nat) : Dword := if d = 0 ∧ dev l = [] then 0 else sigWords d ((dev l) ++ List.replicate (ws.length - (dev l).length) 0)
  { a with sig := sigWords a.sig ws, sigDev := ⟨one a.sigDev.a 0, one a.sigDev.b 1, one a.sigDev.c 2⟩ }

/-- Every lane takes in the same words. -/
def Act.sigAll (a : Act) (ws : List Word) : Act := a.sigIn ws fun _ => []

/-! ## The requests of a block (R94, spec/06_triplex_execution.md R164, R165) -/

/-- One write request: through an operand slot, of an instance word, of OVF, or one that stages an effect. -/
inductive WriteReq where
  | slot (w : Word) (ty : Nat) (v : Word)
  | inst (a : Nat) (v : Word)
  | ovf
  | stage (e : Effect)
deriving DecidableEq, Repr

/-- What a request brings into the signature, and the address that a record of it names. -/
def WriteReq.words : WriteReq → List Word
  | .slot w _ v => [wd (slotRef w), v, 15]
  | .inst a v => [wd a, v, 15]
  | .ovf => [4, 1, 1]
  | .stage _ => [0, 0, 15]
def WriteReq.at' (t d : Nat) : WriteReq → Nat
  | .slot w _ _ => slotAddr w
  | .inst a _ => a
  | .ovf => pimSysv t + 4
  | .stage _ => d

/-- An effect whose data deviate in the majority request. -/
def Effect.alter (e : Effect) (x : Word) : Effect :=
  match e with
  | .out w v => .out w (v ^^^ x)
  | .axis ax reg v => .axis ax reg (v ^^^ x)
  | .arm i ax k p mode en => .arm i ax k (p ^^^ x) mode en
  | .select i m v => .select i m (v ^^^ x)
  | .message i ch ws => .message i ch (ws.map (· ^^^ x))
  | .pop ch => .pop ch
  | .record i c pay => .record i c (pay.map (· ^^^ x))

/-- The majority request is carried out; a forced word takes its forced value (spec/05_tasks_and_modes.md R150). -/
def State.doReq (s : State) (t : Fin 8) (a : Act) (r : WriteReq) (x : Through) (lcr : Tri) : State :=
  match r with
  | .slot w ty v => s.writeSlot t a w ty v x lcr
  | .inst i v => s.votedWr i (forced a.frc i v) x
  | .ovf => s.votedWr (pimSysv t + 4) 1 x
  | .stage e => if x.target then s else s.modAct t fun c => { c with staged := c.staged ++ [e.alter x.data] }

/-- The requests of a block, each voted on and carried out in their order; nothing after one that leads to SAFE. -/
def State.doReqs (s : State) (t : Fin 8) (a : Act) (d : Nat) (u : Upset) : List (WriteReq × Nat) → State
  | [] => s
  | (r, k) :: rest =>
    if s.safeLatch then s else
    match s.voteWrite (r.at' t d) (u.wr.getD k WriteUpset.none) with
    | (s, none) => s.doReqs t a d u rest
    | (s, some x) => (s.doReq t a r x u.lcr).doReqs t a d u rest

/-! ## The block -/

/-- The activation's own entry for its block's status output. -/
def Act.repOf (a : Act) (iref : Nat) : Word := ((a.rep.find? fun r => r.1 == iref).map fun r => r.2).getD 0

/-- What block `b` sees at descriptor `d`; `xs` disturbs the addresses of its read operands. -/
def State.blockIn (s : State) (b : BlockDef) (t : Fin 8) (a : Act) (d : Nat) (xs : List Nat) : BIn :=
  let h := s.pimRd (s.descAt d)
  let opc := fld h 0 12
  let dty := fld h 12 4
  let iref := fld (s.pimRd (s.descAt d + 1)) 0 24
  let slots := s.slotsOf d
  let rds := slots.filter fun w => !slotOut w
  { t := t, d := d, dty := dty, iref := iref, dt := a.dt
    ins := rds.zipIdx.map fun p => s.readSlot t a p.1 (b.inTy dty (opc % 64) p.2) (xs.getD p.2 0)
    inst := s.pimRds (iref + 1) b.words
    nout := (slots.filter slotOut).length
    tabs := rds.map fun w => refIdx (slotRef w)
    konst := fun c => s.pimRd (s.constAt c)
    mb := a.mbSnap
    rep := a.repOf iref }

/-- The lines a block reads: its descriptor, its operands in PIM space and its instance data. -/
def State.blockLines (s : State) (b : BlockDef) (d : Nat) : List Nat :=
  let iref := fld (s.pimRd (s.descAt d + 1)) 0 24
  let ops := ((s.slotsOf d).filter fun w => !slotOut w && refPim (slotRef w)).map fun w => slotRef w / 8
  linesOf (s.descAt d) 8 ++ ops ++ (if b.words = 0 then [] else linesOf iref (b.words + 1))

/-- Read addresses are voted one after the other (spec/06_triplex_execution.md R162, R165): the state, and the majority's
deviation in each; none once the module is in SAFE. -/
def State.voteReads (s : State) : List (Nat × Tri) → State × Option (List Nat)
  | [] => (s, some [])
  | (w1, x) :: rest =>
    match s.vote 2 w1 x with
    | (s, none) => (s, none)
    | (s, some v) => match s.voteReads rest with
      | (s, none) => (s, none)
      | (s, some vs) => (s, some (fld v 0 23 :: vs))

/-- The reads of a block: its descriptor, then its operands, with the lanes' deviations. -/
def State.blockReads (s : State) (d : Nat) (u : Upset) : List (Nat × Tri) :=
  (s.descAt d, u.rd.getD 0 Tri.none) ::
    ((s.slotsOf d).filter fun w => !slotOut w).zipIdx.map fun p => (slotAddr p.1, u.rd.getD (p.2 + 1) Tri.none)

/-- The line-address error of a read that escapes the code, as a deviation of word addresses. -/
def pimEscape (e : PimErr) : Nat := if popCount e.addr = 0 then 0 else 8 * e.addr.toNat

/-- The words a block writes through its operand slots when its meaning is `o`: slot, type and value, in operand order. -/
def State.blockOuts (s : State) (b : BlockDef) (d : Nat) (o : BOut) : List (Word × Nat × Word) :=
  let dty := fld (s.pimRd (s.descAt d)) 12 4
  ((s.slotsOf d).filter slotOut).zipIdx.filterMap fun p =>
    (o.outs.getD p.2 none).map fun v => (p.1, b.outTy dty p.2, v)

/-- The word address of the instance data of descriptor `d` (R65). -/
def State.irefAt (s : State) (d : Nat) : Nat := fld (s.pimRd (s.descAt d + 1)) 0 24

/-- The requests of block `b` at descriptor `d` whose meaning is `o`: operands in their order, instance words, OVF, and what it
stages. -/
def State.blockReqs (s : State) (b : BlockDef) (d : Nat) (o : BOut) : List WriteReq :=
  (s.blockOuts b d o).map (fun w => .slot w.1 w.2.1 w.2.2) ++
    o.inst.zipIdx.map (fun p => .inst (s.irefAt d + 1 + p.2) p.1) ++
    (if o.ovf then [WriteReq.ovf] else []) ++ o.eff.map .stage

/-- The words a block brings into the task signature: its descriptor number and the words of its descriptor with their
addresses, its operands with theirs, its instance words, and its requests. -/
def State.blockSigWords (s : State) (d : Nat) (x : BIn) (rs : List WriteReq) : List Word :=
  wd d :: (List.range 8).flatMap (fun i => [wd (s.descAt d + i), s.pimRd (s.descAt d + i)]) ++
    (((s.slotsOf d).filter fun w => !slotOut w).zipIdx.flatMap fun p => [wd (slotRef p.1), x.w p.2]) ++
    x.inst.zipIdx.flatMap (fun p => [wd (x.iref + 1 + p.2), p.1]) ++ rs.flatMap WriteReq.words

/-- What a block leaves in the lanes that execute: their pipes hold other working words, and what a disturbance flips
(spec/06_triplex_execution.md R163, R171; log entry 6). -/
def State.pipesFill (s : State) (flips : List (Fin 3 × Byte × Word)) : State :=
  let fill (l : Fin 3) : Pipe :=
    let p := s.lanes.pipe[l]
    if s.lanes.runs l then
      ⟨some s.freeCount, p.dev ++ (flips.filter fun f => f.1 == l).map fun f => (f.2.1.toNat, f.2.2)⟩
    else p
  { s.drawn with lanes := { s.lanes with pipe := Vector.ofFn fill } }

/-- The signature register of the activation takes in a block; a lane whose LCR write deviates differs from then on. -/
def State.sigBlock (s : State) (t : Fin 8) (ws : List Word) (lcr : Tri) : State :=
  s.modAct t fun a => a.sigIn ws fun l =>
    let x := lo32 (triLane lcr l)
    if x = 0 then [] else [x]

/-- What follows the requests of a block: the signature, the pipes, the next position, and the PEs. -/
def State.blockEnd (s : State) (t : Fin 8) (ws : List Word) (u : Upset) (cost : Nat) : State :=
  let s := (s.sigBlock t ws u.lcr).pipesFill u.pipe
  let s := s.modAct t fun c => { c with pos := s.nextPos t c.pos }
  ({ s with eng := { s.eng with passed := none } } : State).addPe t (cost + u.extraPe)

/-- Block `b` is executed at descriptor `d` of the running activation. The breakpoint that a resume has passed is forgotten with
the first block executed, of whichever activation (DESIGN CHOICE, log entry 64). -/
def State.runBlock (s : State) (b : BlockDef) (t : Fin 8) (a : Act) (d : Nat) (u : Upset) : State :=
  let h := s.pimRd (s.descAt d)
  match s.pimCheck 1 (s.blockLines b d) u.pim with
  | (s, false) => s
  | (s, true) => match s.voteReads (s.blockReads d u) with
    | (s, none) => s
    | (s, some xs) =>
      if 0 < b.words ∧ s.pimRd (s.irefAt d) ≠ wd (fld h 0 12) then
        s.enterSafe 0x0803 t [wd d, wd (s.irefAt d), s.pimRd (s.irefAt d)]
      else
        let x := s.blockIn b t a d ((xs.drop 1).map fun x => x ^^^ pimEscape u.pim)
        let o := b.sem x
        let rs := s.blockReqs b d o
        let ws := s.blockSigWords d x rs
        let s := (s.doReqs t a d u rs.zipIdx).voteAlone d u.extra
        if s.safeLatch then s else s.blockEnd t ws u (fld h 24 8)

/-- A block command: the lanes execute the block they stand at, if it is one of `b` and no breakpoint stands on it. -/
def State.blockCmd (s : State) (b : BlockDef) (u : Upset) : State :=
  if !s.engineRuns .run then s else
  match s.nextBlock with
  | none => s
  | some (t, a, d) =>
    if b.opc (fld (s.pimRd (s.descAt d)) 0 12) && (!s.isBp d || s.eng.passed == some (t, d)) then s.runBlock b t a d u else s

/-- The same type for every operand. -/
def sameIn (dty _ _ : Nat) : Nat := dty
def sameOut (dty _ : Nat) : Nat := dty

/-- Operand types by index, the last one repeated. -/
def pick (l : List Nat) (k : Nat) : Nat := l.getD k (l.getLastD 0)

end Sys2Proof.Machine
end

