-- ==== Sys2Proof/Machine/Flags.lean ====
section
/-!
DEFINITION. The flag computations of the block library: the OVF of the wrapping operations (R96), the saturating results
(R97), the ERR outputs of DIV, MOD and MULDIV (R98, R99, R102), and the compares (R100) of
spec/04_block_library.md.
-/
namespace Sys2Proof.Machine

/-- A wrapping result: the low bits in the width of the type, and OVF when the exact result lies outside the range. -/
def wrapRes (ty : Nat) (v : Int) : Word × Bool := (tyOf ty v, decide (v < tyMin ty ∨ tyMax ty < v))

/-- A saturating result. -/
def satRes (ty : Nat) (v : Int) : Word := tyOf ty (tyClamp ty v)

/-- DIV (R98): the quotient truncated towards zero, and ERR. -/
def divRes (ty : Nat) (a b : Int) : Word × Bool :=
  if b = 0 then (0, true)
  else if tySI ty ∧ a = tyMin ty ∧ b = -1 then (tyOf ty (tyMax ty), true)
  else (tyOf ty (Int.tdiv a b), false)

/-- MOD (R98): the remainder with the sign of the dividend, and ERR. -/
def modRes (ty : Nat) (a b : Int) : Word × Bool :=
  if b = 0 then (0, true) else (tyOf ty (Int.tmod a b), false)

/-- REAL DIV (R99): ERR when the divisor is ±0 or the result is NaN. -/
def fDivRes (a b : Word) : Word × Bool :=
  let q := fDiv a b
  (q, fIsZero b || fIsNaN q)

/-- MULDIV (R102): the product divided on the exact intermediate, truncated, clamped to the type, and ERR. -/
def mulDivRes (ty : Nat) (a b c : Int) : Word × Bool :=
  if c = 0 then (0, true)
  else
    let q := Int.tdiv (a * b) c
    (satRes ty q, decide (q < tyMin ty ∨ tyMax ty < q))

/-- The compares of R100 on the words of a type. -/
def cmpEq (ty : Nat) (a b : Word) : Bool := if ty = tREAL then fEq a b else a == b
def cmpLt (ty : Nat) (a b : Word) : Bool := if ty = tREAL then fLt a b else decide (tyVal ty a < tyVal ty b)
def cmpLe (ty : Nat) (a b : Word) : Bool := if ty = tREAL then fLe a b else decide (tyVal ty a ≤ tyVal ty b)

/-- A word of a REAL operation is NaN. -/
def nanOf (ty : Nat) (w : Word) : Bool := ty == tREAL && fIsNaN w

/-- The value CONV writes for a source word of type `src` (R104). -/
def convRes (src dst : Nat) (w : Word) : Word :=
  if src = dst then w
  else if src = tBOOL then (if dst = tREAL then fOfInt (b2n (bit w 0)) else b2w (bit w 0))
  else if dst = tBOOL then (if src = tREAL then b2w (!fIsZero w && !fIsNaN w) else b2w (w != 0))
  else if dst = tREAL then fOfInt (tyVal src w)
  else if src = tREAL then satRes dst (fToIntRne w)
  else if tyBS dst then tyExt dst w
  else if tyBS src then tyExt dst w
  else satRes dst (tyVal src w)

end Sys2Proof.Machine
end

