-- ==== Sys2Proof/Machine/BlocksA.lean ====
section
/-!
DEFINITION. The blocks of the families Logic, Compare, Arithmetic, Conversion, Selection and Edges
(spec/04_block_library.md R102 to R105): one definition of its own for each block command.
-/
namespace Sys2Proof.Machine

/-- One opcode. -/
def isOpc (n : Nat) : Nat → Bool := fun o => o == n

/-- The word of a value cut to the width of a bit-string type. -/
def bsOf (ty n : Nat) : Word := wd (n % 2 ^ tyWidth ty)

/-! ## Logic (R102) -/

def blkAnd : BlockDef := ⟨isOpc 0x041, sameIn, sameOut, 0, fun x => .q (x.ins.foldl (· &&& ·) 0xffffffff)⟩
def blkOr : BlockDef := ⟨isOpc 0x042, sameIn, sameOut, 0, fun x => .q (x.ins.foldl (· ||| ·) 0)⟩
def blkXor : BlockDef := ⟨isOpc 0x043, sameIn, sameOut, 0, fun x => .q (x.ins.foldl (· ^^^ ·) 0)⟩
def blkNot : BlockDef := ⟨isOpc 0x044, sameIn, sameOut, 0, fun x => .q (tyExt x.dty (~~~ x.w 0))⟩

/-- The second operand of a shift is UDINT. -/
def shiftIn (dty _ k : Nat) : Nat := if k = 0 then dty else tUDINT

def blkShl : BlockDef := ⟨isOpc 0x045, shiftIn, sameOut, 0, fun x =>
  let n := (x.w 1).toNat
  .q (if tyWidth x.dty ≤ n then 0 else bsOf x.dty ((x.w 0).toNat <<< n))⟩
def blkShr : BlockDef := ⟨isOpc 0x046, shiftIn, sameOut, 0, fun x =>
  let n := (x.w 1).toNat
  .q (if tyWidth x.dty ≤ n then 0 else wd ((x.w 0).toNat >>> n))⟩

/-- `v` rotated left by `n` in `w` bits. -/
def rotl (w v n : Nat) : Nat := let k := n % w; ((v <<< k) ||| (v >>> (w - k))) % 2 ^ w

def blkRol : BlockDef := ⟨isOpc 0x047, shiftIn, sameOut, 0, fun x =>
  .q (wd (rotl (tyWidth x.dty) (x.w 0).toNat (x.w 1).toNat))⟩
def blkRor : BlockDef := ⟨isOpc 0x048, shiftIn, sameOut, 0, fun x =>
  let w := tyWidth x.dty
  .q (wd (rotl w (x.w 0).toNat (w - (x.w 1).toNat % w)))⟩
def blkMove : BlockDef := ⟨isOpc 0x049, sameIn, sameOut, 0, fun x => .q (x.w 0)⟩

/-! ## Compare (R100, R102): the result is a BOOL -/

def boolOut (_ _ : Nat) : Nat := tBOOL

def blkEq : BlockDef := ⟨isOpc 0x081, sameIn, boolOut, 0, fun x => .q (b2w (cmpEq x.dty (x.w 0) (x.w 1)))⟩
def blkNe : BlockDef := ⟨isOpc 0x082, sameIn, boolOut, 0, fun x => .q (b2w (!cmpEq x.dty (x.w 0) (x.w 1)))⟩
def blkLt : BlockDef := ⟨isOpc 0x083, sameIn, boolOut, 0, fun x => .q (b2w (cmpLt x.dty (x.w 0) (x.w 1)))⟩
def blkLe : BlockDef := ⟨isOpc 0x084, sameIn, boolOut, 0, fun x => .q (b2w (cmpLe x.dty (x.w 0) (x.w 1)))⟩
def blkGt : BlockDef := ⟨isOpc 0x085, sameIn, boolOut, 0, fun x => .q (b2w (cmpLt x.dty (x.w 1) (x.w 0)))⟩
def blkGe : BlockDef := ⟨isOpc 0x086, sameIn, boolOut, 0, fun x => .q (b2w (cmpLe x.dty (x.w 1) (x.w 0)))⟩
def blkWin : BlockDef := ⟨isOpc 0x087, sameIn, boolOut, 0, fun x =>
  .q (b2w (cmpLe x.dty (x.w 0) (x.w 1) && cmpLe x.dty (x.w 1) (x.w 2)))⟩
def blkHyst : BlockDef := ⟨isOpc 0x088, sameIn, boolOut, 1, fun x =>
  let old := bit (x.iw 1) 0
  let q := if nanOf x.dty (x.w 0) || nanOf x.dty (x.w 1) || nanOf x.dty (x.w 2) then old
    else if cmpLt x.dty (x.w 1) (x.w 0) then true
    else if cmpLt x.dty (x.w 0) (x.w 2) then false
    else old
  .qi [b2w q] [b2w q]⟩

/-! ## Arithmetic (R96 to R99, R102) -/

/-- A wrapping operation: REAL by `f`, integers by `g`. -/
def arith (f : Word → Word → Word) (g : Int → Int → Int) (x : BIn) : BOut :=
  if x.dty = tREAL then .q (f (x.w 0) (x.w 1))
  else
    let r := wrapRes x.dty (g (x.v 0) (x.v 1))
    ⟨[some r.1], [], r.2, []⟩

def blkAdd : BlockDef := ⟨isOpc 0x0c1, sameIn, sameOut, 0, arith fAdd (· + ·)⟩
def blkSub : BlockDef := ⟨isOpc 0x0c2, sameIn, sameOut, 0, arith fSub (· - ·)⟩
def blkMul : BlockDef := ⟨isOpc 0x0c3, sameIn, sameOut, 0, arith fMul (· * ·)⟩

/-- The second output is ERR, a BOOL. -/
def errOut (dty k : Nat) : Nat := if k = 0 then dty else tBOOL

def blkDiv : BlockDef := ⟨isOpc 0x0c4, sameIn, errOut, 0, fun x =>
  let r := if x.dty = tREAL then fDivRes (x.w 0) (x.w 1) else divRes x.dty (x.v 0) (x.v 1)
  .q2 r.1 (b2w r.2)⟩
def blkMod : BlockDef := ⟨isOpc 0x0c5, sameIn, errOut, 0, fun x =>
  let r := modRes x.dty (x.v 0) (x.v 1)
  .q2 r.1 (b2w r.2)⟩
def blkAddS : BlockDef := ⟨isOpc 0x0c6, sameIn, sameOut, 0, fun x => .q (satRes x.dty (x.v 0 + x.v 1))⟩
def blkSubS : BlockDef := ⟨isOpc 0x0c7, sameIn, sameOut, 0, fun x => .q (satRes x.dty (x.v 0 - x.v 1))⟩
def blkMulS : BlockDef := ⟨isOpc 0x0c8, sameIn, sameOut, 0, fun x => .q (satRes x.dty (x.v 0 * x.v 1))⟩
def blkAbs : BlockDef := ⟨isOpc 0x0c9, sameIn, sameOut, 0, fun x =>
  if x.dty = tREAL then .q (if fIsNaN (x.w 0) then fNaN else x.w 0 &&& 0x7fffffff)
  else .q (satRes x.dty ((x.v 0).natAbs : Int))⟩
def blkSqrt : BlockDef := ⟨isOpc 0x0ca, sameIn, sameOut, 0, fun x => .q (fSqrt (x.w 0))⟩
def blkMuldiv : BlockDef := ⟨isOpc 0x0cb, sameIn, errOut, 0, fun x =>
  let r := mulDivRes x.dty (x.v 0) (x.v 1) (x.v 2)
  .q2 r.1 (b2w r.2)⟩

/-! ## Conversion and selection (R103, R104) -/

def blkTrunc : BlockDef := ⟨isOpc 0x102, fun _ _ _ => tREAL, sameOut, 0, fun x =>
  .q (satRes x.dty (fToIntTrunc (x.w 0)))⟩

/-- The source type of CONV is the member less 0x10; the value goes through `convSem`, which knows it. -/
def blkConvOf (src : Nat) : BlockDef := ⟨isOpc (0x110 + src), fun _ _ _ => src, sameOut, 0, fun x =>
  .q (convRes src x.dty (x.w 0))⟩

def blkSel : BlockDef := ⟨isOpc 0x141, fun dty _ k => if k = 0 then tBOOL else dty, sameOut, 0, fun x =>
  .q (if x.b 0 then x.w 2 else x.w 1)⟩
def blkMux : BlockDef := ⟨isOpc 0x142, fun dty _ k => if k = 0 then tUDINT else dty, sameOut, 0, fun x =>
  let n := x.ins.length - 1
  let k := (x.w 0).toNat
  .q (if k < n then x.w (k + 1) else x.w 1)⟩

/-- The earliest of the extreme operands; NaN if any is NaN (R100, R104). -/
def extreme (better : Word → Word → Bool) (x : BIn) : BOut :=
  if x.ins.any (nanOf x.dty) then .q fNaN
  else .q ((x.ins.drop 1).foldl (fun m w => if better w m then w else m) (x.w 0))

def blkMin : BlockDef := ⟨isOpc 0x143, sameIn, sameOut, 0, fun x => extreme (fun w m => cmpLt x.dty w m) x⟩
def blkMax : BlockDef := ⟨isOpc 0x144, sameIn, sameOut, 0, fun x => extreme (fun w m => cmpLt x.dty m w) x⟩
def blkLimit : BlockDef := ⟨isOpc 0x145, sameIn, sameOut, 0, fun x =>
  if x.ins.any (nanOf x.dty) then .q fNaN
  else if cmpLt x.dty (x.w 2) (x.w 0) then .q (x.w 0)
  else if cmpLt x.dty (x.w 1) (x.w 0) then .q (x.w 0)
  else if cmpLt x.dty (x.w 2) (x.w 1) then .q (x.w 2)
  else .q (x.w 1)⟩

/-! ## Edges and latches (R105) -/

def blkRTrig : BlockDef := ⟨isOpc 0x181, sameIn, sameOut, 1, fun x =>
  .qi [b2w (x.b 0 && !bit (x.iw 1) 0)] [b2w (x.b 0)]⟩
def blkFTrig : BlockDef := ⟨isOpc 0x182, sameIn, sameOut, 1, fun x =>
  .qi [b2w (bit (x.iw 1) 0 && !x.b 0)] [b2w (x.b 0)]⟩
def blkSr : BlockDef := ⟨isOpc 0x183, sameIn, sameOut, 1, fun x =>
  let q := x.b 0 || (bit (x.iw 1) 0 && !x.b 1)
  .qi [b2w q] [b2w q]⟩
def blkRs : BlockDef := ⟨isOpc 0x184, sameIn, sameOut, 1, fun x =>
  let q := !x.b 1 && (x.b 0 || bit (x.iw 1) 0)
  .qi [b2w q] [b2w q]⟩

end Sys2Proof.Machine
end

