-- ==== Sys2Proof/Machine/BlocksB.lean ====
section
/-!
DEFINITION. The blocks of the families Timers, Counters, Filters, Control, Tables and Sequences
(spec/04_block_library.md R106 to R115, R506).
-/
namespace Sys2Proof.Machine

/-- The greatest TIME. -/
def timeMax : Int := 2147483647

/-- A TIME that stops at its greatest value. -/
def timeAdd (t dt : Int) : Int := min (t + dt) timeMax

/-! ## Timers (R107, R108): instance word 1 ET, word 2 M, RUN and Q -/

/-- BOOL inputs before the last operand, PT. -/
def timerIn (n : Nat) (_ _ k : Nat) : Nat := if k < n then tBOOL else tTIME
def timerOut (_ k : Nat) : Nat := if k = 0 then tBOOL else tTIME

def timerQ (q : Bool) (et : Int) (m run : Bool) : BOut :=
  .qi [b2w q, wi et] [wi et, wd (b2n m + 2 * b2n run + 4 * b2n q)]

def BIn.et (x : BIn) : Int := sfld (x.iw 1) 0 32
def BIn.m (x : BIn) : Bool := bit (x.iw 2) 0

def blkTon : BlockDef := ⟨isOpc 0x1c1, timerIn 1, timerOut, 2, fun x =>
  let pt := max (x.time 1) 0
  let et := if !x.b 0 then 0 else if !x.m then 0 else min (x.et + x.dt) pt
  timerQ (x.b 0 && decide (pt ≤ et)) et (x.b 0) false⟩
def blkTof : BlockDef := ⟨isOpc 0x1c2, timerIn 1, timerOut, 2, fun x =>
  let pt := max (x.time 1) 0
  let et := if x.b 0 then 0 else if x.m then 0 else min (x.et + x.dt) pt
  timerQ (x.b 0 || decide (et < pt)) et (x.b 0) false⟩
def blkTp : BlockDef := ⟨isOpc 0x1c3, timerIn 1, timerOut, 2, fun x =>
  let pt := max (x.time 1) 0
  let run := bit (x.iw 2) 1
  let r : Bool × Int :=
    if run then (true, min (x.et + x.dt) pt)
    else if x.b 0 && !x.m then (true, 0)
    else if !x.b 0 then (false, 0)
    else (false, min x.et pt)
  let run := r.1 && !decide (pt ≤ r.2)
  timerQ run r.2 (x.b 0) run⟩
def blkTacc : BlockDef := ⟨isOpc 0x1c4, timerIn 2, timerOut, 2, fun x =>
  let pt := max (x.time 2) 0
  let et := if x.b 1 then 0 else if x.b 0 && x.m then min (x.et + x.dt) pt else min x.et pt
  timerQ (decide (pt ≤ et) && !x.b 1) et (x.b 0) false⟩

/-! ## Counters (R109, R110): instance word 1 CV, word 2 MU and MD -/

def ctIn (n : Nat) (dty _ k : Nat) : Nat := if k < n then tBOOL else dty
def ctOut (n : Nat) (dty k : Nat) : Nat := if k < n then tBOOL else dty

def blkCtu : BlockDef := ⟨isOpc 0x201, ctIn 2, ctOut 1, 2, fun x =>
  let cv := tyVal x.dty (x.iw 1)
  let up := x.b 0 && !bit (x.iw 2) 0
  let n := if x.b 1 then 0 else if up && decide (cv < tyMax x.dty) then cv + 1 else cv
  .qi [b2w (decide (x.v 2 ≤ n)), tyOf x.dty n] [tyOf x.dty n, b2w (x.b 0)]⟩
def blkCtd : BlockDef := ⟨isOpc 0x202, ctIn 2, ctOut 1, 2, fun x =>
  let cv := tyVal x.dty (x.iw 1)
  let dn := x.b 0 && !bit (x.iw 2) 1
  let n := if x.b 1 then x.v 2 else if dn && decide (tyMin x.dty < cv) then cv - 1 else cv
  .qi [b2w (decide (n ≤ 0)), tyOf x.dty n] [tyOf x.dty n, wd (2 * b2n (x.b 0))]⟩
def blkCtud : BlockDef := ⟨isOpc 0x203, ctIn 4, ctOut 2, 2, fun x =>
  let cv := tyVal x.dty (x.iw 1)
  let up := x.b 0 && !bit (x.iw 2) 0
  let dn := x.b 1 && !bit (x.iw 2) 1
  let n :=
    if x.b 2 then 0
    else if x.b 3 then x.v 4
    else if up && !dn && decide (cv < tyMax x.dty) then cv + 1
    else if dn && !up && decide (tyMin x.dty < cv) then cv - 1
    else cv
  .qi [b2w (decide (x.v 4 ≤ n)), b2w (decide (n ≤ 0)), tyOf x.dty n]
    [tyOf x.dty n, wd (b2n (x.b 0) + 2 * b2n (x.b 1))]⟩

/-! ## Filters (R111, R112) -/

/-- Δt as a REAL, and the constant 1,000,000. -/
def BIn.dtF (x : BIn) : Word := fOfInt x.dt
def fMillion : Word := fOfInt 1000000

def blkLag1 : BlockDef := ⟨isOpc 0x241, fun _ _ k => pick [tREAL, tTIME] k, sameOut, 1, fun x =>
  let q := x.iw 1
  let i := x.w 0
  let tc := x.time 1
  let n :=
    if fIsNaN i then q
    else if fIsNaN q then i
    else if x.dt = 0 then q
    else if tc ≤ 0 then i
    else
      let s := fDiv x.dtF (fOfInt tc)
      if fLe (fOfInt 1) s then i else fAdd q (fMul (fSub i q) s)
  .qi [n] [n]⟩
def blkDebnc : BlockDef := ⟨isOpc 0x242, fun _ _ k => pick [tBOOL, tTIME] k, sameOut, 2, fun x =>
  let q := bit (x.iw 2) 0
  let t := if x.b 0 = q then 0 else timeAdd (x.et) x.dt
  let r : Bool × Int := if x.time 1 ≤ t then (x.b 0, 0) else (q, t)
  .qi [b2w r.1] [wi r.2, b2w r.1]⟩

/-- The sum of REAL samples, in the order given (R112). -/
def fSum : List Word → Word
  | [] => 0
  | w :: r => r.foldl fAdd w

def blkMavg : BlockDef := ⟨isOpc 0x243, fun dty _ k => if k = 0 then dty else tUDINT, sameOut, 67, fun x =>
  let n := max 1 (min 64 (x.w 1).toNat)
  let w1 := x.iw 1
  let same := fld w1 16 7 == n
  let idx := if same then fld w1 0 6 % n else 0
  let fill := if same then min (fld w1 8 7) n else 0
  let old := x.inst.drop 3
  let sum : Int := if same then sfld (dword (x.iw 3) (x.iw 2)) 0 64 else 0
  let sum := if fill = n then sum - sfld (old.getD idx 0) 0 32 else sum
  let samples := old.set idx (x.w 0)
  let idx' := (idx + 1) % n
  let fill' := min (fill + 1) n
  let sum := sum + sfld (x.w 0) 0 32
  let start := if fill' = n then idx' else 0
  let inOrder := (List.range fill').map fun k => samples.getD ((start + k) % n) 0
  let w1' := wd (idx' + fill' * 0x100 + n * 0x10000)
  if x.dty = tREAL then .qi [fDiv (fSum inOrder) (fOfInt fill')] ([w1', 0, 0] ++ samples)
  else
    let sw : Dword := BitVec.ofInt 64 sum
    .qi [tyOf tDINT (Int.tdiv sum fill')] ([w1', lo32 sw, hi32 sw] ++ samples)⟩

/-- RATEL (R112): Q moves by the rounded step, or to IN where that comes first (DESIGN CHOICE, log entry 63). -/
def blkRatel : BlockDef := ⟨isOpc 0x244, sameIn, sameOut, 1, fun x =>
  let q := x.iw 1
  let i := x.w 0
  let n :=
    if fIsNaN i || fIsNaN (x.w 1) || fIsNaN (x.w 2) then q
    else if fIsNaN q then i
    else if fLt q i then
      if fLe (x.w 1) 0 then i
      else
        let r := fAdd q (fDiv (fMul (x.w 1) x.dtF) fMillion)
        if fLt i r then i else r
    else if fLt i q then
      if fLe (x.w 2) 0 then i
      else
        let r := fSub q (fDiv (fMul (x.w 2) x.dtF) fMillion)
        if fLt r i then i else r
    else q
  .qi [n] [n]⟩

/-! ## Control (R113): I, PVPREV, YPREV, PVVALID -/

/-- PI and PID: operands PV, SP, KP, TI, (TD,) YMIN, YMAX, MAN, YMAN. -/
def pidSem (hasTd : Bool) (x : BIn) : BOut :=
  let o := if hasTd then 1 else 0
  let pv := x.w 0
  let sp := x.w 1
  let kp := x.w 2
  let ti := x.time 3
  let td : Int := if hasTd then x.time 4 else 0
  let ymin := x.w (4 + o)
  let ymax0 := x.w (5 + o)
  let man := x.b (6 + o)
  let yman := x.w (7 + o)
  if fIsNaN pv || fIsNaN sp || fIsNaN kp || fIsNaN ymin || fIsNaN ymax0 || (man && fIsNaN yman) then
    .qi [x.iw 3, 1] [x.iw 1, x.iw 2, x.iw 3, x.iw 4 &&& 1]
  else
    let ymax := if fLt ymax0 ymin then ymin else ymax0
    let s := fDiv x.dtF fMillion
    let e := fSub sp pv
    let p := fMul kp e
    let d :=
      if 0 < td ∧ 0 < x.dt ∧ bit (x.iw 4) 0 then
        fDiv (fMul (fMul (fNeg kp) (fDiv (fOfInt td) fMillion)) (fSub pv (x.iw 2))) s
      else 0
    let r : Word × Word :=
      if man then
        let y := fLimit yman ymin ymax
        (y, fSub (fSub y p) d)
      else
        let i := x.iw 1
        let i := if 0 < ti ∧ 0 < x.dt then fAdd i (fDiv (fMul (fMul kp e) s) (fDiv (fOfInt ti) fMillion)) else i
        let i := fLimit i (fSub (fSub ymin p) d) (fSub (fSub ymax p) d)
        (fLimit (fAdd (fAdd p i) d) ymin ymax, i)
    .qi [r.1, b2w (fEq r.1 ymin || fEq r.1 ymax)] [r.2, pv, r.1, 1]

def blkPi : BlockDef := ⟨isOpc 0x281, fun _ _ k => pick [tREAL, tREAL, tREAL, tTIME, tREAL, tREAL, tBOOL, tREAL] k, errOut, 4,
  pidSem false⟩
def blkPid : BlockDef := ⟨isOpc 0x282, fun _ _ k => pick [tREAL, tREAL, tREAL, tTIME, tTIME, tREAL, tREAL, tBOOL, tREAL] k,
  errOut, 4, pidSem true⟩

/-! ## Tables (R114) -/

/-- The points of a LIN table at constant index `c`. -/
def BIn.points (x : BIn) (c : Nat) : List (Word × Word) :=
  (List.range (x.konst c).toNat).map fun k => (x.konst (c + 1 + 2 * k), x.konst (c + 2 + 2 * k))

/-- Between two points: DINT truncated towards zero, on exact integers also where the product leaves 64 bits (R114; DESIGN CHOICE,
log entry 63), REAL by R506. -/
def interpolate (ty : Nat) (v : Word) (p q : Word × Word) : Word :=
  if ty = tREAL then fAdd p.2 (fDiv (fMul (fSub v p.1) (fSub q.2 p.2)) (fSub q.1 p.1))
  else
    let x0 := tyVal ty p.1
    let y0 := tyVal ty p.2
    tyOf ty (y0 + Int.tdiv ((tyVal ty v - x0) * (tyVal ty q.2 - y0)) (tyVal ty q.1 - x0))

/-- The value of the table at `v`, from the point before on. -/
def linAt (ty : Nat) (v : Word) (p : Word × Word) : List (Word × Word) → Word
  | [] => p.2
  | q :: r => if cmpLt ty v q.1 then interpolate ty v p q else linAt ty v q r

def blkLin : BlockDef := ⟨isOpc 0x2c1, fun dty _ k => if k = 0 then dty else tDWORD, sameOut, 0, fun x =>
  let ps := x.points (x.tabs.getD 1 0)
  let v := x.w 0
  if nanOf x.dty v then .q fNaN
  else match ps with
    | [] => .q 0
    | p :: r => .q (if cmpLe x.dty v p.1 then p.2 else linAt x.dty v p r)⟩
def blkScale : BlockDef := ⟨isOpc 0x2c2, sameIn, sameOut, 0, fun x =>
  .q (if fEq (x.w 2) (x.w 1) then x.w 3
    else fAdd (x.w 3) (fDiv (fMul (fSub (x.w 0) (x.w 1)) (fSub (x.w 4) (x.w 3))) (fSub (x.w 2) (x.w 1))))⟩
def blkLookup : BlockDef := ⟨isOpc 0x2c3, fun _ _ k => if k = 0 then tUDINT else tDWORD, errOut, 0, fun x =>
  let c := x.tabs.getD 1 0
  let i := (x.w 0).toNat
  let n := (x.konst c).toNat
  if i < n then .q2 (tyExt x.dty (x.konst (c + 1 + i))) 0 else .q2 (tyExt x.dty (x.konst (c + 1))) 1⟩

/-! ## Sequences (R115): SNO, TS -/

/-- SEQ and SEQT, `next` giving the step after a step. -/
def seqSem (next : BIn → Nat → Nat) (x : BIn) : BOut :=
  let n := (x.w 2).toNat
  let s0 := (x.iw 1).toNat
  let bad := n ≤ s0
  let sno := if bad then 0 else s0
  let ts : Int := if bad then 0 else sfld (x.iw 2) 0 32
  let r : Nat × Int :=
    if x.b 0 then (0, 0)
    else if bit (x.w 1) sno then (next x sno, 0)
    else (sno, timeAdd ts x.dt)
  .qi [wd r.1, wd (2 ^ r.1), wi r.2] [wd r.1, wi r.2]

def seqIn (_ _ k : Nat) : Nat := pick [tBOOL, tDWORD, tUDINT, tUDINT] k
def seqOut (_ k : Nat) : Nat := pick [tUDINT, tDWORD, tTIME] k

def blkSeq : BlockDef := ⟨isOpc 0x301, seqIn, seqOut, 2, seqSem fun x s => (s + 1) % (x.w 2).toNat⟩
def blkSeqt : BlockDef := ⟨isOpc 0x302, seqIn, seqOut, 2, seqSem fun x s => (x.konst (x.tabs.getD 3 0 + s)).toNat⟩

end Sys2Proof.Machine
end

