-- ==== Sys2Proof/Machine/BlocksC.lean ====
section
/-!
DEFINITION. The blocks of the families Safety, Axis, Communication, Mailbox and Recorder (spec/04_block_library.md R116 to
R129).
-/
namespace Sys2Proof.Machine

/-! ## Safety (R116 to R122) -/

/-- A program fault staged for the commit instant: descriptor and instance address in the payload (R122). -/
def BIn.fault (x : BIn) (code : Nat) : Effect := .record none (BitVec.ofNat 16 code) [wd x.d, wd x.iref]

/-- Two BOOL outputs. -/
def out2 (a b : Bool) : List (Option Word) := [some (b2w a), some (b2w b)]

def blkGuard : BlockDef := ⟨isOpc 0x341, sameIn, sameOut, 1, fun x =>
  let tested := bit (x.iw 1) 0 || (!x.b 0 && x.b 1)
  let tpend := x.b 2 && !tested
  ⟨out2 (x.b 0 && x.b 1 && !tpend) tpend, [b2w tested], false, []⟩⟩

/-- TMAX (R119): 0 stands for 5 s, other values are clamped to 100 ms to 10 s. -/
def resetTmax (t : Int) : Int := if t = 0 then 5000000 else max 100000 (min 10000000 t)

def blkReset : BlockDef := ⟨isOpc 0x342, fun _ _ k => pick [tBOOL, tBOOL, tTIME] k, sameOut, 2, fun x =>
  let rst := x.b 0
  let qr := x.b 1
  let t0 := x.et
  let armed := bit (x.iw 2) 0
  let m := bit (x.iw 2) 1
  let stuck := bit (x.iw 2) 2
  let w2 (a s : Bool) : Word := wd (b2n a + 2 * b2n (rst && qr) + 4 * b2n s)
  if !qr then ⟨out2 false stuck, [0, w2 false stuck], false, []⟩
  else if !rst then ⟨out2 false false, [0, w2 true false], false, []⟩
  else
    let t := timeAdd t0 x.dt
    let now := decide (resetTmax (x.time 2) < t) && !stuck
    let st := stuck || now
    ⟨out2 (armed && !m) st, [wi t, w2 (armed && !st) st], false, if now then [x.fault 0x0881] else []⟩⟩

/-- ANTIV and EQUIV (R120): `run` and `demand` say which of the two agreeing states the pair is in. -/
def pairSem (run demand : Bool → Bool → Bool) (x : BIn) : BOut :=
  let a := x.b 0
  let b := x.b 1
  let disc := bit (x.iw 2) 0
  if !x.b 2 then ⟨out2 false disc, [0, b2w disc], false, []⟩
  else if run a b then ⟨out2 (!disc) disc, [0, b2w disc], false, []⟩
  else if demand a b then ⟨out2 false false, [0, 0], false, []⟩
  else
    let t := timeAdd x.et x.dt
    let d := disc || decide (x.time 3 < t)
    ⟨out2 false d, [wi t, b2w d], false, if d && !disc then [x.fault 0x0882] else []⟩

def pairIn (_ _ k : Nat) : Nat := pick [tBOOL, tBOOL, tBOOL, tTIME] k

def blkAntiv : BlockDef := ⟨isOpc 0x343, pairIn, sameOut, 2, pairSem (fun a b => a && !b) (fun a b => !a && b)⟩
def blkEquiv : BlockDef := ⟨isOpc 0x344, pairIn, sameOut, 2, pairSem (fun a b => a && b) (fun a b => !a && !b)⟩

def blkFbmon : BlockDef := ⟨isOpc 0x345, fun _ _ k => pick [tBOOL, tBOOL, tBOOL, tTIME, tBOOL] k, sameOut, 2, fun x =>
  let cmd := x.b 0
  let fb := x.b 1
  let qfb := x.b 2
  let flt0 := bit (x.iw 2) 0
  let t := if !qfb || fb != cmd then timeAdd x.et x.dt else 0
  let flt := flt0 || decide (x.time 3 < t) || (cmd && !bit (x.iw 2) 1 && fb)
  let clear := x.b 4 && !cmd && !fb && qfb
  let t' := if clear then 0 else t
  let flt' := flt && !clear
  ⟨out2 (cmd && !flt') flt', [wi t', wd (b2n flt' + 2 * b2n cmd)], false,
    if flt && !flt0 then [x.fault 0x0883] else []⟩⟩

/-! ## Axis (R123 to R125) -/

def blkSpeed : BlockDef := ⟨isOpc 0x381, fun _ _ _ => tPOS, sameOut, 2, fun x =>
  let v := if x.dt = 0 || !bit (x.iw 2) 0 then 0
    else satRes tDINT (Int.tdiv (sfld (x.w 0 - x.iw 1) 0 32 * 1000000) x.dt)
  .qi [v] [x.w 0, 1]⟩
def blkCmparm : BlockDef := ⟨isOpc 0x382, fun _ _ k => pick [tUDINT, tUDINT, tPOS, tUDINT, tBOOL] k, fun _ _ => tUDINT, 1,
  fun x => ⟨[some x.rep], [0], false, [.arm x.iref (x.w 0).toNat (x.w 1).toNat (x.w 2) (x.w 3) (x.b 4)]⟩⟩
def blkSmosel : BlockDef := ⟨isOpc 0x383, sameIn, sameOut, 1, fun x =>
  ⟨[some x.rep], [0], false, [.select x.iref (x.w 0).toNat (x.w 1)]⟩⟩

/-! ## Communication (R126) -/

def blkQchk : BlockDef := ⟨isOpc 0x3c1, fun _ _ k => pick [tUDINT, tTIME] k, fun _ k => pick [tBOOL, tTIME] k, 0, fun x =>
  let age := fld (x.w 0) 0 24
  .q2 (b2w (bit (x.w 0) 31 && decide ((age : Int) ≤ x.time 1))) (wd age)⟩
def blkPack : BlockDef := ⟨isOpc 0x3c2, fun _ _ _ => tBOOL, sameOut, 0, fun x =>
  .q (packBits x.ins.length fun k => x.b k)⟩
def blkUnpack : BlockDef := ⟨isOpc 0x3c3, sameIn, boolOut, 0, fun x =>
  ⟨(List.range x.nout).map fun k => some (b2w (bit (x.w 0) k)), [], false, []⟩⟩
def blkBswap : BlockDef := ⟨isOpc 0x3c4, sameIn, sameOut, 0, fun x =>
  .q (wd (beNat (bytesLE (x.w 0) (tyWidth x.dty / 8))))⟩

/-! ## Mailbox and recorder (R127 to R129) -/

def blkMbsend : BlockDef := ⟨isOpc 0x401, fun _ _ k => pick [tBOOL, tUDINT, tDWORD] k, fun _ _ => tUDINT, 1, fun x =>
  ⟨[some x.rep], [0], false, if x.b 0 then [.message x.iref (x.w 1).toNat (x.ins.drop 2)] else []⟩⟩
/-- MBRECV (R128): of a message shorter than its words, the words it has not stay unwritten (DESIGN CHOICE, log entry 63). -/
def blkMbrecv : BlockDef := ⟨isOpc 0x402, fun _ _ k => pick [tBOOL, tUDINT] k, fun _ k => pick [tUDINT, tUDINT, tDWORD] k, 1,
  fun x =>
    let ch := (x.w 1).toNat
    match if x.b 0 then x.mb.find? (fun m => m.1 == ch) else none with
    | none => ⟨[some 0, none], [0], false, []⟩
    | some (_, sep, ws) =>
      ⟨[some (wd ws.length), some (wd sep)] ++ ws.map some, [0], false, [.pop ch]⟩⟩
def blkRecev : BlockDef := ⟨isOpc 0x441, fun _ _ k => pick [tBOOL, tUDINT, tDWORD] k, fun _ _ => tUDINT, 1, fun x =>
  ⟨[some x.rep], [b2w (x.b 0)], false,
    if x.b 0 && !bit (x.iw 1) 0 then [.record (some x.iref) (BitVec.ofNat 16 (x.w 1).toNat) (x.ins.drop 2)] else []⟩⟩

/-! ## The library (R93) -/

/-- Every block of the library but CONV. -/
def library : List BlockDef :=
  [blkAnd, blkOr, blkXor, blkNot, blkShl, blkShr, blkRol, blkRor, blkMove, blkEq, blkNe, blkLt, blkLe, blkGt, blkGe, blkWin,
    blkHyst, blkAdd, blkSub, blkMul, blkDiv, blkMod, blkAddS, blkSubS, blkMulS, blkAbs, blkSqrt, blkMuldiv] ++
  [blkTrunc, blkSel, blkMux, blkMin, blkMax, blkLimit, blkRTrig, blkFTrig, blkSr, blkRs, blkTon, blkTof, blkTp, blkTacc, blkCtu,
    blkCtd, blkCtud, blkLag1, blkDebnc, blkMavg, blkRatel, blkPi, blkPid, blkLin, blkScale, blkLookup, blkSeq, blkSeqt] ++
  [blkGuard, blkReset, blkAntiv, blkEquiv, blkFbmon, blkSpeed, blkCmparm, blkSmosel, blkQchk, blkPack, blkUnpack, blkBswap,
    blkMbsend, blkMbrecv, blkRecev]

/-- The block with an opcode; CONV's member carries its source type (R103). -/
def blockOf (opc : Nat) : Option BlockDef :=
  if 0x110 ≤ opc ∧ opc ≤ 0x11c then some (blkConvOf (opc - 0x110)) else library.find? fun b => b.opc opc

/-- Any CONV. -/
def isConv (o : Nat) : Bool := 0x110 ≤ o && o ≤ 0x11c

end Sys2Proof.Machine
end

