-- ==== Sys2Proof/Machine/Blocks.lean ====
section
/-!
DEFINITION. The block commands: each executes the block the lanes stand at if it is one of its kind
(spec/04_block_library.md R93, R94), one definition for each.
-/
namespace Sys2Proof.Machine

def execBAnd (u : Upset) (s : State) : Answer := .next (s.blockCmd blkAnd u)
def execBOr (u : Upset) (s : State) : Answer := .next (s.blockCmd blkOr u)
def execBXor (u : Upset) (s : State) : Answer := .next (s.blockCmd blkXor u)
def execBNot (u : Upset) (s : State) : Answer := .next (s.blockCmd blkNot u)
def execBShl (u : Upset) (s : State) : Answer := .next (s.blockCmd blkShl u)
def execBShr (u : Upset) (s : State) : Answer := .next (s.blockCmd blkShr u)
def execBRol (u : Upset) (s : State) : Answer := .next (s.blockCmd blkRol u)
def execBRor (u : Upset) (s : State) : Answer := .next (s.blockCmd blkRor u)
def execBMove (u : Upset) (s : State) : Answer := .next (s.blockCmd blkMove u)
def execBEq (u : Upset) (s : State) : Answer := .next (s.blockCmd blkEq u)
def execBNe (u : Upset) (s : State) : Answer := .next (s.blockCmd blkNe u)
def execBLt (u : Upset) (s : State) : Answer := .next (s.blockCmd blkLt u)
def execBLe (u : Upset) (s : State) : Answer := .next (s.blockCmd blkLe u)
def execBGt (u : Upset) (s : State) : Answer := .next (s.blockCmd blkGt u)
def execBGe (u : Upset) (s : State) : Answer := .next (s.blockCmd blkGe u)
def execBWin (u : Upset) (s : State) : Answer := .next (s.blockCmd blkWin u)
def execBHyst (u : Upset) (s : State) : Answer := .next (s.blockCmd blkHyst u)
def execBAdd (u : Upset) (s : State) : Answer := .next (s.blockCmd blkAdd u)
def execBSub (u : Upset) (s : State) : Answer := .next (s.blockCmd blkSub u)
def execBMul (u : Upset) (s : State) : Answer := .next (s.blockCmd blkMul u)
def execBDiv (u : Upset) (s : State) : Answer := .next (s.blockCmd blkDiv u)
def execBMod (u : Upset) (s : State) : Answer := .next (s.blockCmd blkMod u)
def execBAddS (u : Upset) (s : State) : Answer := .next (s.blockCmd blkAddS u)
def execBSubS (u : Upset) (s : State) : Answer := .next (s.blockCmd blkSubS u)
def execBMulS (u : Upset) (s : State) : Answer := .next (s.blockCmd blkMulS u)
def execBAbs (u : Upset) (s : State) : Answer := .next (s.blockCmd blkAbs u)
def execBSqrt (u : Upset) (s : State) : Answer := .next (s.blockCmd blkSqrt u)
def execBMuldiv (u : Upset) (s : State) : Answer := .next (s.blockCmd blkMuldiv u)
def execBTrunc (u : Upset) (s : State) : Answer := .next (s.blockCmd blkTrunc u)
/-- CONV: any source type (R103). -/
def execBConv (u : Upset) (s : State) : Answer :=
  match s.nextBlock with
  | none => .next s
  | some (_, _, d) =>
    let opc := fld (s.pimRd (s.descAt d)) 0 12
    if isConv opc then .next (s.blockCmd (blkConvOf (opc - 0x110)) u) else .next s
def execBSel (u : Upset) (s : State) : Answer := .next (s.blockCmd blkSel u)
def execBMux (u : Upset) (s : State) : Answer := .next (s.blockCmd blkMux u)
def execBMin (u : Upset) (s : State) : Answer := .next (s.blockCmd blkMin u)
def execBMax (u : Upset) (s : State) : Answer := .next (s.blockCmd blkMax u)
def execBLimit (u : Upset) (s : State) : Answer := .next (s.blockCmd blkLimit u)
def execBRTrig (u : Upset) (s : State) : Answer := .next (s.blockCmd blkRTrig u)
def execBFTrig (u : Upset) (s : State) : Answer := .next (s.blockCmd blkFTrig u)
def execBSr (u : Upset) (s : State) : Answer := .next (s.blockCmd blkSr u)
def execBRs (u : Upset) (s : State) : Answer := .next (s.blockCmd blkRs u)
def execBTon (u : Upset) (s : State) : Answer := .next (s.blockCmd blkTon u)
def execBTof (u : Upset) (s : State) : Answer := .next (s.blockCmd blkTof u)
def execBTp (u : Upset) (s : State) : Answer := .next (s.blockCmd blkTp u)
def execBTacc (u : Upset) (s : State) : Answer := .next (s.blockCmd blkTacc u)
def execBCtu (u : Upset) (s : State) : Answer := .next (s.blockCmd blkCtu u)
def execBCtd (u : Upset) (s : State) : Answer := .next (s.blockCmd blkCtd u)
def execBCtud (u : Upset) (s : State) : Answer := .next (s.blockCmd blkCtud u)
def execBLag1 (u : Upset) (s : State) : Answer := .next (s.blockCmd blkLag1 u)
def execBDebnc (u : Upset) (s : State) : Answer := .next (s.blockCmd blkDebnc u)
def execBMavg (u : Upset) (s : State) : Answer := .next (s.blockCmd blkMavg u)
def execBRatel (u : Upset) (s : State) : Answer := .next (s.blockCmd blkRatel u)
def execBPi (u : Upset) (s : State) : Answer := .next (s.blockCmd blkPi u)
def execBPid (u : Upset) (s : State) : Answer := .next (s.blockCmd blkPid u)
def execBLin (u : Upset) (s : State) : Answer := .next (s.blockCmd blkLin u)
def execBScale (u : Upset) (s : State) : Answer := .next (s.blockCmd blkScale u)
def execBLookup (u : Upset) (s : State) : Answer := .next (s.blockCmd blkLookup u)
def execBSeq (u : Upset) (s : State) : Answer := .next (s.blockCmd blkSeq u)
def execBSeqt (u : Upset) (s : State) : Answer := .next (s.blockCmd blkSeqt u)
def execBGuard (u : Upset) (s : State) : Answer := .next (s.blockCmd blkGuard u)
def execBReset (u : Upset) (s : State) : Answer := .next (s.blockCmd blkReset u)
def execBAntiv (u : Upset) (s : State) : Answer := .next (s.blockCmd blkAntiv u)
def execBEquiv (u : Upset) (s : State) : Answer := .next (s.blockCmd blkEquiv u)
def execBFbmon (u : Upset) (s : State) : Answer := .next (s.blockCmd blkFbmon u)
def execBSpeed (u : Upset) (s : State) : Answer := .next (s.blockCmd blkSpeed u)
def execBCmparm (u : Upset) (s : State) : Answer := .next (s.blockCmd blkCmparm u)
def execBSmosel (u : Upset) (s : State) : Answer := .next (s.blockCmd blkSmosel u)
def execBQchk (u : Upset) (s : State) : Answer := .next (s.blockCmd blkQchk u)
def execBPack (u : Upset) (s : State) : Answer := .next (s.blockCmd blkPack u)
def execBUnpack (u : Upset) (s : State) : Answer := .next (s.blockCmd blkUnpack u)
def execBBswap (u : Upset) (s : State) : Answer := .next (s.blockCmd blkBswap u)
def execBMbsend (u : Upset) (s : State) : Answer := .next (s.blockCmd blkMbsend u)
def execBMbrecv (u : Upset) (s : State) : Answer := .next (s.blockCmd blkMbrecv u)
def execBRecev (u : Upset) (s : State) : Answer := .next (s.blockCmd blkRecev u)

end Sys2Proof.Machine
end

