-- ==== Sys2Proof/Machine/Wire.lean ====
section
/-!
DEFINITION. The bytes of frame contents that the model holds as fields: what the host rings carry of ARP, process data and
PTP (spec/11_train_network.md R292, R293, R297, spec/13_time.md R342). The spec gives the fields and no byte offsets: those of
IEEE 802.3, IPv4, UDP, TRDP and IEEE 1588 are taken (PRESUMED, log entry 58); a byte that no field gives is free.
-/
namespace Sys2Proof.Machine

/-- `n` bytes: those that stand at an offset, and free ones elsewhere. -/
def patch (free : List Byte) (n : Nat) (known : List (Nat × List Byte)) : List Byte :=
  (List.range n).map fun i =>
    match known.find? fun k => decide (k.1 ≤ i) && decide (i < k.1 + k.2.length) with
    | some k => k.2.getD (i - k.1) 0
    | none => free.getD i 0

/-- A number from bytes `i` on, most significant first. -/
def beAt (bs : List Byte) (i n : Nat) : Nat := beNat ((bs.drop i).take n)

/-- The UDP port of process data (R297). -/
def pdPort : Half := 17224

/-- The TRDP header of a process-data datagram without its FCS (R297). -/
def pdHeader (d : PdFrame) : List Byte :=
  natBytesBE d.seq.toNat 4 ++ natBytesBE d.version.toNat 2 ++ natBytesBE d.msgType.toNat 2 ++ natBytesBE d.comId.toNat 4 ++
    natBytesBE d.etbTopo.toNat 4 ++ natBytesBE d.opTopo.toNat 4 ++ natBytesBE d.dsLen 4 ++ natBytesBE d.reserved.toNat 4 ++
    natBytesBE d.replyCom.toNat 4 ++ natBytesBE d.replyIp.toNat 4

/-- A process-data datagram from the EtherType on. -/
def pdKnown (d : PdFrame) : List (Nat × List Byte) :=
  let n := d.data.length
  let fcs := crc32 (pdHeader d)
  [(0, [0x08, 0x00]), (2, [0x45, BitVec.ofNat 8 (4 * d.dscp.toNat)]), (4, natBytesBE (68 + n) 2), (10, [d.ttl, 17]),
    (14, natBytesBE d.srcIp.toNat 4), (18, natBytesBE d.dstIp.toNat 4), (22, natBytesBE d.srcPort.toNat 2),
    (24, natBytesBE d.dstPort.toNat 2), (26, natBytesBE (48 + n) 2), (30, pdHeader d)] ++
    (if d.fcsOk then [(66, bytesLE fcs 4)] else []) ++ [(70, d.data)]

/-- The message type of PTP; none for the messages that R342 discards. -/
def ptpCode : PtpKind → Option Nat
  | .sync => some 0
  | .delayReq => some 1
  | .pdelayReq => some 2
  | .pdelayResp => some 3
  | .followUp => some 8
  | .delayResp => some 9
  | .pdelayRespFollowUp => some 10
  | .announce => some 11
  | .other => none

def ptpKindOf (c : Nat) : PtpKind :=
  match c with
  | 0 => .sync
  | 1 => .delayReq
  | 2 => .pdelayReq
  | 3 => .pdelayResp
  | 8 => .followUp
  | 9 => .delayResp
  | 10 => .pdelayRespFollowUp
  | 11 => .announce
  | _ => .other

/-- A PTP message whose first byte stands at `o`. -/
def ptpKnown (m : PtpMsg) (o : Nat) : List (Nat × List Byte) :=
  let a := m.ann
  let utc := match a.utc with
    | some u => [(o + 44, natBytesBE u.toNat 2)]
    | none => []
  (match ptpCode m.kind with
    | some c => [(o, [BitVec.ofNat 8 c])]
    | none => []) ++
    [(o + 4, [m.hdr.domain]), (o + 6, [if m.twoStep then 2 else 0, if a.utc.isSome then 4 else 0]),
      (o + 8, natBytesBE (BitVec.ofInt 64 (m.hdr.corr * 65536)).toNat 8), (o + 20, natBytesBE m.hdr.src.toNat 8),
      (o + 30, natBytesBE m.hdr.seq.toNat 2), (o + 34, natBytesBE (m.origin / 1000000000) 6),
      (o + 40, natBytesBE (m.origin % 1000000000) 4)] ++
    (if m.kind = .announce then
      utc ++ [(o + 47, [a.p1, a.cls, a.acc]), (o + 50, natBytesBE a.var.toNat 2), (o + 52, [a.p2]),
        (o + 53, natBytesBE a.gm.toNat 8), (o + 61, natBytesBE a.steps.toNat 2)]
    else [])

/-- The multicast addresses of PTP over IEEE 802.3. -/
def ptpL2Macs : List (BitVec 48) := [0x011b19000000, 0x0180c200000e]

/-- The event messages, which go to UDP port 319; the others go to 320. -/
def ptpEvent : PtpKind → Bool
  | .sync => true
  | .delayReq => true
  | .pdelayReq => true
  | .pdelayResp => true
  | .followUp => false
  | .delayResp => false
  | .pdelayRespFollowUp => false
  | .announce => false
  | .other => false

/-- A frame's content from the EtherType on; `n` bytes of it stand in the frame. -/
def bodyBytes (l2 : Bool) (n : Nat) (b : NetBody) : List Byte :=
  match b with
  | .other t bs => natBytesBE t.toNat 2 ++ bs
  | .arp a => natBytesBE 0x08060001 4 ++ natBytesBE 0x080006040000 6 ++ [if a.reply then 2 else 1] ++
      natBytesBE a.senderMac.toNat 6 ++ natBytesBE a.senderIp.toNat 4 ++ List.replicate 6 0 ++ natBytesBE a.targetIp.toNat 4
  | .pd d => patch (Config.netBytes b) n (pdKnown d)
  | .ptp m => patch (Config.netBytes b) n
      (if l2 then (0, [0x88, 0xf7]) :: ptpKnown m 2
       else [(0, [0x08, 0x00]), (11, [17]), (24, natBytesBE (if ptpEvent m.kind then 319 else 320) 2)] ++ ptpKnown m 30)
  | .pause => natBytesBE 0x88080001 4 ++ (Config.netBytes b)

/-- The bytes of a frame without its FCS. -/
def frameBytes (f : EthFrame) : List Byte :=
  let tag := match f.tag with
    | none => []
    | some (p, v) => [0x81, 0x00] ++ natBytesBE (p.toNat * 0x2000 + v.toNat) 2
  natBytesBE f.dst.toNat 6 ++ natBytesBE f.src.toNat 6 ++ tag ++
    bodyBytes (ptpL2Macs.contains f.dst) (f.len - 16 - tag.length) f.body

/-- A process-data datagram whose IP header stands at byte 2 and takes `h` bytes. -/
def pdParse (bs : List Byte) (h : Nat) : PdFrame :=
  let o := 2 + h + 8
  let n := beAt bs (2 + h + 4) 2 - 48
  { srcIp := wd (beAt bs 14 4), dstIp := wd (beAt bs 18 4)
    srcPort := BitVec.ofNat 16 (beAt bs (2 + h) 2), dstPort := BitVec.ofNat 16 (beAt bs (4 + h) 2)
    ttl := BitVec.ofNat 8 (beAt bs 10 1), dscp := BitVec.ofNat 6 (beAt bs 3 1 / 4)
    seq := wd (beAt bs o 4), version := BitVec.ofNat 16 (beAt bs (o + 4) 2), msgType := BitVec.ofNat 16 (beAt bs (o + 6) 2)
    comId := wd (beAt bs (o + 8) 4), etbTopo := wd (beAt bs (o + 12) 4), opTopo := wd (beAt bs (o + 16) 4)
    dsLen := beAt bs (o + 20) 4, reserved := wd (beAt bs (o + 24) 4), replyCom := wd (beAt bs (o + 28) 4)
    replyIp := wd (beAt bs (o + 32) 4), fcsOk := (bs.drop (o + 36)).take 4 == bytesLE (crc32 ((bs.drop o).take 36)) 4
    scUpset := false, data := (bs.drop (o + 40)).take n }

/-- A PTP message whose first byte stands at `o`, received on plane `x` at `rx`. -/
def ptpParse (x : Plane) (rx : Nat) (bs : List Byte) (o : Nat) : PtpMsg :=
  { kind := ptpKindOf (beAt bs o 1 % 16)
    hdr := ⟨x, BitVec.ofNat 64 (beAt bs (o + 20) 8), BitVec.ofNat 8 (beAt bs (o + 4) 1), BitVec.ofNat 16 (beAt bs (o + 30) 2),
      (BitVec.ofNat 64 (beAt bs (o + 8) 8)).toInt / 65536⟩
    twoStep := (beAt bs (o + 6) 1).testBit 1
    origin := beAt bs (o + 34) 6 * 1000000000 + beAt bs (o + 40) 4
    rx := rx
    ann := ⟨BitVec.ofNat 64 (beAt bs (o + 53) 8), BitVec.ofNat 8 (beAt bs (o + 47) 1), BitVec.ofNat 8 (beAt bs (o + 52) 1),
      BitVec.ofNat 8 (beAt bs (o + 48) 1), BitVec.ofNat 8 (beAt bs (o + 49) 1), BitVec.ofNat 16 (beAt bs (o + 50) 2),
      BitVec.ofNat 16 (beAt bs (o + 61) 2),
      if (beAt bs (o + 7) 1).testBit 2 then some (BitVec.ofNat 16 (beAt bs (o + 44) 2)) else none⟩ }

/-- The content of a frame, from the bytes that begin with its EtherType. -/
def bodyParse (x : Plane) (rx : Nat) (bs : List Byte) : NetBody :=
  let ty := beAt bs 0 2
  let h := 4 * (beAt bs 2 1 % 16)
  let port := beAt bs (4 + h) 2
  if ty = 0x0806 then
    .arp ⟨beAt bs 8 2 == 2, BitVec.ofNat 48 (beAt bs 10 6), wd (beAt bs 16 4), wd (beAt bs 26 4)⟩
  else if ty = 0x8808 ∧ beAt bs 2 2 = 1 then .pause
  else if ty = 0x88f7 then .ptp (ptpParse x rx bs 2)
  else if ty = 0x0800 ∧ beAt bs 11 1 = 17 ∧ port = 17224 then .pd (pdParse bs h)
  else if ty = 0x0800 ∧ beAt bs 11 1 = 17 ∧ (port = 319 ∨ port = 320) then .ptp (ptpParse x rx bs (2 + h + 8))
  else .other (BitVec.ofNat 16 ty) (bs.drop 2)

end Sys2Proof.Machine
end

