-- ==== Sys2Proof/Machine/NetOps.lean ====
section
/-!
DEFINITION. The plane switches: ports, VLANs, learned addresses, what P3 takes, and the host rings
(spec/11_train_network.md R286 to R293, R312, R313). Ports are numbered from 0: P1 and P2 external, P3 process data, P4 host.
-/
namespace Sys2Proof.Machine

/-- The page of a plane. -/
def netPage (x : Nat) : Nat := 0x20 + x

def planeOf (x : Nat) : Plane := if x = 0 then .a else .b
def State.plane (s : State) (x : Nat) : NetPlane := Vec.at s.planes x NetPlane.reset
def State.modPlane (s : State) (x : Nat) (f : NetPlane → NetPlane) : State :=
  { s with planes := Vec.updAt s.planes x f }

/-! ## Registers -/

def State.netCtrl (s : State) (x : Nat) : Word := s.rd (Reg.netCtrl x)
def State.hostEn (s : State) (x : Nat) : Bool := bit (s.netCtrl x) 2
def State.ipAddr (s : State) (x : Nat) : Word := s.rd (Reg.netIpaddr x)

/-- An external port is enabled. -/
def State.portEn (s : State) (x p : Nat) : Bool := if p < 2 then bit (s.netCtrl x) p else true

/-- A frame can leave a port: an external one needs its link. -/
def State.portUp (s : State) (x p : Nat) : Bool := s.portEn x p && (decide (2 ≤ p) || bit (s.rd (Reg.netStat x)) p)

/-- The VLAN entries in use (R289): VID, members, untagged egress. -/
def State.vlans (s : State) (x : Nat) : List Word :=
  ((List.range 64).map fun k => s.rd (Reg.netVlan x k)).filter fun w => bit w 31

def State.vlanOf (s : State) (x vid : Nat) : Option Word := (s.vlans x).find? fun w => fld w 0 12 == vid

/-- A frame of a VID may leave port `p`. -/
def State.member (s : State) (x vid p : Nat) : Bool :=
  (s.vlans x).isEmpty || match s.vlanOf x vid with
    | none => false
    | some w => bit w (12 + p)

/-- A frame of a VID leaves port `p` untagged. -/
def State.untagged (s : State) (x vid p : Nat) : Bool :=
  match s.vlanOf x vid with
  | none => false
  | some w => bit w (16 + p)

/-- PVID, INFILT and, for P4, PCP of a port's VLAN register. P3 has none. -/
def State.portVlan (s : State) (x p : Nat) : Word :=
  if p = 0 then s.rd (Reg.netP1vlan x) else if p = 1 then s.rd (Reg.netP2vlan x)
  else if p = 3 then s.rd (Reg.netP4vlan x) else 0

/-- HPCPMAX. -/
def State.hpcpMax (s : State) (x : Nat) : Nat := fld (s.netCtrl x) 8 3

/-- The VID and PCP a frame has in the switch (R289, R290). -/
def State.classify (s : State) (x p : Nat) (f : EthFrame) : Nat × Nat :=
  let w := s.portVlan x p
  let top := if p = 3 then s.hpcpMax x else 7
  match f.tag with
  | some (c, v) => (if v = 0 then fld w 0 12 else v.toNat, min c.toNat top)
  | none => (fld w 0 12, if p = 3 then min (fld w 16 3) top else 0)

/-- The frame as it leaves port `p` (R289, R290): its length grows or shrinks with the tag. -/
def State.retag (s : State) (x p vid pcp : Nat) (f : EthFrame) : EthFrame :=
  if (s.vlans x).isEmpty then
    { f with tag := f.tag.map fun t => (BitVec.ofNat 3 (min t.1.toNat pcp), t.2) }
  else if s.untagged x vid p then { f with tag := none, len := f.len - (if f.tag.isSome then 4 else 0) }
  else { f with tag := some (BitVec.ofNat 3 pcp, BitVec.ofNat 12 vid), len := f.len + (if f.tag.isSome then 0 else 4) }

/-! ## What P3 takes (R292) -/

def broadcast : BitVec 48 := 0xffffffffffff
def isMulticast (m : BitVec 48) : Bool := bit m 40

/-- The MAC address of a multicast group (R294). -/
def groupMac (ip : Word) : BitVec 48 := 0x01005e000000 ||| ((ip &&& 0x7fffff).zeroExtend 48)

def isGroup (ip : Word) : Bool := fld ip 28 4 == 14

/-- The subscription and the receive telegram of a ComId. -/
def State.subOf (s : State) (com : Word) : Option Nat := (s.enabled 1 3).find? fun e => s.tbl 1 e 0 == com
def State.telOf (s : State) (com : Word) : Option Nat :=
  (s.enabled 2 0).find? fun e => s.tbl 2 e 1 == com && !bit (s.tbl 2 e 0) 0

/-- A multicast group named in a subscription or a telegram. -/
def State.groupKnown (s : State) (m : BitVec 48) : Bool :=
  ((s.enabled 1 3).any fun e => isGroup (s.tbl 1 e 1) && groupMac (s.tbl 1 e 1) == m) ||
    ((s.enabled 2 0).any fun e => groupMac (s.tbl 2 e 2) == m || groupMac (s.tbl 2 e 3) == m)

/-- The multicast addresses of PTP over IPv4 and over IEEE 802.3 (PRESUMED, IEEE 1588). -/
def ptpMacs : List (BitVec 48) := [0x01005e000181, 0x01005e00006b, 0x011b19000000, 0x0180c200000e]

def NetBody.isPtp' : NetBody → Bool
  | .ptp _ => true
  | .arp _ => false
  | .pd _ => false
  | .pause => false
  | .other _ _ => false

/-- The frame is addressed to P3. -/
def State.p3Addr (s : State) (x : Nat) (f : EthFrame) : Bool :=
  if f.dst = Config.mac x then s.ipAddr x != 0 else f.dst == broadcast || s.groupKnown f.dst || ptpMacs.contains f.dst

/-- P3 takes the frame; P4 may get it all the same. -/
def State.p3Takes (s : State) (x : Nat) (f : EthFrame) : Bool :=
  s.p3Addr x f && match f.body with
    | .arp a => !a.reply && s.ipAddr x != 0 && a.targetIp == s.ipAddr x
    | .pd d => d.dstPort == pdPort && d.msgType == 0x5064 && ((s.subOf d.comId).isSome || (s.telOf d.comId).isSome)
    | .ptp _ => true
    | .pause => false
    | .other _ _ => false

def isArp : NetBody → Bool
  | .arp _ => true
  | .pd _ => false
  | .ptp _ => false
  | .pause => false
  | .other _ _ => false

def isPause : NetBody → Bool
  | .pause => true
  | .arp _ => false
  | .pd _ => false
  | .ptp _ => false
  | .other _ _ => false

/-! ## The host rings (R293) -/

/-- HOST_RX_DELIVER: into slot HRXPROD, or dropped with HRXDROP. -/
def State.hostRxDeliver (s : State) (x : Nat) (f : EthFrame) : State :=
  let prod := fld (s.rd (Reg.netHrxprod x)) 0 8
  let n := fld (s.rd (Reg.netHrxnum x)) 0 9
  let next := if prod + 1 = n then 0 else prod + 1
  if next = fld (s.rd (Reg.netHrxcons x)) 0 8 then
    let s := (s.evt (netPage x) 16).count (Reg.netPdrop x 3)
    let told := match (s.plane x).fullAt with
      | none => false
      | some t => decide (s.now < t + 1000000000)
    if told then s
    else (s.raise (0x2003 + 0x100 * x) [4]).modPlane x fun p => { p with fullAt := some s.now }
  else
    let a := (s.rd (Reg.netHrxbase x)).toNat + 2048 * prod
    let m := s.notice.writeBytes ramFill a (bytesLE (wd ((f.len - 4) % 2048)) 4)
    let s := { s with notice := m.writeBytes ramFill (a + 16) ((frameBytes f).take 2032) }
    ((s.wr (Reg.netHrxprod x) (wd next)).count (Reg.netPtx x 3)).evt (netPage x) 4

/-! ## Forwarding (R288 to R290) -/

/-- A frame is queued at an egress port. -/
def State.enqueue (s : State) (x p vid pcp : Nat) (f : EthFrame) : State :=
  if !s.portUp x p then s else
  let q : QFrame := ⟨s.retag x p vid pcp f, pcp, s.now⟩
  s.modPlane x fun n => { n with queues := Vec.updAt n.queues p fun l => l ++ [q] }

/-- The port a learned address stands at. -/
def State.learned (s : State) (x : Nat) (m : BitVec 48) : Option Nat :=
  ((s.plane x).table.find? fun e => e.mac == m).map fun e => e.port

/-- The source address is learned; a full table learns no more. -/
def State.learn (s : State) (x p : Nat) (m : BitVec 48) : State :=
  if isMulticast m || m == Config.mac x then s else
  s.modPlane x fun n =>
    let rest := n.table.filter fun e => e.mac != m
    if 2048 ≤ rest.length then n else { n with table := ⟨m, p, s.now⟩ :: rest }

/-- The ports a frame goes to before VLAN membership: P3 and P4 stand for the module itself. -/
def State.targets (s : State) (x p : Nat) (f : EthFrame) : List Nat :=
  if f.dst = Config.mac x then [2, 3].filter fun q => q != p
  else if isMulticast f.dst then [0, 1, 2, 3].filter fun q => q != p
  else match s.learned x f.dst with
    | some q => if q = p then [] else [q]
    | none => [0, 1, 2, 3].filter fun q => q != p

/-- A PD frame for the module that no entry takes is counted (R314). -/
def State.countUnknown (s : State) (x : Nat) (f : EthFrame) : State :=
  match f.body with
  | .pd d => if s.p3Addr x f && d.dstPort == pdPort && d.msgType == 0x5064 && !s.p3Takes x f then s.count Reg.trdRxunk else s
  | .arp _ => s
  | .ptp _ => s
  | .pause => s
  | .other _ _ => s

/-- A frame is forwarded from port `p` to every port it goes to. -/
def State.switchIn (s : State) (x p : Nat) (f : EthFrame) : State :=
  let (vid, pcp) := s.classify x p f
  let s := s.learn x p f.src
  let outs := (s.targets x p f).filter fun q => s.member x vid q
  let s := [0, 1].foldl (fun s q => if outs.contains q then s.enqueue x q vid pcp f else s) s
  let taken := outs.contains 2 && s.p3Takes x f
  let s := if taken then s.enqueue x 2 vid pcp f else if outs.contains 2 then s.countUnknown x f else s
  if outs.contains 3 && s.hostEn x && (!taken || isArp f.body) then s.hostRxDeliver x (s.retag x 3 vid pcp f) else s

/-- Broadcast and unknown multicast frames of an external port beyond BCLIM (R290): the state, and whether the frame goes on. -/
def State.bcLimit (s : State) (x p : Nat) (f : EthFrame) : State × Bool :=
  let lim := fld (s.rd (Reg.netBclim x)) 0 16
  if lim = 0 ∨ !isMulticast f.dst ∨ s.groupKnown f.dst then (s, true) else
  let ms := s.now / 1000000
  let s := s.modPlane x fun n => if n.bcMs = ms then n else { n with bcMs := ms, bc := Vector.replicate 2 0 }
  if Vec.at (s.plane x).bc p 0 < lim then (s.modPlane x fun n => { n with bc := Vec.updAt n.bc p (· + 1) }, true)
  else
    let s := (s.evt (netPage x) 32).count (Reg.netPdrop x p)
    let told := match (s.plane x).bcAt with
      | none => false
      | some t => decide (s.now < t + 1000000000)
    (if told then s else (s.raise (0x2004 + 0x100 * x) [wd (p + 1)]).modPlane x fun n => { n with bcAt := some s.now }, false)

/-- A frame enters the switch at port `p`: errors, PAUSE, ingress filter, then forwarding (R287, R289, R290). -/
def State.ingress (s : State) (x p : Nat) (f : EthFrame) : State :=
  if !f.fcsOk || decide (1522 < f.len) then s.count (Reg.netPerr x p) else
  let s := s.count (Reg.netPrx x p)
  if isPause f.body then s else
  let vid := (s.classify x p f).1
  let filt := bit (s.portVlan x p) 12 && (f.tag.isSome || p == 3) && !s.member x vid p
  if filt then s.count (Reg.netPdrop x p) else
  let (s, ok) := if p < 2 then s.bcLimit x p f else (s, true)
  if ok then s.switchIn x p f else s

/-! ## Sending from P3 (R290, R291, R298) -/

/-- A frame of P3: tagged with PDVLAN, from the plane's MAC. -/
def State.p3Frame (s : State) (x pcp : Nat) (dst : BitVec 48) (len : Nat) (b : NetBody) : EthFrame where
  dst := dst
  src := Config.mac x
  tag := some (BitVec.ofNat 3 pcp, BitVec.ofNat 12 (fld (s.rd (Reg.netPdvlan x)) 0 12))
  len := max 68 len
  fcsOk := true
  body := b

/-- P3 sends a frame at once: nothing while IPADDR is 0 (R291). -/
def State.p3Send (s : State) (x pcp : Nat) (dst : BitVec 48) (len : Nat) (b : NetBody) : State :=
  if s.ipAddr x = 0 then s else s.ingress x 2 (s.p3Frame x pcp dst len b)

end Sys2Proof.Machine
end

