-- ==== Sys2Proof/Machine/Shift.lean ====
section
/-!
DEFINITION. What a change of module time does to the instants that State keeps to measure durations: they move with it, so
that no interval that is running grows or shrinks (spec/13_time.md R341, spec/17_start_up_and_update.md R431; DEDUCED, log
entry 57). Boundaries of module time that have been handled are counted afresh from the new time.
-/
namespace Sys2Proof.Machine

/-- A mark kept as its instant plus one; 0 stands for none. -/
def markP (d : Int) (n : Nat) : Nat := if n = 0 then 0 else markBy d (n - 1) + 1

/-- A mark that may be absent. -/
def markO (d : Int) (n : Option Nat) : Option Nat := n.map (markBy d)

def Resync.shift (d : Int) : Resync → Resync
  | .idle => .idle
  | .reset t => .reset (markBy d t)
  | .engine t => .engine (markBy d t)
  | .k0 t => .k0 (markBy d t)
  | .agreed t e => .agreed (markBy d t) (markBy d e)

def Lanes.shift (l : Lanes) (d : Int) : Lanes :=
  { l with oddLog := l.oddLog.map fun x => (x.1, markBy d x.2), oddAt := markBy d l.oddAt, rs := l.rs.shift d }

def PimCtl.shift (c : PimCtl) (d : Int) : PimCtl :=
  { c with lastRetry := markO d c.lastRetry, scrubFrom := markBy d c.scrubFrom }

def Task.shift (k : Task) (d : Int) : Task := { k with lastShad := markO d k.lastShad, notBefore := markBy d k.notBefore }

def Eng.shift (e : Eng) (d : Int) : Eng :=
  { e with
    tasks := e.tasks.map fun k => k.shift d
    change := match e.change with
      | .none => .none
      | .waiting w => .waiting w
      | .pausing g w => .pausing (markBy d g) w }

def Sett.shift (x : Sett) (d : Int) : Sett :=
  { x with opened := x.opened.map fun o => (o.1, markBy d o.2), ring := x.ring.map fun r => (r.1, markBy d r.2) }

def Rule.shift (x : Rule) (d : Int) : Rule := { x with since := markO d x.since }

def Rfx.shift (x : Rfx) (d : Int) : Rfx := { x with rules := x.rules.map fun c => c.map fun r => r.shift d }

/-- Pulses that run or that a slot has fired; a programmed pulse keeps its START (R351). -/
def TPin.shift (p : TPin) (d : Int) : TPin :=
  let due := match p.owner with
    | .none => p.due
    | .mode => p.due
    | .mclk => p.due
    | .slot _ _ => markO d p.due
  { p with running := markO d p.running, missAt := markO d p.missAt, due := due }

def Ptp.shift (p : Ptp) (d : Int) : Ptp :=
  { p with
    heard := p.heard.map fun f => { f with last := markBy d f.last }
    annAt := markBy d p.annAt
    syncAt := markBy d p.syncAt
    sync := p.sync.map fun x => (x.1, x.2.1, markBy d x.2.2.1, x.2.2.2)
    req := p.req.map fun r => (r.1, markBy d r.2)
    holdFrom := markO d p.holdFrom
    hist := p.hist.map fun h => (markBy d h.1, h.2) }

def NetPlane.shift (n : NetPlane) (d : Int) : NetPlane :=
  { n with
    table := n.table.map fun l => { l with at' := markBy d l.at' }
    queues := n.queues.map fun q => q.map fun f => { f with at' := markBy d f.at' }
    fullAt := markO d n.fullAt
    bcAt := markO d n.bcAt }

def TelSt.shift (x : TelSt) (d : Int) : TelSt :=
  { x with win := x.win.map (fun w => { w with at' := markBy d w.at' }), at' := markBy d x.at' }

/-- Subscriptions and telegrams; publication instants count afresh from `t`. -/
def Trdp.shift (x : Trdp) (d : Int) (t : Nat) : Trdp :=
  { pubAt := []
    subs := x.subs.map fun e => (e.1, { e.2 with at' := markBy d e.2.at' })
    tels := x.tels.map fun e => (e.1, { (e.2.shift d) with sentAt := t })
    since := t
    telFrom := t }

def Mvb.shift (m : Mvb) (d : Int) : Mvb := { m with at' := m.at'.map fun e => (e.1, markP d e.2) }

def Brg.shift (b : Brg) (d : Int) (t : Nat) : Brg :=
  { b with
    ents := b.ents.map fun e => (e.1, { e.2 with fwdAt := markP d e.2.fwdAt, msgAt := markP d e.2.msgAt })
    areaAt := b.areaAt.map fun e => (e.1, markP d e.2)
    pollMs := t / 1000000
    dropAt := markO d b.dropAt }

def HostIf.shift (h : HostIf) (d : Int) (t : Nat) : HostIf :=
  { h with dropAt := markO d h.dropAt, fn := h.fn.map fun f => { f with sbAt := min f.sbAt (t / 10000) } }

/-- Channels that fill, and the grid of the conversion rounds. -/
def Dec.shift (x : Dec) (d : Int) : Dec :=
  { x with
    ch := x.ch.map fun c => { c with fillAt := markBy d c.fillAt, gridAt := markBy d c.gridAt }
    grid := markBy d x.grid
    errs := x.errs.map (markBy d) }

def Pow.shift (p : Pow) (d : Int) (t : Nat) : Pow :=
  { p with
    planExit := markO d p.planExit
    opc := match p.opc with
      | .ramp b r => .ramp b (markBy d r)
      | .none => .none
      | .ready b => .ready b
      | .halted b => .halted b
    opNotBefore := markBy d p.opNotBefore
    hotAt := markO d p.hotAt
    coolAt := markO d p.coolAt
    overAt := markO d p.overAt
    tokAt := t / 1000000 }

def Chain.shift (c : Chain) (d : Int) : Chain := { c with from' := markBy d c.from', sentAt := markO d c.sentAt }

def Twn.shift (x : Twn) (d : Int) (t : Nat) : Twn :=
  { x with
    hbSent := t / 50000 * 50000
    hbAt := markBy d x.hbAt
    ansAt := markP d x.ansAt
    ackAt := markBy d x.ackAt
    reqAt := markO d x.reqAt
    askAt := markBy d x.askAt
    lostAt := markO d x.lostAt
    joinAt := markO d x.joinAt
    retryAt := x.retryAt.map fun _ => nextWhole t 1000000000
    mirSent := x.mirSent.map fun e => (e.1, markBy d e.2)
    pairs := x.pairs.map fun p => if p.expiry = 0 then p else { p with expiry := markBy d p.expiry } }

/-- Module time is `t` in place of what it was. -/
def State.timeTo (s : State) (t : Nat) : State :=
  let d : Int := (t : Int) - s.now
  let us := t / 1000 * 1000
  { s with
    now := t
    frac := 0
    bootFrom := markBy d s.bootFrom
    eng := s.eng.shift d
    lanes := { (s.lanes.shift d) with gsMs := t / 1000000 }
    pimc := s.pimc.shift d
    sett := s.sett.shift d
    fio := s.fio.map fun f => f.shift d
    fside := s.fside.map fun x => x.shift d
    rfx := s.rfx.shift d
    mot := { (s.mot.shift d) with epoch := us, slotAt := us, itemAt := us }
    pins := s.pins.map fun p => p.shift d
    ptp := s.ptp.shift d
    planes := s.planes.map fun n => n.shift d
    trdp := s.trdp.shift d t
    mvb := s.mvb.shift d
    brg := s.brg.shift d t
    host := s.host.shift d t
    dec := s.dec.shift d
    pow := s.pow.shift d t
    chain := s.chain.shift d
    twn := s.twn.shift d t }

end Sys2Proof.Machine
end

