-- ==== Sys2Proof/Machine/Ptp.lean ====
section
/-!
DEFINITION. Module time, its steps, the time pins and the ordinary clock (spec/13_time.md).
-/
namespace Sys2Proof.Machine

/-! ## Time pins (R350 to R354) -/

def State.pin (s : State) (n : Nat) : TPin := Vec.at s.pins n TPin.reset
def State.modPin (s : State) (n : Nat) (f : TPin → TPin) : State := { s with pins := Vec.updAt s.pins n f }
def State.pinMode (s : State) (n : Nat) : Nat := fld (s.rd (Reg.tpinPincfg n)) 0 3

/-- The first grid point of a periodic pin at or after `t`. -/
def gridFrom (start per t : Nat) : Nat := if t ≤ start then start else start + ceilDiv (t - start) per * per

/-- A one-shot or periodic configuration takes effect (R351). -/
def State.pinArm (s : State) (n : Nat) : State :=
  let start := (s.pin n).start
  let per := (s.rd (Reg.tpinPeriod n)).toNat
  let due := match s.pinMode n with
    | 1 => some (if s.now ≤ start then start else nextWhole s.now 4)
    | 2 => some (gridFrom start per s.now)
    | _ => none
  s.modPin n fun p => { p with due := due }

/-- What a step of module time does to a pin: a pending one-shot that is passed over fires at once, a periodic one goes on
at its grid (R351). -/
def State.pinStep (s : State) (n : Nat) : State :=
  match s.pinMode n, (s.pin n).due with
  | 1, some d => if d < s.now then s.modPin n fun p => { p with due := some (nextWhole s.now 4) } else s
  | 2, some _ => s.modPin n fun p => { p with due := some (gridFrom p.start (s.rd (Reg.tpinPeriod n)).toNat s.now) }
  | _, _ => s

/-- A pulse that runs ends at once. -/
def State.pinQuiet (s : State) (n : Nat) : State :=
  match (s.pin n).running with
  | none => s
  | some _ => (s.modPin n fun p => { p with running := none }).emit (.pin n false)

/-- The limits of PERIOD and WIDTH (R350). -/
def pinTimesOk (per width : Nat) : Bool :=
  8 ≤ width && width ≤ 1000000000 && width % 4 == 0 && 1000 ≤ per && per ≤ 4000000000 && per % 4 == 0 && width + 8 ≤ per

/-- PINCFG is written (R353, R360): none where the value is refused. A pin that a slot owns goes on reading MODE 0b100. -/
def State.pinCfgWrite (s : State) (n : Nat) (v : Word) : Option State :=
  let mode := fld v 0 3
  let v := v &&& 0x3f
  if 4 ≤ mode ∨ (mode = 3 ∧ fld v 4 2 = 0) then none else
  let other : Bool := match (s.pin n).owner with
    | .none => false
    | .mode => false
    | .slot _ _ => true
    | .mclk => true
  if mode ≠ 0 ∧ other then some ((s.conflict 0x19).raise 0x1901 [wd n])
  else
    let slot := match (s.pin n).owner with
      | .slot _ _ => true
      | .none => false
      | .mode => false
      | .mclk => false
    let s := s.wr (Reg.tpinPincfg n) (if slot then setFld v 0 3 4 else v)
    let s := if other then s else (s.modPin n fun p => { p with owner := if mode = 0 then .none else .mode, edge := none }).pinQuiet n
    some (if other then s else s.pinArm n)

/-- A register of a pin's block is written: none where the value is refused (R350, R359). -/
def State.pinWrite (s : State) (n reg : Nat) (v : Word) : Option State :=
  let per := (s.rd (Reg.tpinPeriod n)).toNat
  let width := (s.rd (Reg.tpinWidth n)).toNat
  let mode := s.pinMode n
  match reg with
  | 0 => s.pinCfgWrite n v
  | 1 => some ((s.wr (Reg.tpinStartLo n) v).modPin n fun p => { p with startLo := true })
  | 2 =>
    let s := s.wr (Reg.tpinStartHi n) v
    if !(s.pin n).startLo then some s else
    let s := s.modPin n fun p => { p with start := s.rd64 (Reg.tpinStartLo n), startLo := false }
    some (if mode = 1 ∨ mode = 2 then s.pinArm n else s)
  | 3 => if !pinTimesOk v.toNat width then none else
    let s := s.wr (Reg.tpinPeriod n) v
    some (if mode = 2 then s.pinArm n else s)
  | 4 => if pinTimesOk per v.toNat then some (s.wr (Reg.tpinWidth n) v) else none
  | _ => some s

/-- The time pins work: not in SAFE (spec/19_faults_and_diagnostics.md R481). -/
def State.pinsOn (s : State) : Bool := s.booted && !s.safeLatch

/-- TPIN_PULSE_START (R350, R351, R352). -/
def execTpinPulseStart (n : Fin 8) (s : State) : Answer :=
  match (s.pin n).due with
  | none => .next s
  | some d =>
    if !(s.pinsOn && decide (d ≤ s.now)) then .next s else
    let mode := s.pinMode n
    let late := mode == 1 && d != (s.pin n).start
    let next := if mode = 2 then some (d + (s.rd (Reg.tpinPeriod n)).toNat) else none
    let w := (s.rd (Reg.tpinWidth n)).toNat
    let s := (s.modPin n fun p => { p with due := next, running := some (d + w), late := p.late || late }).emit (.pin n true)
    .next (if late then (s.evt 0x19 0x10000).raise 0x1903 [wd n] else s)

/-- TPIN_PULSE_END. -/
def execTpinPulseEnd (n : Fin 8) (s : State) : Answer :=
  match (s.pin n).running with
  | none => .next s
  | some t => if s.alive && decide (t ≤ s.now) then .next (s.pinQuiet n) else .next s

/-- TPIN_CAPTURE_EDGE (R354): the first selected edge of the epoch, or one missed. -/
def execTpinCaptureEdge (n : Fin 8) (rising : Bool) (ta tb tc : Nat) (s : State) : Answer :=
  let c := s.rd (Reg.tpinPincfg n)
  if !(s.pinsOn && s.pinMode n == 3 && bit c (if rising then 4 else 5)) then .next s else
  match (s.pin n).edge with
  | none => .next (s.modPin n fun p => { p with edge := some (ta, tb, tc) })
  | some _ =>
    let told := match (s.pin n).missAt with
      | none => false
      | some t => decide (s.now < t + 1000000000)
    let s := (s.modPin n fun p => { p with miss := satNat 255 (p.miss + 1) }).evt 0x19 (wd (2 ^ (8 + n.val)))
    .next (if told then s else (s.modPin n fun p => { p with missAt := some s.now }).raise 0x1902 [wd n])

/-! ## Steps of module time (R341) -/

/-- A step is allowed: the engine in STOP, as it is in BOOT, BARE and SAFE too. -/
def State.stepOk (s : State) : Bool := s.eng.mode == .stop

/-- Module time becomes `t` in one clock: the boundaries count from there, the pins follow R351, 0x2403 is recorded. -/
def State.stepTo (s : State) (t : Nat) : State :=
  (((List.range 8).foldl (fun s n => s.pinStep n) (s.timeTo t)).evt 0x24 8).raise 0x2403 []

/-- PTP.SETCMD (R341, R357): refused unless a step is allowed. -/
def State.setCmd (s : State) (v : Word) : State :=
  if v ≠ 1 then s else if s.stepOk then s.stepTo (s.rd64 Reg.ptpSettimeLo) else s.refuse 0x24

/-! ## The ordinary clock: registers -/

def State.ptpEn (s : State) : Bool := bit (s.rd Reg.ptpCtrl) 0
def State.ptpP2p (s : State) : Bool := bit (s.rd Reg.ptpCtrl) 1
def State.sstate (s : State) : Nat := fld (s.rd Reg.ptpStat) 0 2
def State.ptpMaster (s : State) : Bool := bit (s.rd Reg.ptpStat) 3
def State.setSstate (s : State) (v : Nat) : State := s.wr Reg.ptpStat (setFld (s.rd Reg.ptpStat) 0 2 v)
def State.setRole (s : State) (m : Bool) : State := s.wr Reg.ptpStat (setBit (s.rd Reg.ptpStat) 3 m)
def State.modPtp (s : State) (f : Ptp → Ptp) : State := { s with ptp := f s.ptp }

/-- The plane the port is attached to (R345). -/
def State.ptpPlane (s : State) : Plane :=
  match fld (s.rd Reg.ptpCtrl) 4 2 with
  | 1 => .a
  | 2 => .b
  | _ => if bit (s.rd Reg.ptpStat) 4 then .b else .a

/-- The port may move between the planes. -/
def State.ptpBoth (s : State) : Bool := fld (s.rd Reg.ptpCtrl) 4 2 == 3

/-- An interval of 2^k s in ns; `k` is a signed byte. -/
def logInterval (k : Int) : Nat := if 0 ≤ k then 1000000000 * 2 ^ k.toNat else 1000000000 / 2 ^ (-k).toNat

def State.syncInterval (s : State) : Nat := logInterval (sfld (s.rd Reg.ptpIntv) 0 8)
def State.annInterval (s : State) : Nat := logInterval (sfld (s.rd Reg.ptpIntv) 8 8)
def State.annTimeout (s : State) : Nat := fld (s.rd Reg.ptpIntv) 24 4 * s.annInterval

/-- The clock is enabled and the module runs. -/
def State.ptpOn (s : State) : Bool := s.alive && s.ptpEn

/-- A message is discarded (R342). -/
def State.ptpDiscard (s : State) : State := s.count Reg.ptpCntdisc

/-- The message is for this clock. -/
def State.ptpFits (s : State) (h : PtpHdr) : Bool :=
  h.domain.toNat == fld (s.rd Reg.ptpDomain) 0 8 && h.plane == s.ptpPlane

/-! ## The servo (R346, R347) -/

/-- A rate in ppm, in units of 2^-32. -/
def ppm (n : Nat) : Int := (n * 2 ^ 32 / 1000000 : Nat)

def clampInt (lim v : Int) : Int := if v < -lim then -lim else if lim < v then lim else v

/-- The servo enters ACQ. -/
def State.enterAcq (s : State) : State := (s.setSstate 1).modPtp fun p => { p with good := 0, bad := 0, stepTold := false }

/-- The offset `o` is found: integral term, rate, and the state of the servo. -/
def State.servo (s : State) (o : Int) : State :=
  let integ := s.ptp.integ - Config.ratePart 8 o
  let phase := clampInt (ppm (fld (s.rd Reg.ptpSlewmax) 0 9)) (-Config.ratePart 3 o)
  let st := s.sstate
  let hist := s.ptp.hist.filter fun e => decide (s.now ≤ e.1 + 16000000000)
  let s := (s.wr Reg.ptpRate (wi (clampInt (ppm 500) (integ + phase)))).modPtp fun p =>
    { p with integ := integ, offs := o, hist := if st = 2 then hist ++ [(s.now, integ)] else hist }
  let a := o.natAbs
  let th := (s.rd Reg.ptpLockth).toNat
  if st = 1 then
    if (s.rd Reg.ptpStepth).toNat < a then
      if s.stepOk then (s.modPtp fun p => { p with good := 0 }).stepTo ((s.now : Int) - o).toNat
      else if s.ptp.stepTold then s.modPtp fun p => { p with good := 0 }
      else ((s.modPtp fun p => { p with good := 0, stepTold := true }).evt 0x24 32).raise 0x2406 []
    else if a < th then
      if s.ptp.good + 1 < 16 then s.modPtp fun p => { p with good := p.good + 1 }
      else
        let s := (s.setSstate 2).modPtp fun p => { p with good := 0, bad := 0, hist := [] }
        ((s.wr Reg.ptpStat (setBit (s.rd Reg.ptpStat) 2 true)).evt 0x24 1).raise 0x2405 []
    else s.modPtp fun p => { p with good := 0 }
  else if st = 2 then
    if 4 * th ≤ a then (if s.ptp.bad = 0 then s.modPtp fun p => { p with bad := 1 } else s.enterAcq)
    else s.modPtp fun p => { p with bad := 0 }
  else s

/-- A Sync with its precise origin: the offset (R346). The clock of a STANDBY unit does not act (spec/18_twin_modules.md
R461). -/
def State.syncDone (s : State) (t1 t2 : Nat) (corr : Int) : State :=
  let ms := (t2 : Int) - t1 - corr
  if s.twn.role = .standby then s else
  (s.modPtp fun p => { p with ms := ms }).servo (ms - s.ptp.mpd)

/-- The message comes from the selected master. -/
def State.fromMaster (s : State) (h : PtpHdr) : Bool := s.ptpFits h && s.ptp.master == some h.src

/-- A Sync is received. -/
def State.ptpSync (s : State) (h : PtpHdr) (twoStep : Bool) (origin t2 : Nat) : State :=
  if !s.ptpOn then s else if !s.fromMaster h then s.ptpDiscard else
  let s := (s.count Reg.ptpCntsync).modPtp fun p => { p with syncAt := s.now, sync := none }
  if twoStep then s.modPtp fun p => { p with sync := some (h.src, h.seq, t2, h.corr) } else s.syncDone origin t2 h.corr

/-- A Follow_Up is received. -/
def State.ptpFollowUp (s : State) (h : PtpHdr) (origin : Nat) : State :=
  if !s.ptpOn then s else
  match s.ptp.sync with
  | none => s.ptpDiscard
  | some (src, seq, t2, c) =>
    if s.fromMaster h && h.src == src && h.seq == seq then
      (s.modPtp fun p => { p with sync := none }).syncDone origin t2 (c + h.corr)
    else s.ptpDiscard

/-! ## Best master (R342, R345, R348) -/

/-- The data set of this clock. -/
def State.ownAnn (s : State) : Announce where
  gm := Config.clockId
  p1 := byteOf (s.rd Reg.ptpPrio) 0
  p2 := byteOf (s.rd Reg.ptpPrio) 1
  cls := byteOf (s.rd Reg.ptpClkq) 0
  acc := byteOf (s.rd Reg.ptpClkq) 1
  var := BitVec.ofNat 16 (fld (s.rd Reg.ptpClkq) 16 16)
  steps := 0
  utc := none

/-- The comparison order of the default BMCA: lower is better (PRESUMED, IEEE 1588). -/
def annKey (a : Announce) (src : Dword) : List Nat :=
  [a.p1.toNat, a.cls.toNat, a.acc.toNat, a.var.toNat, a.p2.toNat, a.gm.toNat, a.steps.toNat, src.toNat]

def keyLt : List Nat → List Nat → Bool
  | a :: r, b :: t => if a < b then true else if b < a then false else keyLt r t
  | _, _ => false

/-- The masters of a plane that two Announces have qualified and that still announce. -/
def State.qualified (s : State) (x : Plane) : List Foreign :=
  s.ptp.heard.filter fun f => f.plane == x && decide (2 ≤ f.count) && decide (s.now < f.last + s.annTimeout) && f.src != Config.clockId

def bestOf : List Foreign → Option Foreign
  | [] => none
  | h :: t => some (t.foldl (fun b f => if keyLt (annKey f.ann f.src) (annKey b.ann b.src) then f else b) h)

/-- The master is lost: HOLDOVER at the average rate (R348). -/
def State.ptpLose (s : State) : State :=
  let h := s.ptp.hist.filter fun e => decide (s.ptp.syncAt ≤ e.1 + 16000000000)
  let avg : Int := if h.isEmpty then 0 else Int.fdiv (h.foldl (fun a e => a + e.2) 0) h.length
  let s := (((s.setSstate 3).wr Reg.ptpHoldrate (wi avg)).wr Reg.ptpRate (wi avg)).modPtp fun p =>
    { p with master := none, sync := none, holdFrom := some s.now, longTold := false
             heard := p.heard.filter fun f => !(some f.src == p.master && f.plane == p.mplane) }
  (s.evt 0x24 2).raise 0x2401 []

/-- A master is selected (R347, R348). -/
def State.ptpSelect (s : State) (f : Foreign) (moved : Bool) : State :=
  let gm := s.rd64 Reg.ptpGmidLo
  let utc := match f.ann.utc with
    | none => 0
    | some u => u.toNat + 0x10000
  let same := s.ptp.master == some f.src && gm == f.ann.gm.toNat && !moved
  let first := s.sstate == 0
  let s := (s.wr64 Reg.ptpGmidLo f.ann.gm.toNat).wr Reg.ptpUtcoff (wd utc)
  if same then s.modPtp fun p => { p with annAt := f.last } else
  let s := (s.setRole false).enterAcq
  let s := s.modPtp fun p => { p with
    master := some f.src, mplane := f.plane, annAt := f.last, syncAt := s.now, sync := none, holdFrom := none }
  if !first && (moved || gm != f.ann.gm.toNat) then (s.evt 0x24 4).raise 0x2402 [] else s

/-- This clock is better than `f`, and may be master: in SAFE it never takes the role
(spec/19_faults_and_diagnostics.md R482). -/
def State.ownBetter (s : State) (f : Foreign) : Bool :=
  !bit (s.rd Reg.ptpCtrl) 2 && !s.safeLatch && keyLt (annKey s.ownAnn Config.clockId) (annKey f.ann f.src)

/-- The clock takes the master role. -/
def State.becomeMaster (s : State) : State := (if s.ptp.master.isSome then s.ptpLose else s).setRole true

/-- The best master clock algorithm, with the move between the planes. -/
def State.bmca (s : State) : State :=
  let x := s.ptpPlane
  let y : Plane := if x = .a then .b else .a
  let move := s.ptpBoth && (s.qualified x).isEmpty && decide (s.ptp.annAt + s.annTimeout ≤ s.now) && !(s.qualified y).isEmpty
  let s := if move then s.wr Reg.ptpStat (setBit (s.rd Reg.ptpStat) 4 (y == .b)) else s
  match bestOf (s.qualified s.ptpPlane) with
  | none => s
  | some f =>
    if s.ownBetter f then (if s.ptpMaster then s else s.becomeMaster)
    else if fld (s.rd Reg.ptpClkq) 0 8 < 128 ∧ !bit (s.rd Reg.ptpCtrl) 2 then s.setRole false
    else s.ptpSelect f move

/-- An Announce is received. -/
def State.ptpAnnounce (s : State) (h : PtpHdr) (a : Announce) : State :=
  if !s.ptpOn then s
  else if h.domain.toNat ≠ fld (s.rd Reg.ptpDomain) 0 8 ∨ !(h.plane == s.ptpPlane || s.ptpBoth) then s.ptpDiscard
  else
    let old := s.ptp.heard.find? fun f => f.src == h.src && f.plane == h.plane
    let n := match old with
      | none => 1
      | some f => if s.now ≤ f.last + 4 * s.annInterval then satNat 2 (f.count + 1) else 1
    let rest := s.ptp.heard.filter fun f => !(f.src == h.src && f.plane == h.plane) && decide (s.now < f.last + s.annTimeout)
    let s := (s.count Reg.ptpCntann).modPtp fun p => { p with heard := rest ++ [⟨h.src, h.plane, a, n, s.now⟩] }
    s.bmca

/-! ## Path delay and sending -/

/-- meanPathDelay is updated. -/
def State.setMpd (s : State) (d : Int) : State := (s.wr Reg.ptpMpd (wi d)).modPtp fun p => { p with mpd := d }

/-- A message of this clock leaves its port (R342, R345), but from an isolated twin unit (spec/18_twin_modules.md R457). -/
def State.ptpSend (s : State) (kind : PtpKind) (seq : Half) (twoStep : Bool) (origin len : Nat) : State :=
  if s.isolated then s else
  let l2 := bit (s.rd Reg.ptpCtrl) 6
  let pd := kind == .pdelayReq || kind == .pdelayResp || kind == .pdelayRespFollowUp
  let dst : BitVec 48 := if l2 then (if pd then 0x0180c200000e else 0x011b19000000)
    else if pd then 0x01005e00006b else 0x01005e000181
  let h : PtpHdr := ⟨s.ptpPlane, Config.clockId, BitVec.ofNat 8 (fld (s.rd Reg.ptpDomain) 0 8), seq, 0⟩
  s.p3Send (planeIdx s.ptpPlane) 0 dst (22 + len + if l2 then 0 else 28) (.ptp ⟨kind, h, twoStep, origin, 0, s.ownAnn⟩)

/-- A Delay_Resp is received: end-to-end path delay. -/
def State.ptpDelayResp (s : State) (h : PtpHdr) (t4 : Nat) : State :=
  if !s.ptpOn then s else
  match s.ptp.req with
  | none => s.ptpDiscard
  | some (seq, t3) =>
    if s.fromMaster h && !s.ptpP2p && h.seq == seq then
      (s.modPtp fun p => { p with req := none }).setMpd (Int.tdiv (s.ptp.ms + ((t4 : Int) - t3 - h.corr)) 2)
    else s.ptpDiscard

/-- A peer-delay message is received. -/
def State.ptpPdelay (s : State) (h : PtpHdr) (kind : PtpKind) (stamp rx : Nat) : State :=
  if !s.ptpOn then s else if !(s.ptpFits h && s.ptpP2p) then s.ptpDiscard else
  match kind, s.ptp.req, s.ptp.pdResp with
  | .pdelayReq, _, _ => (s.ptpSend .pdelayResp h.seq true rx 54).ptpSend .pdelayRespFollowUp h.seq false s.now 54
  | .pdelayResp, some (seq, _), _ =>
    if h.seq = seq then s.modPtp fun p => { p with pdResp := some (h.src, h.seq, stamp, rx, h.corr) } else s.ptpDiscard
  | .pdelayRespFollowUp, some (seq, t1), some (src, seq', t2, t4, c) =>
    if h.seq = seq ∧ h.src = src ∧ seq' = seq then
      (s.modPtp fun p => { p with req := none, pdResp := none }).setMpd
        (Int.tdiv (((t4 : Int) - t1) - ((stamp : Int) - t2) - c - h.corr) 2)
    else s.ptpDiscard
  | _, _, _ => s.ptpDiscard

/-- A Delay_Req reaches a master: it answers. -/
def State.ptpDelayReq (s : State) (h : PtpHdr) (t4 : Nat) : State :=
  if !s.ptpOn then s else
  if s.ptpFits h && s.ptpMaster && !s.ptpP2p then s.ptpSend .delayResp h.seq false t4 54 else s.ptpDiscard

/-- A PTP message that P3 takes. -/
def State.ptpRx (s : State) (m : PtpMsg) : State :=
  match m.kind with
  | .sync => s.ptpSync m.hdr m.twoStep m.origin m.rx
  | .followUp => s.ptpFollowUp m.hdr m.origin
  | .delayReq => s.ptpDelayReq m.hdr m.rx
  | .delayResp => s.ptpDelayResp m.hdr m.origin
  | .pdelayReq => s.ptpPdelay m.hdr .pdelayReq m.origin m.rx
  | .pdelayResp => s.ptpPdelay m.hdr .pdelayResp m.origin m.rx
  | .pdelayRespFollowUp => s.ptpPdelay m.hdr .pdelayRespFollowUp m.origin m.rx
  | .announce => s.ptpAnnounce m.hdr m.ann
  | .other => if s.ptpOn then s.ptpDiscard else s

/-! ## The commands -/

def execPtpSyncRx (h : PtpHdr) (twoStep : Bool) (origin t2 : Nat) (s : State) : Answer := .next (s.ptpSync h twoStep origin t2)
def execPtpFollowUpRx (h : PtpHdr) (origin : Nat) (s : State) : Answer := .next (s.ptpFollowUp h origin)
def execPtpAnnounceRx (h : PtpHdr) (a : Announce) (s : State) : Answer := .next (s.ptpAnnounce h a)
def execPtpDelayRespRx (h : PtpHdr) (t4 : Nat) (s : State) : Answer := .next (s.ptpDelayResp h t4)
def execPtpPdelayRx (h : PtpHdr) (kind : PtpKind) (stamp rx : Nat) (s : State) : Answer := .next (s.ptpPdelay h kind stamp rx)
def execPtpDelayReqRx (h : PtpHdr) (t4 : Nat) (s : State) : Answer := .next (s.ptpDelayReq h t4)

/-- PTP_SYNC_TX: Sync and its Follow_Up. -/
def execPtpSyncTx (s : State) : Answer :=
  if !(s.ptpOn && s.ptpMaster) then .next s else
  let seq := s.ptp.seqSync
  let s := s.modPtp fun p => { p with seqSync := seq + 1 }
  .next ((s.ptpSend .sync seq true 0 44).ptpSend .followUp seq false s.now 44)

/-- PTP_ANNOUNCE_TX. -/
def execPtpAnnounceTx (s : State) : Answer :=
  if !(s.ptpOn && s.ptpMaster) then .next s else
  let seq := s.ptp.seqAnn
  .next ((s.modPtp fun p => { p with seqAnn := seq + 1 }).ptpSend .announce seq false s.now 64)

/-- PTP_DELAY_REQ_TX: Delay_Req of a slave, or Pdelay_Req. -/
def execPtpDelayReqTx (s : State) : Answer :=
  if !(s.ptpOn && (s.ptpP2p || s.ptp.master.isSome)) then .next s else
  let seq := s.ptp.seqReq
  let s := s.modPtp fun p => { p with seqReq := seq + 1, req := some (seq, s.now), pdResp := none }
  .next (if s.ptpP2p then s.ptpSend .pdelayReq seq false s.now 54 else s.ptpSend .delayReq seq false s.now 44)

/-- PTP_MASTER_LOST: a timeout of the selected master, or of a port that hears none. -/
def execPtpMasterLost (s : State) : Answer :=
  if !s.alive then .next s else
  let ann := decide (s.ptp.annAt + s.annTimeout ≤ s.now)
  let syn := decide (s.ptp.syncAt + 4 * s.syncInterval ≤ s.now)
  if s.ptp.master.isSome && (ann || syn) then .next (s.ptpLose.bmca)
  else if s.ptpEn && s.ptp.master.isNone && !s.ptpMaster && ann && !bit (s.rd Reg.ptpCtrl) 2 && !s.safeLatch &&
      (bestOf (s.qualified s.ptpPlane)).isNone then
    .next (s.setRole true)
  else .next s

/-- HOLDOVER_LONG (R348). -/
def execHoldoverLong (s : State) : Answer :=
  match s.ptp.holdFrom with
  | none => .next s
  | some t =>
    if s.alive && s.sstate == 3 && !s.ptp.longTold && decide (t + 1000000000 * fld (s.rd Reg.ptpHoldmax) 0 16 < s.now) then
      .next (((s.modPtp fun p => { p with longTold := true }).evt 0x24 16).raise 0x2404 [])
    else .next s

/-- PTP.CTRL is written: enabling or disabling the clock starts it afresh, a clock that shall never be master leaves the role,
and a new PLANE attaches the port, to plane A where it may move (R345, R358). -/
def State.ptpCtrlWrite (s : State) (v : Word) : State :=
  let was := s.ptpEn
  let planes := fld (s.rd Reg.ptpCtrl) 4 2
  let s := s.wr Reg.ptpCtrl v
  let s := if fld v 4 2 = planes then s else s.wr Reg.ptpStat (setBit (s.rd Reg.ptpStat) 4 (fld v 4 2 == 2))
  let s := if bit v 2 then s.setRole false else s
  if bit v 0 == was then s else
  let s := s.setRole false
  s.modPtp fun p => { p with heard := [], annAt := s.now, sync := none, req := none, pdResp := none }

/-- PTP.TSNAP and SYS.SNAP (R357, spec/17_start_up_and_update.md R451). -/
def State.timeSnap (s : State) (v : Word) : State :=
  if v ≠ 1 then s else
  (s.wr64 Reg.ptpTimeLo s.now).wr Reg.ptpOffs (wi (max (-2147483648) (min 2147483647 s.ptp.offs)))
def State.sysSnap (s : State) (v : Word) : State := if v ≠ 1 then s else s.wr64 Reg.sysMtimeLo s.now

end Sys2Proof.Machine
end

