-- ==== Sys2Proof/Machine/Decim.lean ====
section
/-! DEFINITION. The decimation engine and its commands (spec/10_decimation.md). -/
namespace Sys2Proof.Machine

def State.modDec (s : State) (f : Dec → Dec) : State := { s with dec := f s.dec }
def State.ds (s : State) (k : Nat) : DsCh := Vec.at s.dec.ch k DsCh.reset
def State.modDs (s : State) (k : Nat) (f : DsCh → DsCh) : State := s.modDec fun d => { d with ch := Vec.updAt d.ch k f }

/-! ## Registers (R283 to R285) -/

def State.dscfg (s : State) (k : Nat) : Word := s.rd (Reg.decDscfg k)
def State.dsEn (s : State) (k : Nat) : Bool := bit (s.dscfg k) 7
def State.dsPreset (s : State) (k : Nat) : Nat := fld (s.dscfg k) 0 2
def State.dsLen (s : State) (k : Nat) : Nat := fld (s.dscfg k) 8 10 + 1
def State.decMd (s : State) : Nat := fld (s.rd Reg.decCtrl) 0 8
def State.decTest (s : State) : Bool := bit (s.rd Reg.decTest) 0
def State.decTmd (s : State) : Nat := fld (s.rd Reg.decTest) 8 8

/-- The period of the modulator clocks, ns (R264, R281). -/
def State.mclkNs (s : State) : Nat := if s.decTest then s.decTmd else s.decMd

/-- The conversion interval, T_OUT and T_SET of a preset in modulator clocks (R268, R271). -/
def convClocks (p : Nat) : Nat := if p = 0 then 16 else if p = 1 then 64 else if p = 2 then 128 else 256
def outClocks (p : Nat) : Nat := if p = 3 then 1024 else convClocks p
def setClocks (p : Nat) : Nat := if p = 0 then 48 else if p = 1 then 192 else if p = 2 then 512 else 9984

/-- The order of a preset. -/
def dsOrder (p : Nat) : Nat := if p ≤ 1 then 3 else 4

/-- The channels run, and the clock a channel selects is granted and enabled (R265, R276). -/
def State.decOn (s : State) : Bool :=
  s.alive && (s.mstate == .stop || s.mstate == .run || s.mstate == .hold) && (s.pstate == .run || s.pstate == .doze)
def State.mclkOk (s : State) (k : Nat) : Bool :=
  if bit (s.dscfg k) 2 then s.dec.own1 && bit (s.rd Reg.decCtrl) 9 else s.dec.own0 && bit (s.rd Reg.decCtrl) 8

/-- A recovery, or a test, is delivered through the resampler (R279). -/
def State.rsmpOn (s : State) : Bool := s.decTest || s.dec.eps.isSome

/-- DSSTATk [7:0] (R285). -/
def State.dsstat (s : State) (k : Nat) : Word :=
  let c := s.ds k
  wd (b2n c.valid + 2 * b2n c.fill + 4 * b2n c.stuck + 8 * b2n c.ovr + 16 * b2n c.noclk + 32 * b2n (s.rsmpOn && s.dsEn k) +
    64 * b2n c.dperr + 128 * b2n (decide (s.dsLen k ≤ c.avg.length)))

/-- The value of a channel is good (R275). -/
def State.dsGood (s : State) (k : Nat) : Bool :=
  let c := s.ds k
  s.dsEn k && !c.fill && !c.stuck && !c.noclk && !c.dperr && !s.dec.engFlt

/-- DS_IPI_WRITE: all items of a channel, fresh at the latch instant of its last value (R275, R276). -/
def State.dsItems (s : State) (k : Nat) : State :=
  let ok := s.dsGood k
  let s := s.modDs k fun c => { c with valid := ok }
  let c := s.ds k
  s.putItemsAt 0x20 k (if c.gridAt = 0 then 0 else c.gridAt + 20 * k + 1) fun m => match m.item with
    | 0 => (s.rd (Reg.decDsval k), ok)
    | 1 => (s.rd (Reg.decDsavg k), ok && decide (s.dsLen k ≤ c.avg.length))
    | 2 => (s.dsstat k, true)
    | _ => (wd c.gridAt, ok)

/-- CHANNEL_RESTART (R276): a stream that is stuck goes on being so until it changes (R278). -/
def State.dsRestart (s : State) (k : Nat) : State :=
  let t := s.now + setClocks (s.dsPreset k) * s.mclkNs
  (s.modDs k fun c =>
    { c with integ := Vector.replicate 4 0, comb := Vector.replicate 4 0, fir := [], avg := [], hist := [], hold := 0
             run := if c.stuck then c.run else 0, fill := true, fillAt := t }).dsItems k

/-- Payload of a DEC record. -/
def State.decRaise (s : State) (code k n : Nat) : State := (s.evt 0x18 (wd (2 ^ n))).raise code [wd k]

/-- An enabled channel on a refused clock reports NOCLK (R265, R278). -/
def State.dsClock (s : State) (k : Nat) : State :=
  if s.dsEn k && !s.mclkOk k && !(s.ds k).noclk then
    ((s.modDs k fun c => { c with noclk := true }).dsItems k).decRaise 0x1803 k 2
  else s

/-- Every channel starts, and the grid with them (R268, R276). -/
def State.decStart (s : State) : State :=
  let s := s.modDec fun d => { d with grid := s.now, gridN := 0 }
  (List.range 16).foldl (fun s k => if s.dsEn k then (s.dsRestart k).dsClock k else s.dsItems k) s

/-- The resampler has started or stopped since `was` (R279). -/
def State.rsmpTell (s : State) (was : Bool) : State :=
  if s.rsmpOn && !was then (s.evt 0x18 16).raise 0x1806 []
  else if was && !s.rsmpOn then (s.evt 0x18 32).raise 0x1807 []
  else s

/-! ## One slot (R267, R270, R272, R274) -/

/-- One sample enters the integrators. -/
def integrate (v : Vector (BitVec 40) 4) (b : Bool) : Vector (BitVec 40) 4 :=
  let a := v[0] + (if b then 1 else -1)
  let c := v[1] + a
  let d := v[2] + c
  #v[a, c, d, v[3] + d]

/-- The sixteen samples since the last grid instant. -/
def DsCh.feed (c : DsCh) (inv : Bool) (bits : BitVec 16) : DsCh :=
  (List.range 16).foldl (fun c i =>
    let b := bit bits i
    { c with integ := integrate c.integ (b != inv), run := if b == c.last then satNat 1024 (c.run + 1) else 1, last := b }) c

/-- The comb output of order `n`, and the new delays. -/
def DsCh.combOut (c : DsCh) (n : Nat) : Int × Vector (BitVec 40) 4 :=
  let x0 := if n = 3 then c.integ[2] else c.integ[3]
  let x1 := x0 - c.comb[0]
  let x2 := x1 - c.comb[1]
  let x3 := x2 - c.comb[2]
  let x4 := x3 - c.comb[3]
  (sfld (if n = 3 then x3 else x4) 0 40, #v[x0, x1, x2, x3])

/-- The quotient rounded to nearest, ties towards +∞. -/
def roundDiv (a b : Int) : Int := Int.fdiv (2 * a + b) (2 * b)

/-- Q of a sinc stage (R270). -/
def dsScale (p : Nat) (y : Int) : Int :=
  if p = 0 then y * 2 ^ 18 else if p = 1 then y * 2 ^ 12 else if p = 2 then y * 2 ^ 2 else roundDiv y 4

/-- Dusk's FIR: unity gain at DC, so the sum is divided by the sum of the coefficients (R272). -/
def firOut (l : List Int) : Int :=
  let c (i : Nat) : Int := (Config.firc (if i ≤ 17 then i else 35 - i)).toInt
  let acc := (l.zipIdx.foldl (fun a x => a + c x.2 * x.1) 0 : Int)
  let g := ((List.range 36).foldl (fun a i => a + c i) 0 : Int)
  max (-2147483648) (min 2147483647 (roundDiv (sfld (BitVec.ofInt 48 acc) 0 48) g))

/-- A value is delivered: Q, average, overload; its grid instant is stamped to 4 ns, rounded down (R268, R274, R278; DEDUCED, log
entry 26). -/
def State.dsDeliver (s : State) (k at' : Nat) (q : Int) : State :=
  let l := s.dsLen k
  let avg := (q :: (s.ds k).avg).take l
  let a := Int.tdiv (avg.foldl (· + ·) 0) avg.length
  let th := fld (s.dscfg k) 24 8
  let ovr := th != 0 && decide (th * 2 ^ 23 ≤ q.natAbs)
  let rose := ovr && !(s.ds k).ovr
  let s := (s.wr (Reg.decDsval k) (wi q)).wr (Reg.decDsavg k) (wi a)
  let s := s.modDs k fun c => { c with avg := avg, ovr := ovr, gridAt := at' / 4 * 4 }
  let s := if rose then s.decRaise 0x1802 k 1 else s
  s.dsItems k

/-- The phase of the resampler at grid instant `c`: the target instant within the native output interval (R279, R280). -/
def State.rsmpPhase (s : State) (k c : Nat) : Nat :=
  let nat := outClocks (s.dsPreset k) * s.mclkNs
  let off : Int := match s.dec.eps with
    | some e => -e
    | none => ((c - s.dec.grid) % nat : Nat)
  (Int.emod (roundDiv (off * 64) nat) 64).toNat

/-- A native value of a channel in recovery (R280): repeated while the resampler fills, then resampled. -/
def State.dsNative (s : State) (k c : Nat) (q : Int) : State :=
  let s := s.modDs k fun x => { x with hist := (q :: x.hist).take 16 }
  if s.decTest then s
  else if s.dec.eps.isNone then s.dsDeliver k c q
  else if (s.ds k).hold ≠ 0 then
    (s.modDs k fun x => { x with hold := x.hold - 1 }).dsDeliver k c (sfld (s.rd (Reg.decDsval k)) 0 32)
  else s.dsDeliver k c (Config.resample (s.rsmpPhase k c) (s.ds k).hist)

/-- DPERR, and the third within a second (R278). -/
def State.dsDperr (s : State) (k : Nat) : State :=
  let errs := s.now :: s.dec.errs.filter fun t => decide (s.now < t + 1000000000)
  let s := (s.modDec fun d => { d with errs := errs }).count Reg.decDperrcnt
  let s := ((s.modDs k fun c => { c with dperr := true }).dsRestart k).decRaise 0x1804 k 3
  if errs.length < 3 ∨ s.dec.engFlt then s else
  let s := (s.modDec fun d => { d with engFlt := true }).raise 0x1805 [wd k]
  (List.range 16).foldl (fun s k => s.dsItems k) s

/-- In a test, the values for the instants of the nominal grid of MD that the round at `c` has reached (R281). -/
def State.dsNominal (s : State) (k c : Nat) : State :=
  let nom := outClocks (s.dsPreset k) * s.decMd
  let hi := (c - s.dec.grid) / nom
  let lo := (c - 16 * s.mclkNs - s.dec.grid) / nom
  (List.range (hi - lo)).foldl (fun s i =>
    let t := s.dec.grid + (lo + 1 + i) * nom
    s.dsDeliver k t (Config.resample (s.rsmpPhase k t) (s.ds k).hist)) s

/-- CONVERSION_SLOT: slot `k` of the round at grid instant `n`. -/
def State.dsSlot (s : State) (n c k : Nat) (bits : BitVec 16) (dperr : Bool) : State :=
  if !s.dsEn k || s.dec.engFlt || !s.mclkOk k then s else
  let s := s.modDs k fun x => x.feed (bit (s.dscfg k) 6) bits
  if dperr then s.dsDperr k else
  let p := s.dsPreset k
  let s :=
    if 16 * n % convClocks p ≠ 0 then s else
    let (y, comb) := (s.ds k).combOut (dsOrder p)
    let q := dsScale p y
    let s := s.modDs k fun x => { x with comb := comb, fir := if p = 3 then (q :: x.fir).take 36 else x.fir }
    if p ≠ 3 then s.dsNative k c q
    else if 16 * n % 1024 = 0 then s.dsNative k c (firOut (s.ds k).fir) else s
  if s.decTest then s.dsNominal k c else s

/-- The phase error moves by 5 ns; at 0 the resampler stops (R280). -/
def State.decSlew (s : State) : State :=
  match s.dec.eps with
  | none => s
  | some e =>
    let e' : Int := if e.natAbs ≤ 5 then 0 else if 0 < e then e - 5 else e + 5
    (s.modDec fun d => { d with eps := if e' = 0 then none else some e' }).rsmpTell true

/-- CONVERSION_ROUND: the round of the next grid instant. -/
def execConversionRound (r : DsRound) (s : State) : Answer :=
  let n := s.dec.gridN + 1
  let c := s.dec.grid + 16 * s.mclkNs * n
  if !(s.decOn && decide (c ≤ s.now)) then .next s else
  let s := s.modDec fun d => { d with gridN := n }
  .next (((List.range 16).foldl (fun s k => s.dsSlot n c k (r.bits.getD k 0) (bit r.dperr k)) s).decSlew)

/-! ## Supervision (R276, R278) -/

/-- FILL_END. -/
def execFillEnd (k : Fin 16) (s : State) : Answer :=
  let c := s.ds k
  if s.decOn && s.dsEn k && c.fill && decide (c.fillAt ≤ s.now) then
    .next ((s.modDs k fun c => { c with fill := false, dperr := false }).dsItems k)
  else .next s

/-- DS_STUCK: 1,024 equal samples. -/
def execDsStuck (k : Fin 16) (s : State) : Answer :=
  let c := s.ds k
  if s.decOn && s.dsEn k && !c.stuck && decide (1024 ≤ c.run) then
    .next (((s.modDs k fun c => { c with stuck := true }).dsItems k).decRaise 0x1801 k 0)
  else .next s

/-- DS_STUCK_CLEAR: the first change, then a restart. -/
def execDsStuckClear (k : Fin 16) (s : State) : Answer :=
  let c := s.ds k
  if s.decOn && s.dsEn k && c.stuck && decide (c.run < 1024) then
    .next ((s.modDs k fun c => { c with stuck := false }).dsRestart k)
  else .next s

/-- NOCLK: the clock is refused, or none is read back. -/
def execNoclk (k : Fin 16) (s : State) : Answer :=
  if s.decOn && s.dsEn k && !(s.ds k).noclk then
    .next (((s.modDs k fun c => { c with noclk := true }).dsItems k).decRaise 0x1803 k 2)
  else .next s

/-- NOCLK_CLEAR: edges of a granted clock have returned for 10 µs. -/
def execNoclkClear (k : Fin 16) (s : State) : Answer :=
  if s.decOn && s.dsEn k && (s.ds k).noclk && s.mclkOk k then
    .next ((s.modDs k fun c => { c with noclk := false }).dsRestart k)
  else .next s

/-! ## Writes (R265, R276, R281, R283) -/

/-- The clock output a DSCFG value selects is enabled, and its fields are in range. -/
def dscfgOk (ctrl v : Word) : Bool := fld v 24 8 ≤ 128 && (!bit v 7 || bit ctrl (if bit v 2 then 9 else 8))

/-- DSCFGk. -/
def State.dscfgWrite (s : State) (k : Nat) (v : Word) : Option State :=
  if dscfgOk (s.rd Reg.decCtrl) v then some (((s.wr (Reg.decDscfg k) (v &&& 0xff03ffff)).dsRestart k).dsClock k) else none

/-- CTRL is in range, and every enabled channel's clock is enabled. -/
def State.decCtrlOk (s : State) (v : Word) : Bool :=
  50 ≤ fld v 0 8 && fld v 0 8 ≤ 200 && (List.range 16).all fun k => dscfgOk v (s.dscfg k)

/-- The claim of a clock output for its contact (R265). -/
def State.mclkClaim (s : State) (i : Nat) (want : Bool) : State :=
  let n := 6 + i
  let mine := if i = 0 then s.dec.own0 else s.dec.own1
  let set (s : State) (b : Bool) : State := s.modDec fun d => if i = 0 then { d with own0 := b } else { d with own1 := b }
  if want == mine then s
  else if !want then (set s false).modPin n fun p => { p with owner := .none }
  else if (s.pin n).owner = .none then (set s true).modPin n fun p => { p with owner := .mclk }
  else (s.conflict 0x18).raise 0x1808 [wd i]

/-- CTRL is written: the outputs claim or give up their contacts, and all channels start. -/
def State.decCtrlWrite (s : State) (v : Word) : Option State :=
  if !s.decCtrlOk v then none else
  let s := s.wr Reg.decCtrl (v &&& 0x7ff)
  some (((s.mclkClaim 0 (bit v 8)).mclkClaim 1 (bit v 9)).decStart)

/-- TMD is allowed (R281). -/
def State.tmdOk (s : State) (tmd : Nat) : Bool := s.decMd ≤ 2 * tmd && tmd ≤ 2 * s.decMd && 50 ≤ tmd && tmd ≤ 200

/-- The test ends. -/
def State.decTestEnd (s : State) : State :=
  if !s.decTest then s else
  ((s.wr Reg.decTest (setBit (s.rd Reg.decTest) 0 false)).rsmpTell true).decStart

/-- TEST is written. -/
def State.decTestWrite (s : State) (v : Word) : Option State :=
  if !s.tmdOk (fld v 8 8) then none
  else if bit v 0 then some (((s.wr Reg.decTest (v &&& 0xff01)).rsmpTell s.rsmpOn).decStart)
  else some ((s.decTestEnd).wr Reg.decTest (v &&& 0xff00))

/-- RESAMPLER_START: a change of the clock source leaves a phase error of at most half a period, a free value; in a recovery
that is under way it is measured afresh and nothing else changes (R280). -/
def State.rsmpStart (s : State) : State :=
  if !s.decOn then s else
  let half := s.mclkNs / 2
  let e : Int := ((s.freeDraw.toNat % (2 * half + 1) : Nat) : Int) - half
  let hold (c : DsCh) : DsCh := if s.dec.eps.isSome then c else { c with hold := 8 }
  (s.drawn.modDec fun d => { d with eps := some e, ch := d.ch.map hold }).rsmpTell s.rsmpOn

end Sys2Proof.Machine
end

