-- ==== Sys2Proof/Machine/Field.lean ====
section
/-!
DEFINITION. The field groups: both sides of the links, inputs and their filters, test sources, outputs, test pulses, the
supply and the resets of the field side (spec/07_field_io.md).
-/
namespace Sys2Proof.Machine

/-! ## Stopwatches (R199, R200) -/

def Watch.upd (w : Watch) (c : Bool) (now : Nat) : Watch :=
  if c then (match w with
    | .idle => .since now
    | w => w) else .idle

def Watch.ripe (w : Watch) (now d : Nat) : Bool :=
  match w with
  | .since t => decide (t + d ≤ now)
  | .idle => false
  | .told => false

/-! ## Configuration fields (R222) -/

def State.inFilt (s : State) (g k : Nat) : Nat := fld (s.rd (Reg.fioIncfg g k)) 0 16
def State.inSrc (s : State) (g k : Nat) : Nat := fld (s.rd (Reg.fioIncfg g k)) 16 2

/-- Whole frames of the filter time (R192). -/
def State.filtFrames (s : State) (g k : Nat) : Nat := ceilDiv (s.inFilt g k * 1000) 160

/-- TPCFG of output `k`; the upper output of a pair follows the lower one's (R200). -/
def State.tpCfg (s : State) (g k : Nat) : Word :=
  s.rd (Reg.fioTpcfg g (if k % 2 = 1 ∧ s.fioPair g (k / 2) then k - 1 else k))
def State.tpWidth (s : State) (g k : Nat) : Nat := 1000 * fld (s.tpCfg g k) 0 10
def State.tpInt (s : State) (g k : Nat) : Nat := 1000000000 * fld (s.tpCfg g k) 16 12
def State.tpEn (s : State) (g k : Nat) : Bool := bit (s.tpCfg g k) 31

def State.tsWidth (s : State) (g : Nat) : Nat := 1000 * fld (s.rd (Reg.fioTscfg g)) 0 10
def State.tsInt (s : State) (g : Nat) : Nat := 1000000 * fld (s.rd (Reg.fioTscfg g)) 16 10

def Fio.pulse (f : Fio) (k : Nat) : TestPulse := Vec.at f.tp k TestPulse.reset
def Fio.source (f : Fio) (j : Nat) : SrcPulse := Vec.at f.ts j ⟨0, none, 0⟩
def State.modPulse (s : State) (g k : Nat) (h : TestPulse → TestPulse) : State :=
  s.modFio g fun f => { f with tp := Vec.updAt f.tp k h }
def State.modSource (s : State) (g j : Nat) (h : SrcPulse → SrcPulse) : State :=
  s.modFio g fun f => { f with ts := Vec.updAt f.ts j h }

/-- Test-pulse intervals in progress take the length that TPCFG gives now, `old` holding what it gave before. -/
def State.tpFollow (s old : State) (g : Nat) : State :=
  (List.range 4).foldl (fun s k =>
    let a := old.tpInt g k
    let b := s.tpInt g k
    if a = b then s else s.modPulse g k fun p => { p with next := p.next + b - a }) s

/-- The command of output `k` that the lanes sent last: the vote of their valid words (R166, R199). -/
def Fio.sentOn (f : Fio) (k : Nat) : Bool := downVote f.sent k

/-- Output `k` was commanded on, for test pulses: ON and GEN (R201). -/
def Fio.sentLive (f : Fio) (k : Nat) : Bool := f.sentOn k && downVote f.sent 4

/-! ## Downstream -/

/-- DOWNSTREAM_FRAME_TX (R205): a frame every 160 ns; a TPREQ request whose output is not commanded on then is over. -/
def execDownstreamFrameTx (g : Fin 4) (s : State) : Answer :=
  if !s.linksOn then .next s else
  let f := s.downFrame g
  let gens : BitVec 3 := BitVec.ofNat 3 (fld f 60 1 + 2 * fld f 36 1 + 4 * fld f 12 1)
  let on (k : Nat) : Bool := s.outOn g k
  .next (s.modFio g fun x =>
    { x with down := some f, sent := f, downSeq := x.downSeq + 1, genHist := Vec.updAt x.genHist x.downSeq.toNat fun _ => gens,
             tp := Vector.ofFn fun (k : Fin 4) => { x.tp[k] with req := x.tp[k].req && on k } })

/-- FIELD_DOWNSTREAM_RX (R166, R206, R207): the frame on the wire, disturbed by `noise`, reaches the field side. -/
def execFieldDownstreamRx (g : Fin 4) (noise : BitVec 96) (railLow : Bool) (s : State) : Answer :=
  match (s.fioG g).down with
  | none => .next s
  | some f =>
    if s.supply == .off || !(s.fsideG g).running then .next s else
    .next ((s.modFio g fun x => { x with down := none }).modFside g fun x => x.receive (f ^^^ noise) railLow)

/-- FIELD_DOWNSTREAM_MISSING (R212): a second 160 ns slot in a row holds no frame. -/
def execFieldDownstreamMissing (g : Fin 4) (s : State) : Answer :=
  if s.supply == .off || !(s.fsideG g).running || (s.fioG g).down.isSome then .next s else
  .next (s.modFside g fun x => x.miss.miss)

/-- FIELD_LATCH_CLEAR (R216, R217). -/
def execFieldLatchClear (g : Fin 4) (s : State) : Answer :=
  let x := s.fsideG g
  if s.supply != .off && x.running && x.rdy && decide (16 ≤ x.genZero) then
    .next (s.modFside g fun x => { x with latch := false, rst := false })
  else .next s

/-- FIELD_UPSTREAM_TX (R192, R208): the field side samples its inputs and readbacks and sends a frame. -/
def execFieldUpstreamTx (g : Fin 4) (p : FieldPins) (s : State) : Answer :=
  let x := s.fsideG g
  if s.supply == .off || !x.running then .next s else
  .next ((s.modFio g fun f => { f with up := some (x.frame g p) }).modFside g fun x => { x with upSeq := x.upSeq + 1 })

/-- RECEIVER_LOCK (R204): eight frames in a row have passed their check. -/
def execReceiverLock (g : Fin 4) (e : LinkEnd) (s : State) : Answer :=
  match e with
  | .logic =>
    if s.linksOn && decide (8 ≤ (s.fioG g).lockRun) then .next (s.modFio g fun f => { f with locked := true }) else .next s
  | .field =>
    if s.supply != .off && (s.fsideG g).running && decide (8 ≤ (s.fsideG g).lockRun) then
      .next (s.modFside g fun x => { x with locked := true, missing := 0 })
    else .next s

/-! ## Upstream -/

/-- The frame passes the SEQ test: SEQ follows by the slots passed; the first good frame after a loss is exempt (R209). -/
def Fio.seqOk (f : Fio) (x : BitVec 96) : Bool :=
  f.exempt || fld x 88 4 == (fld f.frame 88 4 + f.slots + 1) % 16

/-- A slot without a good frame (R204, R209). -/
def State.fioBad (s : State) (g : Nat) : State :=
  let f := s.fioG g
  let c := Reg.fioLinkcnt g
  let s := if f.locked || f.accepted then s.wr c (satIncFld (s.rd c) 0 16) else s
  s.modFio g fun f => { f with lockRun := 0, goodRun := 0, badRun := satNat 2 (f.badRun + 1), slots := (f.slots + 1) % 16 }

/-- The link is lost (R211): inputs substituted, the enable latch cleared, 0x1001. -/
def State.fioLose (s : State) (g : Nat) : State :=
  let c := Reg.fioLinkcnt g
  let s := s.wr c (satIncFld (s.rd c) 16 16)
  let s := s.modFio g fun f =>
    { f with accepted := false, exempt := true, locked := false, lockRun := 0, goodRun := 0, clsRun := 0, vwRun := Vector.replicate 3 0,
             stuck := Vector.replicate 4 .idle, short := Vector.replicate 4 .idle, openLd := Vector.replicate 4 .idle,
             pair := Vector.replicate 2 .idle, tp := f.tp.map fun p => { p with offRun := 0, offSince := none } }
  (((s.clearEn g false).fioWrite g false).fioEvt g 0).fioRaise g 0x1001 0

/-- The filter of an assigned input holds while its source is pulsed off and for 20 µs after (R195). -/
def State.filtHeld (s : State) (g k : Nat) : Bool :=
  let j := s.inSrc g k
  (j == 1 || j == 2) &&
    (let p := (s.fioG g).source (j - 1)
     p.active.isSome || decide (s.now < p.hold))

/-- Input `k`'s filter in one copy over a good frame with raw state `raw` (R192): new state and count. A count that had
expired takes its level first. -/
def State.filtStep (s : State) (g k : Nat) (c : FioCopy) (raw : Bool) : Bool × Nat :=
  let need := s.filtFrames g k
  let n := Vec.at c.fcnt k 0
  let q := bit c.filt k
  if s.filtHeld g k then (q, n)
  else if need = 0 then (raw, 0)
  else
    let (q, n) := if need ≤ n then (!q, 0) else (q, n)
    if raw == q then (q, 0) else (q, n + 1)

/-- The eight filters of one copy. -/
def State.filtCopy (s : State) (g : Nat) (inp : Byte) (c : FioCopy) : FioCopy :=
  let r := (List.range 8).map fun k => s.filtStep g k c (bit inp k)
  { c with filt := BitVec.ofNat 8 (packBits 8 fun k => (r.getD k (false, 0)).1).toNat,
           fcnt := Vector.ofFn fun (k : Fin 8) => (r.getD k (false, 0)).2 }

/-- All filters run on a good frame; at the first of the frames that lead to acceptance they start afresh. -/
def State.filtAll (s : State) (g : Nat) (inp : Byte) : State :=
  if !(s.fioG g).accepted && (s.fioG g).goodRun == 1 then
    s.modCopies g fun c => { c with filt := inp, fcnt := Vector.replicate 8 0 }
  else s.modCopies g fun c => s.filtCopy g inp c

/-- What a source pulse sees of its inputs, from 20 µs after its start (R195). -/
def State.srcWatch (s : State) (g : Nat) (inp : Byte) : State :=
  (List.range 2).foldl (fun s j =>
    match ((s.fioG g).source j).active with
    | none => s
    | some t =>
      if s.now < t + 20000 then s else
      let z : Byte := BitVec.ofNat 8 (packBits 8 fun k => s.inSrc g k == j + 1 && !bit inp k).toNat
      s.modCopies g fun c => { c with tsZero := c.tsZero ||| z, tsSeen := c.tsSeen ||| BitVec.ofNat 2 (2 ^ j) }) s

/-- The copies' contributions to the group's words are voted before they are written (R193,
spec/06_triplex_execution.md R165). -/
def State.fioVote (s : State) (g : Nat) : State :=
  let f := s.fioG g
  (s.vote 1 (pimIpi + ((s.inMaps 1 g).map fun m => m.piw).headD 0) ⟨(f.copy 0).word, (f.copy 1).word, (f.copy 2).word⟩).1

/-- A detail slot is received (R195, R197, R210): an output tripped, new comparator faults, a group switch found stuck, and a closing after a
good check. -/
def State.detailIn (s : State) (g n : Nat) (v : Half) : State :=
  let old := (s.fioG g).slot n
  let s := s.modFio g fun f => { f with detail := Vec.updAt f.detail n fun _ => v }
  let trip (v : Half) : Bool := bit v 0 || bit v 2
  if n < 4 then
    if trip v && !trip old && s.fioOuten g n then (s.fioEvt g 6).fioRaise g 0x1006 n else s
  else if n = 4 then
    (List.range 8).foldl (fun s k => if bit v k && !bit old k then (s.fioEvt g 7).fioRaise g 0x100c k else s) s
  else if n = 8 then
    let s := if bit v 1 && !bit old 1 then (s.fioEvt g 11).fioRaise g 0x100b 0 else s
    if bit v 0 && !bit old 0 then (s.modFio g fun f => { f with gswAt := s.now }).wr (Reg.diaGsage g) 0 else s
  else s

/-- A field-side restart found after the link was once accepted (R217). -/
def State.restartFound (s : State) (g : Nat) : State :=
  ((s.modFio g fun f => { f with judging := false }).fioEvt g 2).fioRaise g 0x1002 0

/-- RST of an accepted link is taken note of. -/
def State.rstWatch (s : State) (g : Nat) (again : Bool) : State :=
  let f := s.fioG g
  let rest : Byte := BitVec.ofNat 8 (fld (f.slot 9) 8 8)
  let found := again && f.rst && (!f.rstSeen || (!f.accepted && f.restSeen != rest))
  let s := s.modFio g fun f => { f with rstSeen := f.rst, restSeen := rest }
  if found then s.restartFound g else s

/-- The supply is judged while the link is accepted and the class agrees (R214). -/
def State.supplyWatch (s : State) (g : Nat) : State :=
  let f := s.fioG g
  if !(f.accepted && s.clsOk g) then s else
  let was := if f.judging then f.supSeen.toNat else 0
  let wasLatch := if f.judging then f.latchSeen else f.latch
  let s := s.modFio g fun x => { x with judging := true, supSeen := BitVec.ofNat 2 f.sup, latchSeen := f.latch }
  let s := if was = 0 ∧ f.sup ≠ 0 then (s.fioEvt g 3).fioRaise g 0x1003 0 else s
  let s := if was < 2 ∧ 2 ≤ f.sup then s.fioEvt g 4 else s
  if f.latch && !wasLatch && f.sup == 3 then (s.fioEvt g 5).fioRaise g 0x1004 0 else s

/-- The field sides are owed a valid word of lane `l`: it counts in votes, and the module is not in SAFE, where every lane
clears LV (R211, spec/19_faults_and_diagnostics.md R481; DEDUCED, log entry 17). -/
def State.laneWordDue (s : State) (l : Nat) : Bool := !s.safeLatch && s.lanes.counts l

/-- Runs and stopwatches over one good frame of an accepted link (R190, R199, R200, R211). -/
def State.frameWatch (s : State) (g n : Nat) : State :=
  let f := s.fioG g
  let t := s.now
  let opn := bit (s.rd (Reg.fioCtrl g)) 8
  let use (k : Nat) : Bool := s.fioOuten g k
  let pulse (k : Nat) : Bool := (f.pulse k).active.isSome
  let pairOn (p : Nat) : Bool :=
    s.fioPair g p && !pulse (2 * p) && !pulse (2 * p + 1) && bit f.rbk (2 * p) != bit f.rbk (2 * p + 1)
  let counts (l : Nat) : Bool := s.laneWordDue l
  let ok := s.clsOk g
  s.modFio g fun x =>
    { x with
      clsRun := if ok then 0 else if 32 ≤ x.clsRun then x.clsRun else x.clsRun + 1
      vwRun := Vector.ofFn fun (l : Fin 3) => if f.vw l || !counts l then 0 else if 16 ≤ x.vwRun[l] then x.vwRun[l] else x.vwRun[l] + 1
      stuck := Vector.ofFn fun (k : Fin 4) => x.stuck[k].upd (bit f.rbk k && (!f.sentOn k || !use k)) t
      short := Vector.ofFn fun (k : Fin 4) =>
        x.short[k].upd (!bit f.rbk k && f.sentOn k && bit (f.slot 8) 0 && use k && !bit (f.slot k) 0 && !bit (f.slot k) 2) t
      openLd := Vector.ofFn fun (k : Fin 4) =>
        if k.val = n then x.openLd[k].upd (opn && bit (f.slot k) 1 && f.sentOn k && use k) t
        else if opn && f.sentOn k && use k then x.openLd[k] else .idle
      pair := Vector.ofFn fun (p : Fin 2) => x.pair[p].upd (pairOn p) t }

/-- An output that has been off for TPW with its readback off counts as tested (R201); a pulse that failed or was not judged
leaves the next one due all the same (R202). -/
def State.offTest (s : State) (g k : Nat) : State :=
  let f := s.fioG g
  let p := f.pulse k
  let t := s.now
  let rb := bit f.rbk k
  let p := { p with offRun := if rb then 0 else p.offRun + 1 }
  let p := { p with passed := p.passed || (p.active.isSome && decide (4 ≤ p.offRun)) }
  let p := if rb || f.sentLive k || p.active.isSome then { p with offSince := none }
    else { p with offSince := some (p.offSince.getD t) }
  let p := match p.offSince with
    | none => p
    | some u => if u + s.tpWidth g k ≤ t then { p with tested := t, next := if p.owed then p.next else t + s.tpInt g k } else p
  s.modPulse g k fun _ => p

/-- A good upstream frame (R192, R193, R208, R209, R211). -/
def State.fioTake (s : State) (g : Nat) (x : BitVec 96) : State :=
  let n := fld x 88 4
  let s := s.modFio g fun f =>
    { f with frame := x, exempt := false, slots := 0, badRun := 0, goodRun := satNat 64 (f.goodRun + 1), lockRun := satNat 8 (f.lockRun + 1) }
  let s := s.detailIn g n (BitVec.ofNat 16 (fld x 16 16))
  let s := s.srcWatch g (s.fioG g).inp
  let s := (s.filtAll g (s.fioG g).inp).fioVote g
  if !(s.fioG g).accepted then s else
  let s := s.rstWatch g true
  let f := s.fioG g
  let s := if f.rst || f.latch then s.clearEn g false else s
  let s := (s.supplyWatch g).frameWatch g n
  let s := (List.range 4).foldl (fun s k => s.offTest g k) s
  s.fioWrite g true

/-- UPSTREAM_FRAME_RX (R209): the frame on the wire, disturbed by `noise`, reaches the logic side. -/
def execUpstreamFrameRx (g : Fin 4) (noise : BitVec 96) (s : State) : Answer :=
  match (s.fioG g).up with
  | none => .next s
  | some f =>
    if s.supply == .off then .next s else
    let s := s.modFio g fun x => { x with up := none }
    if !s.linksOn then .next s else
    let x := f ^^^ noise
    if !upGood x then .next (s.fioBad g)
    else if !(s.fioG g).seqOk x then
      let n := (s.fioG g).lockRun
      .next ((s.fioBad g).modFio g fun f => { f with lockRun := satNat 8 (n + 1) })
    else
      let s := if (s.fioG g).accepted && decide (2 ≤ (s.fioG g).badRun) then s.fioLose g else s
      .next (s.fioTake g x)

/-- UPSTREAM_FRAME_MISSING (R204). -/
def execUpstreamFrameMissing (g : Fin 4) (s : State) : Answer :=
  if s.linksOn && (s.fioG g).up.isNone then .next (s.fioBad g) else .next s

/-- LINK_LOSS (R211). -/
def execLinkLoss (g : Fin 4) (s : State) : Answer :=
  let f := s.fioG g
  if s.linksOn && f.accepted && decide (2 ≤ f.badRun) then .next (s.fioLose g) else .next s

/-- LINK_ACCEPT (R211, R217). -/
def execLinkAccept (g : Fin 4) (s : State) : Answer :=
  let f := s.fioG g
  if s.linksOn && !f.accepted && f.locked && decide (64 ≤ f.goodRun) then
    let s := s.rstWatch g f.ever
    let s := s.modFio g fun f => { f with accepted := true, ever := true, clsRun := 0 }
    .next (((s.supplyWatch g).fioWrite g true).fioEvt g 1)
  else .next s

/-- INPUT_FILTER_ACCEPT (R192): a copy whose count has expired takes the new level. -/
def execInputFilterAccept (g : Fin 4) (k : Fin 8) (s : State) : Answer :=
  let need := s.filtFrames g k
  if s.linksOn && decide (0 < need) && (s.fioG g).cp.toList.any (fun c => decide (need ≤ c.fcnt[k])) && !s.filtHeld g k then
    let s := s.modCopies g fun c =>
      if need ≤ c.fcnt[k] then { c with filt := setBit c.filt k (!bit c.filt k), fcnt := c.fcnt.set k 0 } else c
    let s := s.fioVote g
    .next (if (s.fioG g).accepted then s.fioWrite g false else s)
  else .next s

/-- CLASS_MISMATCH (R190). -/
def execClassMismatch (g : Fin 4) (s : State) : Answer :=
  let f := s.fioG g
  if s.linksOn && f.accepted && f.clsRun == 32 then
    let s := s.modFio g fun f => { f with clsRun := 33 }
    .next ((((s.clearEn g true).fioWrite g false).fioEvt g 9).fioRaise g 0x1009 0)
  else .next s

/-- LANE_WORD_INVALID (R211). -/
def execLaneWordInvalid (g : Fin 4) (lane : Fin 3) (s : State) : Answer :=
  let f := s.fioG g
  if s.linksOn && f.accepted && f.vwRun[lane] == 16 && s.laneWordDue lane then
    .next ((s.modFio g fun f => { f with vwRun := f.vwRun.set lane 17 }).fioRaise g 0x100e lane)
  else .next s

/-! ## The field side's own events -/

/-- FIELD_SIDE_RESET (R217). -/
def execFieldSideReset (g : Fin 4) (s : State) : Answer :=
  if s.supply == .off then .next s else
  .next (s.modFside g fun x => { x.drop with running := false, rst := true, src := 0, locked := false, lockRun := 0, vw := 0 })

/-- FIELD_SIDE_RESTART (R217). -/
def execFieldSideRestart (g : Fin 4) (s : State) : Answer :=
  if s.supply == .off || (s.fsideG g).running then .next s else
  .next (s.modFside g fun x => FieldSide.start x.lplus s.now (satNat 255 (x.restarts + 1)))

/-- The next instant of a grid of interval `d`, after `now`. -/
def nextGrid (next d now : Nat) : Nat := if now < next + d then next + d else next + (( now - next) / (max d 1) + 1) * d

/-- TEST_SOURCE_PULSE_START (R194): due, and neither source is pulsed off; TS1's pulse falls half an interval after TS0's. -/
def execTestSourcePulseStart (g : Fin 4) (t : Fin 2) (s : State) : Answer :=
  let p := (s.fioG g).ts[t]
  if s.linksOn && s.mstate != .safe && bit (s.rd (Reg.fioTscfg g)) (30 + t) && (s.fioG g).ts.toList.all (fun p => p.active.isNone) &&
      decide (p.next ≤ s.now) then
    let half := s.now + s.tsInt g / 2
    let s := s.modSource g t fun p => { p with active := some s.now, next := nextGrid p.next (s.tsInt g) s.now }
    let s := if t.val = 0 then s.modSource g 1 fun p => { p with next := half } else s
    let mask : Byte := BitVec.ofNat 8 (packBits 8 fun k => s.inSrc g k == t.val + 1).toNat
    .next (s.modCopies g fun c => { c with tsZero := c.tsZero &&& ~~~ mask, tsSeen := setBit c.tsSeen t false })
  else .next s

/-- An assigned input is judged in one copy at the end of its source's pulse (R195): the good bit falls when it has not read
0, and returns after two pulses in which it has. -/
def FioCopy.judge (c : FioCopy) (k : Nat) : FioCopy :=
  if bit c.tsZero k then
    if bit c.good k then c else
    let n := Vec.at c.passes k 0 + 1
    if n < 2 then { c with passes := Vec.updAt c.passes k fun _ => n }
    else { c with passes := Vec.updAt c.passes k fun _ => 0, good := setBit c.good k true }
  else { c with passes := Vec.updAt c.passes k fun _ => 0, good := setBit c.good k false }

/-- The copies judge input `k`; fault 0x1008 when the good bit falls. -/
def State.srcJudge (s : State) (g k : Nat) : State :=
  let was := bit (s.fioCopy g).good k
  let s := s.modCopies g fun c => c.judge k
  if was && !bit (s.fioCopy g).good k then (s.fioEvt g 7).fioRaise g 0x1008 k else s

/-- TEST_SOURCE_PULSE_END (R195): the assigned inputs are judged by what the frames of an accepted link showed. -/
def execTestSourcePulseEnd (g : Fin 4) (t : Fin 2) (s : State) : Answer :=
  match (s.fioG g).ts[t].active with
  | none => .next s
  | some u =>
    if s.linksOn && decide (u + s.tsWidth g ≤ s.now) then
      let seen := (s.fioG g).accepted && bit (s.fioCopy g).tsSeen t
      let s := s.modSource g t fun p => { p with active := none, hold := s.now + 20000 }
      let s := if seen then (List.range 8).foldl (fun s k => if s.inSrc g k = t.val + 1 then s.srcJudge g k else s) s else s
      let s := s.fioVote g
      .next (if (s.fioG g).accepted then s.fioWrite g false else s)
    else .next s

/-- COMPARATOR_TEST (R195): the result of the 2 ms test of each comparator stands in detail slot 4; the logic side raises
0x100c when a new bit arrives in it. -/
def execComparatorTest (g : Fin 4) (failed : BitVec 8) (s : State) : Answer :=
  if s.supply == .off || !(s.fsideG g).running then .next s else .next (s.modFside g fun x => { x with cmp := failed })

/-! ## Test pulses (R201 to R203) -/

/-- Output `k`'s test pulse is due. -/
def State.tpDue (s : State) (g k : Nat) : Bool := s.tpEn g k && decide (((s.fioG g).pulse k).next ≤ s.now)

/-- The partner of an output in a pair lets its pulse start: its own does not run, and the lower output's goes first (R200). -/
def State.tpTurn (s : State) (g k : Nat) : Bool :=
  if !s.fioPair g (k / 2) then true
  else if k % 2 = 0 then ((s.fioG g).pulse (k + 1)).active.isNone
  else ((s.fioG g).pulse (k - 1)).active.isNone && !s.tpDue g (k - 1)

/-- TEST_PULSE_START (R201): due or requested, and commanded on. The upper output of a pair follows half an interval later
(R200). -/
def execTestPulseStart (g : Fin 4) (k : Fin 4) (s : State) : Answer :=
  let p := (s.fioG g).tp[k]
  if s.reflexOn && (s.tpDue g k || p.req) && s.fioOuten g k && p.active.isNone && s.outOn g k && s.tpTurn g k then
    let stop := s.now + ceilDiv (s.tpWidth g k) 160 * 160
    let t := s.now
    let s := s.modPulse g k fun p => { p with active := some (t, stop), req := false, offRun := 0, passed := false }
    let half := t + s.tpInt g k / 2
    .next (if k.val % 2 = 0 ∧ s.fioPair g (k / 2) then s.modPulse g (k + 1) fun q => { q with next := half } else s)
  else .next s

/-- An output is stuck on (R199, R202): 0x1005, the enable latch is cleared. -/
def State.outStuck (s : State) (g k : Nat) : State := ((s.clearEn g true).fioEvt g 6).fioRaise g 0x1005 k

/-- TEST_PULSE_END (R202): a pulse that passed restarts the interval, a failed one is a stuck output, one that ends while
the link is not accepted is not judged. -/
def execTestPulseEnd (g : Fin 4) (k : Fin 4) (s : State) : Answer :=
  let p := (s.fioG g).tp[k]
  match p.active with
  | none => .next s
  | some (_, stop) =>
    if !(s.linksOn && decide (stop ≤ s.now)) then .next s else
    let t := s.now
    if !(s.fioG g).accepted then .next (s.modPulse g k fun p => { p with active := none, next := min p.next t, owed := true })
    else if p.passed then
      .next (s.modPulse g k fun p => { p with active := none, tested := t, next := t + s.tpInt g k, failed := false, owed := false })
    else
      .next (((s.modPulse g k fun p => { p with active := none, failed := true, next := min p.next t, owed := true }).fioEvt g 8).outStuck g k)

/-- TPREQ is written: a test pulse is asked for on each output marked that is in use; whether it is commanded on, the next
frame shows (R201). -/
def State.tpReq (s : State) (g : Nat) (v : Word) : State :=
  (List.range 4).foldl (fun s k =>
    if bit v k && s.fioOuten g k then s.modPulse g k fun p => { p with req := true } else s) s

/-- TEST_PULSE_REQUEST (R201): read-only while a sealed image is loaded (R41). -/
def execTestPulseRequest (pf : Pf) (g : Fin 4) (v : Word) (s : State) : Answer :=
  if !s.booted then .next s
  else if pf = .pf1 || s.sealRo (0x10 + g) then .next (s.refuse (0x10 + g))
  else .next (s.tpReq g v)

/-! ## Output judgements (R197, R199, R200) -/

/-- OUTPUT_STUCK_ON (R199). -/
def execOutputStuckOn (g : Fin 4) (k : Fin 4) (s : State) : Answer :=
  let f := s.fioG g
  if s.linksOn && f.accepted && f.stuck[k].ripe s.now 2000000 then
    .next ((s.modFio g fun f => { f with stuck := f.stuck.set k .told }).outStuck g k)
  else .next s

/-- OUTPUT_SHORT (R199): shorted to M, or tripped. -/
def execOutputShort (g : Fin 4) (k : Fin 4) (s : State) : Answer :=
  let f := s.fioG g
  if s.linksOn && f.accepted && f.short[k].ripe s.now 2000000 then
    .next (((s.modFio g fun f => { f with short := f.short.set k .told }).fioEvt g 6).fioRaise g 0x1006 k)
  else .next s

/-- OPEN_LOAD (R199). -/
def execOpenLoad (g : Fin 4) (k : Fin 4) (s : State) : Answer :=
  let f := s.fioG g
  if s.linksOn && f.accepted && f.openLd[k].ripe s.now 100000000 then
    .next (((s.modFio g fun f => { f with openLd := f.openLd.set k .told }).fioEvt g 6).fioRaise g 0x1007 k)
  else .next s

/-- PAIR_DISCREPANCY (R200). -/
def execPairDiscrepancy (g : Fin 4) (p : Fin 2) (s : State) : Answer :=
  let f := s.fioG g
  if s.linksOn && f.accepted && f.pair[p].ripe s.now 2000000 then
    .next ((((s.modFio g fun f => { f with pair := f.pair.set p .told }).clearEn g true).fioEvt g 10).fioRaise g 0x100d (2 * p))
  else .next s

/-- OUTPUT_TRIP (R197, R200): the field side switches off an output that is gated on, and its partner in a pair. -/
def execOutputTrip (g : Fin 4) (k : Fin 4) (overTemp : Bool) (s : State) : Answer :=
  let x := s.fsideG g
  if s.supply == .off || !(x.running && x.gate k) then .next s else
  let b : BitVec 4 := BitVec.ofNat 4 (2 ^ k.val)
  let both : BitVec 4 := if bit x.cfg1 (k / 2) then BitVec.ofNat 4 (3 * 4 ^ (k.val / 2)) else b
  .next (s.modFside g fun x =>
    { x with tripped := x.tripped ||| both, ovc := if overTemp then x.ovc else x.ovc ||| b,
             ovt := if overTemp then x.ovt ||| b else x.ovt })

/-! ## The field supply (R213, R214) -/

/-- SUPPLY_THRESHOLD_CROSS (R213): L+, as the comparators measure it (log entry 65), has stood at `mv` for the 10 µs of their
filter; SUP follows by the class in use, and below validity RDY falls at once. -/
def execSupplyThresholdCross (g : Fin 4) (mv : Nat) (s : State) : Answer :=
  if s.supply == .off || !(s.fsideG g).running then .next s else
  .next (s.modFside g fun x =>
    let sup := (vClass (bit x.cfg0 0)).sup x.sup.toNat mv
    { x with lplus := mv, sup := sup, rdy := x.rdy && decide (sup.toNat < 2),
             validAt := if sup.toNat < 2 then some (x.validAt.getD s.now) else none,
             cutAt := if sup = 3 then some (x.cutAt.getD s.now) else none })

/-- SUPPLY_CUTOFF: L+ has stood below cut-off for more than 2 ms. -/
def execSupplyCutoff (g : Fin 4) (s : State) : Answer :=
  let x := s.fsideG g
  match x.cutAt with
  | none => .next s
  | some t =>
    if s.supply != .off && x.running && decide (t + 2000000 ≤ s.now) then .next (s.modFside g FieldSide.drop) else .next s

/-- SUPPLY_READY: L+ has stood above validity for 10 ms. -/
def execSupplyReady (g : Fin 4) (s : State) : Answer :=
  let x := s.fsideG g
  match x.validAt with
  | none => .next s
  | some t =>
    if s.supply != .off && x.running && decide (t + 10000000 ≤ s.now) then .next (s.modFside g fun x => { x with rdy := true })
    else .next s

end Sys2Proof.Machine
end

