-- ==== Sys2Proof/Machine/Reflex.lean ====
section
/-!
DEFINITION. The reflex matrix: conditions, reset acceptance, latches and their actions, and the comparison of the copies
(spec/08_reflex_and_reaction.md R225 to R237, spec/06_triplex_execution.md R165).
-/
namespace Sys2Proof.Machine

/-! ## Rule registers (R227 to R229) -/

def State.rcond (s : State) (r : Nat) : Word := s.rd (Reg.rfxRcond r)
def State.ract (s : State) (r : Nat) : Word := s.rd (Reg.rfxRact r)
def State.rrst (s : State) (r : Nat) : Word := s.rd (Reg.rfxRrst r)
def State.rkind (s : State) (r : Nat) : Nat := fld (s.rcond r) 8 3
def State.deout (s : State) (r : Nat) : Half := BitVec.ofNat 16 (fld (s.ract r) 0 16)

/-- GTEST of a field-input rule. -/
def State.gtest (s : State) (r : Nat) : Bool := s.rkind r == 1 && bit (s.rcond r) 7

def State.modRule (s : State) (l r : Nat) (f : Rule → Rule) : State :=
  { s with rfx := { s.rfx with rules := Vec.updAt s.rfx.rules l fun c => Vec.updAt c r f } }

/-- What the lanes that count agree on of rule `r` (R241 shows lane A's copy; actions follow the majority, log entry 49). -/
def State.ruleMaj (s : State) (r : Nat) (f : Rule → Bool) : Bool := s.lanes.maj fun l => f (s.rule l r)

/-! ## Conditions (R231) -/

/-- The state of an input that a rule of lane `l` sees: raw, or filtered in the lane's own copy (R193). -/
def State.inState (s : State) (l g k : Nat) (raw : Bool) : Bool :=
  if raw then bit (s.fioG g).inp k else bit ((s.fioG g).copy l).filt k

/-- A field-input rule sees its trip level on a valid input. -/
def State.atTrip (s : State) (l r : Nat) : Bool :=
  let c := s.rcond r
  s.inValid l (fld c 0 2) (fld c 2 3) && s.inState l (fld c 0 2) (fld c 2 3) (bit c 5) == bit c 6

/-- The source of rule `r` is true. -/
def State.srcTrue (s : State) (l r : Nat) : Bool :=
  let c := s.rcond r
  match s.rkind r with
  | 1 => !s.inValid l (fld c 0 2) (fld c 2 3) || s.atTrip l r
  | 2 => (Vec.at s.mot.smos (fld c 0 5) Smo.reset).viol
  | 3 => bit (s.tbl 2 (fld c 0 8) 8) 0
  | 4 => (bit c 0 && s.rfx.ovr) || (bit c 1 && s.rfx.stopc) || (bit c 2 && s.eng.mode == .hold)
  | _ => false

/-- COND of rule `r` in lane `l`. -/
def State.condOf (s : State) (l r : Nat) : Bool :=
  let c := s.rcond r
  s.srcTrue l r && (!bit c 20 || bit (s.committedOn l) (4 * fld c 18 2 + fld c 16 2))

/-! ## One K0 clock of a rule in one copy (R232, R233) -/

/-- The reset input is held and has been for longer than RSTMAX. -/
def State.overRstmax (s : State) (x : Rule) : Bool :=
  match x.since with
  | none => false
  | some t => decide (1000000 * fld (s.rd Reg.rfxRstmax) 0 14 < s.now + 5 - t)

/-- The reset input of rule `r` as lane `l` sees it: valid, pressed. -/
def State.resetIn (s : State) (l r : Nat) : Bool × Bool :=
  let q := s.rrst r
  let v := s.inValid l (fld q 2 2) (fld q 4 3)
  (v, v && s.inState l (fld q 2 2) (fld q 4 3) false != bit q 7)

/-- The reset input is followed; the second value says that a reset is accepted in this clock. -/
def State.ruleReset (s : State) (l r : Nat) (x : Rule) : Rule × Bool :=
  if fld (s.rrst r) 0 2 = 0 then ({ x with armed := false, stuck := false, pressed := false, since := none }, false) else
  let (valid, pressed) := s.resetIn l r
  if !valid then ({ x with armed := false, since := none, pressed := false }, false)
  else if !pressed then ({ x with armed := true, since := none, stuck := false, pressed := false }, false)
  else
    let acc := x.armed && !x.pressed
    let x := { x with since := some (x.since.getD s.now), pressed := true }
    let x := { x with stuck := x.stuck || s.overRstmax x }
    ({ x with armed := x.armed && !x.stuck }, acc)

/-- The latch of rule `r`. -/
def State.ruleLatch (s : State) (l r : Nat) (acc : Bool) (x : Rule) : Rule :=
  let cond := s.condOf l r
  let gt := s.gtest r && !x.tested
  let auto := fld (s.rrst r) 0 2 == 0
  let y := { x with cond := cond, tested := x.tested || (s.gtest r && s.atTrip l r) }
  if cond then { y with latch := true }
  else if x.latch && !gt && (auto || acc) then
    { y with latch := false, hold := if bit (s.rrst r) 8 then s.deout r &&& s.committedOn l else x.hold }
  else y

/-- Rule `r` of lane `l` after one clock. -/
def State.ruleNext (s : State) (l r : Nat) (x : Rule) : Rule :=
  let (x, acc) := s.ruleReset l r x
  s.ruleLatch l r acc x

/-- Every rule of every copy after one clock. -/
def State.rulesNext (s : State) : State :=
  let next (l : Fin 3) : Vector Rule 64 := Vector.ofFn fun (r : Fin 64) => s.ruleNext l r (s.rule l r)
  { s with rfx := { s.rfx with rules := Vector.ofFn next } }

/-! ## The actions of a rule (R234) -/

/-- The actions of a latch that rises. -/
def State.ruleTrip (s : State) (r : Nat) : State :=
  let a := s.ract r
  let s := (s.count Reg.rfxTripcnt).wr Reg.rfxLasttrip (wd (r + 0x80000000))
  let s := (s.wr64 Reg.rfxLasttripTLo s.now).evt 0x14 1
  if bit a 28 then s.raise 0x1410 [wd r, s.rcond r, wd (s.deout r).toNat] else s

/-- The actions of a latch that falls. -/
def State.ruleRelease (s : State) (r : Nat) : State :=
  let s := s.evt 0x14 2
  if bit (s.ract r) 28 then s.raise 0x1411 [wd r, s.rcond r, wd (s.deout r).toNat] else s

/-- The reset button of a rule is stuck (R233). -/
def State.ruleStuck (s : State) (r : Nat) : State := (s.evt 0x14 4).raise 0x1401 [wd r]

/-- What rule `r` reports of the clock since `s0`. -/
def State.ruleActs (s0 s : State) (r : Nat) : State :=
  let was := s0.ruleMaj r Rule.latch
  let is := s.ruleMaj r Rule.latch
  let t := if s.ruleMaj r Rule.stuck && !s0.ruleMaj r Rule.stuck then s.ruleStuck r else s
  if is && !was then t.ruleTrip r else if was && !is then t.ruleRelease r else t

/-- The bits that rules rung in this clock: the MIDs and bits of the rules whose latch rose since `s0`, each once. -/
def State.rungBits (s0 s : State) : List (Nat × Nat) :=
  ((List.range 64).filterMap fun r =>
    let a := s.ract r
    if s.ruleMaj r Rule.latch && !s0.ruleMaj r Rule.latch && decide (fld a 24 4 ≠ 0) then some (fld a 24 4, fld a 16 5)
    else none).eraseDups

/-- Rules that ring the same bit ring it once (R234). -/
def State.ruleRings (s0 s : State) : State := (s0.rungBits s).foldl (fun s x => s.ringC0 x.1 x.2) s

/-! ## The comparison of the copies (R165) -/

/-- What one copy sends to the comparison: its de-energise vector and its enable latches (spec/07_field_io.md R215). -/
def State.copyVec (s : State) (l : Nat) : Dword :=
  BitVec.ofNat 64 ((s.deVec l).toNat + 0x10000 * flagsN ((List.range 4).map fun g => ((s.fioG g).copy l).en))

/-- The copies are compared; the second clock in a row makes the copy's lane odd. -/
def State.vectorCompare (s : State) : State :=
  match s.lanes.compare ⟨s.copyVec 0, s.copyVec 1, s.copyVec 2⟩ with
  | .noMajority => s.noMajority 7 0
  | .value _ none => { s with lanes := { s.lanes with vecCnt := Vector.replicate 3 0 } }
  | .value _ (some l) =>
    let n := s.lanes.vecCnt[l] + 1
    let s := { s with lanes := { s.lanes with vecCnt := (Vector.replicate 3 0).set l n } }
    if 2 ≤ n then s.laneOdd l 7 0 else s

/-- What a disturbance flips in the K0 parts of the lanes: rule latches, filtered inputs, enable latches and committed LCR
bits; and the vector bits that are wrong in this clock. -/
def State.copyUpset (s : State) (u : CopyUpset) : State :=
  let flip (l : Fin 3) (r : Fin 64) : Rule :=
    let x := s.rule l r
    { x with latch := x.latch != bit (triLane u.latch l) r }
  let vec (l : Fin 3) : Half := (triLane u.vec l).truncate 16
  let lcr (l : Fin 3) : BitVec 20 := s.lanes.lcr[l] ^^^ BitVec.ofNat 20 (fld (triLane u.k0 l) 36 20)
  let s := { s with
    rfx := { s.rfx with rules := Vector.ofFn fun l => Vector.ofFn (flip l) }
    lanes := { s.lanes with vecDev := Vector.ofFn vec, lcr := Vector.ofFn lcr } }
  (List.range 4).foldl (fun s g =>
    let copy (l : Fin 3) : FioCopy :=
      let c := (s.fioG g).cp[l]
      { c with filt := c.filt ^^^ BitVec.ofNat 8 (fld (triLane u.k0 l) (8 * g) 8), en := c.en != bit (triLane u.k0 l) (32 + g) }
    s.modFio g fun f => { f with cp := Vector.ofFn copy }) s

/-- REFLEX_EVALUATE (R225, R232): one K0 clock of every rule in every copy, the actions, then the comparison. -/
def execReflexEvaluate (u : CopyUpset) (s : State) : Answer :=
  if !s.reflexOn then .next s
  else
    let s := s.copyUpset u
    let t := (List.range 64).foldl (fun t r => s.ruleActs t r) s.rulesNext
    .next ((s.ruleRings t).vectorCompare)

/-- RESET_BUTTON_STUCK (R233). -/
def execResetButtonStuck (r : Fin 64) (s : State) : Answer :=
  let due (l : Nat) : Bool :=
    let x := s.rule l r
    (s.resetIn l r).2 && x.pressed && !x.stuck && s.overRstmax x
  if s.reflexOn && fld (s.rrst r) 0 2 != 0 && s.lanes.maj due then
    .next ((((List.range 3).foldl (fun s l => s.modRule l r fun x => { x with stuck := true, armed := false }) s)).ruleStuck r)
  else .next s

/-! ## Entry into STOP or RUN, commits and on-line changes (R226, R232, R235, R237) -/

/-- A rule as after a module reset: its latch is clear, but set for a guard-tested rule. -/
def State.ruleNew (s : State) (r : Nat) : Rule := { Rule.reset with latch := s.gtest r }

/-- Rules as after a module reset; TESTED stands, which only a module reset clears (R226, R235). -/
def State.rulesStart (s : State) : State :=
  let new (l : Fin 3) (r : Fin 64) : Rule := { s.ruleNew r with tested := (s.rule l r).tested }
  { s with rfx := { rules := Vector.ofFn fun l => Vector.ofFn (new l), ovr := false, stopc := false } }

/-- HOLDOFF bits clear at a commit at which the committed ON bit is 0. -/
def State.holdoffClear (s : State) : State :=
  let clear (l : Fin 3) : Vector Rule 64 := s.rfx.rules[l].map fun x => { x with hold := x.hold &&& s.committedOn l }
  { s with rfx := { s.rfx with rules := Vector.ofFn clear } }

/-- Some rule still waits for its guard test. -/
def State.gtPending (s : State) : Bool := (List.range 64).any fun r => s.gtest r && !s.ruleMaj r Rule.tested

/-- The engine enters RUN with a guard test pending. -/
def State.guardPending (s : State) : State := if s.gtPending then (s.evt 0x14 8).raise 0x1402 [] else s

/-- The three registers of rule `r` are the same in both states. -/
def State.ruleSame (s old : State) (r : Nat) : Bool :=
  s.rcond r == old.rcond r && s.ract r == old.ract r && s.rrst r == old.rrst r

/-- What rules keep across an on-line change: those whose three registers are the same as in `old`. -/
def State.rulesKeep (s old : State) : State :=
  let keep (l : Fin 3) (r : Fin 64) : Rule := if s.ruleSame old r then old.rule l r else s.ruleNew r
  { s with rfx := { s.rfx with rules := Vector.ofFn fun l => Vector.ofFn (keep l) } }

end Sys2Proof.Machine
end

