-- ==== Sys2Proof/Machine/Motion.lean ====
section
/-!
DEFINITION. Axes, input agreement, compare slots and safe-motion monitors (spec/09_axes_and_safe_motion.md,
spec/06_triplex_execution.md R168 to R170, R177).
-/
namespace Sys2Proof.Machine

/-! ## Axis registers and state -/

def State.axis (s : State) (ax : Nat) : Axis := Vec.at s.mot.axes ax Axis.reset
def State.modAxis (s : State) (ax : Nat) (f : Axis → Axis) : State :=
  { s with mot := { s.mot with axes := Vec.updAt s.mot.axes ax f } }
def Axis.slot (a : Axis) (k : Nat) : Slot := Vec.at a.slots k Slot.reset
def State.modSlot (s : State) (ax k : Nat) (f : Slot → Slot) : State :=
  s.modAxis ax fun a => { a with slots := Vec.updAt a.slots k f }
def State.smo (s : State) (m : Nat) : Smo := Vec.at s.mot.smos m Smo.reset
def State.modSmo (s : State) (m : Nat) (f : Smo → Smo) : State :=
  { s with mot := { s.mot with smos := Vec.updAt s.mot.smos m f } }

def State.acfg (s : State) (ax : Nat) : Word := s.rd (Reg.axsAcfg (ax / 6) (ax % 6))
def State.axMode (s : State) (ax : Nat) : Nat := fld (s.acfg ax) 0 3
def State.axInv (s : State) (ax : Nat) : Bool := bit (s.acfg ax) 3
def State.axZen (s : State) (ax : Nat) : Bool := bit (s.acfg ax) 8
def State.ssicfg (s : State) (ax : Nat) : Word := s.rd (Reg.axsSsicfg (ax / 6) (ax % 6))

/-- The page of an axis. -/
def axPage (ax : Nat) : Nat := 0x15 + ax / 6

/-- An event or fault of the axis pages (R262). -/
def State.axRaise (s : State) (ax code n : Nat) : State := s.raise (code + 0x100 * (ax / 6)) [wd n]

/-- A condition of R247 that leaves a mark for 10 ms. -/
def recent (at' now : Nat) : Bool := at' != 0 && decide (now < at' - 1 + 10000000)

/-- AXSTAT (R263); REFD of an SSI axis is 1 without a fault (R248). -/
def State.axRefd (s : State) (ax : Nat) : Bool :=
  let a := s.axis ax
  if s.axMode ax = 2 then !a.fault else a.refd
def State.axStat (s : State) (ax : Nat) : Word :=
  let a := s.axis ax
  wd (b2n a.fault + 2 * b2n a.lineflt + 4 * b2n (recent a.qerrAt s.now) + 8 * b2n (recent a.ssiAt s.now) +
    16 * b2n (s.axRefd ax) + 32 * b2n a.dev)

/-- The items of an axis (R251); `x` is what deviates in the majority's data. -/
def State.axItems (s : State) (ax : Nat) (x : Word) : State :=
  let a := s.axis ax
  s.putItems 0x10 ax fun m => match m.item with
    | 0 => (a.now ^^^ x, !a.fault)
    | 1 => (s.axStat ax ^^^ x, true)
    | 2 => (a.zpos ^^^ x, !a.fault && s.axZen ax)
    | _ => (a.zcnt ^^^ x, !a.fault && s.axZen ax)

/-- A fault condition of an axis arises (R247, R248): FAULT, AXFLT, REFD. -/
def State.axFault (s : State) (ax code : Nat) (rises unref : Bool) : State :=
  let a := s.axis ax
  let s := if a.fault then s else s.evt (axPage ax) (wd (2 ^ (ax % 6)))
  let s := s.modAxis ax fun a =>
    { a with fault := true, faultAt := s.now, ssiHave := false, ssiBusy := false, refd := a.refd && !unref }
  if rises then s.axRaise ax code ax else s

/-- `n` illegal transitions (R244, R247). -/
def State.axQerr (s : State) (ax n : Nat) : State :=
  let c := Reg.axsErrcnt (ax / 6) (ax % 6)
  let s := s.wr c (setFld (s.rd c) 0 16 (satNat 0xffff (fld (s.rd c) 0 16 + n)))
  let old := recent (s.axis ax).qerrAt s.now
  (s.modAxis ax fun a => { a with qerrAt := s.now + 1 }).axFault ax 0x1502 (!old) true

/-- An SSI frame error (R245, R247). -/
def State.axSsiErr (s : State) (ax : Nat) : State :=
  let c := Reg.axsErrcnt (ax / 6) (ax % 6)
  let s := s.wr c (satIncFld (s.rd c) 16 16)
  let old := recent (s.axis ax).ssiAt s.now
  (s.modAxis ax fun a => { a with ssiAt := s.now + 1 }).axFault ax 0x1503 (!old) false

/-! ## Counting (R243 to R245) -/

/-- The count step of an accepted sample in a mode, and whether the transition is illegal. Quadrature counts up where A
leads B (log entry 11). -/
def edgeStep (mode : Nat) (l : AxLane) (pa pb : Bool) : Int × Bool :=
  match mode with
  | 1 =>
    if l.a != pa && l.b != pb then (0, true)
    else if l.a != pa then (if pa != pb then 1 else -1, false)
    else if l.b != pb then (if pa == pb then 1 else -1, false)
    else (0, false)
  | 4 => (if !l.a && pa then 1 else 0, false)
  | 5 => (if !l.a && pa then (if pb then 1 else -1) else 0, false)
  | _ => (0, false)

/-- What the lanes count on an axis changes; where an epoch boundary has passed that is not agreed yet, what they counted at it
stays latched for it (spec/06_triplex_execution.md R169). -/
def State.modLaneCounts (s : State) (ax : Nat) (f : Fin 3 → AxLane → AxLane) : State :=
  let e := s.now / 1000 * 1000
  let keep (a : Axis) : Option (Nat × Vector AxLane 3) :=
    if e ≤ s.mot.epoch then none
    else match a.latch with
      | none => some (e, a.lane)
      | some (t, v) => if t = e then some (t, v) else some (e, a.lane)
  s.modAxis ax fun a => { a with latch := keep a, lane := Vector.ofFn fun l => f l a.lane[l] }

/-- AXIS_EDGE: the lanes of `lanes` accept new levels of A and B (R244). -/
def execAxisEdge (ax : Fin 12) (lanes : BitVec 3) (pa pb : Bool) (s : State) : Answer :=
  let mode := s.axMode ax
  if !(s.booted && (mode == 1 || mode == 4 || mode == 5)) then .next s else
  let sgn : Int := if s.axInv ax then -1 else 1
  .next (s.modLaneCounts ax fun i l =>
    let st := edgeStep mode l pa pb
    if bit lanes i then { l with cnt := l.cnt + wi (sgn * st.1), ill := l.ill + wd (b2n st.2), a := pa, b := pb } else l)

/-- Z_MARK (R244). -/
def execZMark (ax : Fin 12) (lanes : BitVec 3) (s : State) : Answer :=
  if !(s.booted && s.axMode ax == 1 && s.axZen ax) then .next s else
  .next (s.modLaneCounts ax fun i l => if bit lanes i then { l with zpos := l.cnt, zcnt := l.zcnt + 1 } else l)

/-- SSIPER in ns. -/
def State.ssiPer (s : State) (ax : Nat) : Nat := 1000 * 2 ^ fld (s.ssicfg ax) 16 4

/-- SSI_FRAME_START (R245): at a whole multiple of SSIPER; a frame not complete by then, or a data line at 0, is an error. -/
def execSsiFrameStart (ax : Fin 12) (dataLow : Bool) (s : State) : Answer :=
  let per := s.ssiPer ax
  let t := s.now / per * per
  if !(s.booted && s.axMode ax == 2 && decide ((s.axis ax).ssiDue ≤ t)) then .next s else
  let late := (s.axis ax).ssiBusy
  let s := s.modAxis ax fun a => { a with ssiDue := t + per }
  let s := if late || dataLow then s.axSsiErr ax else s
  .next (s.modAxis ax fun a => { a with ssiBusy := !dataLow })

/-- The value of a Gray code of `n` bits. -/
def grayValue (w n : Nat) : Nat := (List.range n).foldl (fun v i => v ^^^ (w >>> i)) 0 % 2 ^ n

/-- The step between two SSI values modulo 2^n, in either direction. -/
def ssiStep (old new n : Nat) : Int := sfld (BitVec.ofNat n (new + 2 ^ n - old % 2 ^ n)) 0 n

/-- SSI_FRAME_END (R245): each lane decodes what its receiver has taken in and unwraps it into its count, or an error. -/
def execSsiFrameEnd (ax : Fin 12) (ra : Word) (errBit complete : Bool) (s : State) (rb rc : Word := ra) : Answer :=
  if !(s.booted && s.axMode ax == 2 && (s.axis ax).ssiBusy) then .next s else
  let c := s.ssicfg ax
  let s := s.modAxis ax fun a => { a with ssiBusy := false }
  if !complete || (bit c 21 && errBit) then .next (s.axSsiErr ax) else
  let n := fld c 0 6
  let value (raw : Word) : Nat := if bit c 20 then grayValue (raw.toNat % 2 ^ n) n else raw.toNat % 2 ^ n
  let sgn : Int := if s.axInv ax then -1 else 1
  let had := (s.axis ax).ssiHave
  let s := s.modLaneCounts ax fun i l =>
    let v := value (#v[ra, rb, rc][i])
    { l with raw := wd v, cnt := if had then l.cnt + wi (sgn * ssiStep l.raw.toNat v n) else wi (sgn * v) }
  .next (s.modAxis ax fun a => { a with ssiHave := true })

/-- A write of ACFG that changes the mode of an axis: its SSI receiver starts afresh (R245). -/
def State.acfgPut (s : State) (ax : Nat) (old : Word) : State :=
  if fld old 0 3 = s.axMode ax then s else s.modAxis ax fun a => { a with ssiHave := false, ssiBusy := false, ssiDue := 0 }

/-- LINE_FAULT (R247): a used pair has been too low for longer than 500 ns, or (`bad` false) is so no longer. -/
def execLineFault (ax : Fin 12) (s : State) (bad : Bool := true) : Answer :=
  let old := (s.axis ax).lineflt
  if !(s.booted && s.axMode ax != 0) then .next s
  else if bad then .next (((s.modAxis ax fun a => { a with lineflt := true }).axFault ax 0x1501 (!old) true))
  else if old then .next (s.modAxis ax fun a => { a with lineflt := false, faultAt := s.now })
  else .next s

/-! ## Monitors: configuration (R255, R256, R263) -/

def State.mcfg (s : State) (m : Nat) : Word := s.rd (Reg.smoMcfg m)
def State.monEn (s : State) (m : Nat) : Bool := bit (s.mcfg m) 31
def State.monType (s : State) (m : Nat) : Nat := fld (s.mcfg m) 0 2
def State.monAxis (s : State) (m : Nat) : Nat := fld (s.mcfg m) 8 4
def State.monWk (s : State) (m : Nat) : Nat := fld (s.mcfg m) 16 5
def State.setA (s : State) (m k : Nat) : Word := s.rd (Reg.smoSetA m k)
def State.setB (s : State) (m k : Nat) : Word := s.rd (Reg.smoSetB m k)
def State.setC (s : State) (m k : Nat) : Word := s.rd (Reg.smoSetC m k)

/-- FILL starts again, and an SDI reference starts at the position (R258, R259). -/
def State.smoRestart (s : State) (m : Nat) : State :=
  let p := (s.axis (s.monAxis m)).now
  s.modSmo m fun x => { x with win := [], v := 0, fill := true, ref := if s.monType m = 2 then p else x.ref }

/-- The monitors of an axis restart when its fault clears. -/
def State.smoAxisClear (s : State) (ax : Nat) : State :=
  (List.range 24).foldl (fun s m => if s.monEn m && s.monAxis m == ax then s.smoRestart m else s) s

/-- AXIS_FAULT_CLEAR (R247): no condition has held for 10 ms. -/
def execAxisFaultClear (ax : Fin 12) (s : State) : Answer :=
  let a := s.axis ax
  if s.booted && a.fault && !a.lineflt && decide (a.faultAt + 10000000 ≤ s.now) then
    let s := s.modAxis ax fun a => { a with fault := false }
    .next (s.smoAxisClear ax)
  else .next s

/-! ## Input agreement (R169, R170, R177) -/

/-- The agreed value of three counts and the lanes that deviate by more than 2, as 32-bit differences. With a lane held, the
first counting lane's value is taken, and both others deviate where they differ by more than 2 (log entry 12). -/
def Lanes.agree (l : Lanes) (a b c : Word) : Word × BitVec 3 :=
  let d (x y : Word) : Int := sfld (x - y) 0 32
  let far (x y : Word) : Bool := decide (2 < (d x y).natAbs)
  let two (x y : Word) (m : BitVec 3) : Word × BitVec 3 := (x, if far x y then m else 0)
  match l.counts 0, l.counts 1, l.counts 2 with
  | true, true, true =>
    let v := a + wi (median3 0 (d b a) (d c a))
    (v, BitVec.ofNat 3 (b2n (far a v) + 2 * b2n (far b v) + 4 * b2n (far c v)))
  | true, true, false => two a b 3
  | true, false, true => two a c 5
  | false, true, true => two b c 6
  | true, false, false => (a, 0)
  | false, true, false => (b, 0)
  | false, false, _ => (c, 0)

/-- What the lanes counted at boundary `e`. -/
def Axis.lanesAt (a : Axis) (e : Nat) : Vector AxLane 3 :=
  match a.latch with
  | none => a.lane
  | some (t, v) => if t = e then v else a.lane

/-- The agreement of one axis: its new state, the illegal transitions that are new, and the lanes that deviate in one of its
counts (R170, R244; that QERR follows the agreed count of illegal transitions is DEDUCED from R168, log entry 11). -/
def Axis.agree (a : Axis) (l : Lanes) (e : Nat) : Axis × Nat × BitVec 3 :=
  let x := a.lanesAt e
  let v := l.agree x[0].cnt x[1].cnt x[2].cnt
  let z := l.agree x[0].zpos x[1].zpos x[2].zpos
  let n := l.agree x[0].zcnt x[1].zcnt x[2].zcnt
  let q := l.agree x[0].ill x[1].ill x[2].ill
  let dev := v.2 ||| z.2 ||| n.2 ||| q.2
  let base := match a.preset with
    | some (p, tc, none) => if tc ≤ e then some (p, tc, some v.1) else some (p, tc, none)
    | x => x
  ({ a with latch := none, prev := a.now, now := v.1, zpos := z.1, zcnt := n.1, ill := q.1, dev := dev != 0, preset := base },
    (sfld (q.1 - a.ill) 0 32).toNat, dev)

/-- The captured edge of a pin is agreed at the first epoch boundary after it (R354). -/
def State.pinAgree (s : State) (e n : Nat) : State × BitVec 3 :=
  match (Vec.at s.pins n TPin.reset).edge with
  | none => (s, 0)
  | some (ta, tb, tc) =>
    let q (t : Nat) : Word := wd (t / 4)
    let v := s.lanes.agree (q ta) (q tb) (q tc)
    let lead := if s.lanes.counts 0 then ta else if s.lanes.counts 1 then tb else tc
    if e < lead then (s, 0) else
    let t := Int.toNat ((lead / 4 : Nat) + sfld (v.1 - q lead) 0 32) * 4
    let s := { s with pins := Vec.updAt s.pins n fun p => { p with edge := none, caps := p.caps + 1, have' := true } }
    ((s.wr64 (Reg.tpinPcaptLo n) t).evt 0x19 (wd (2 ^ n)), v.2)

/-- The items of a pin (R355); `x` is what deviates in the majority's data. -/
def State.pinItems (s : State) (n : Nat) (x : Word) : State :=
  let p := Vec.at s.pins n TPin.reset
  let cap := fld (s.rd (Reg.tpinPincfg n)) 0 3 == 3
  s.putItems 0x30 n fun m => match m.item with
    | 0 => (s.rd (Reg.tpinPcaptLo n) ^^^ x, cap && p.have')
    | 1 => (s.rd (Reg.tpinPcaptHi n) ^^^ x, cap && p.have')
    | _ => (wd p.caps ^^^ x, cap)

/-- Lane `l` takes the counts agreed at boundary `e`, moved by what lane `p` has counted since, and the receivers of lane `p`;
`old` is the axis before the agreement. -/
def Axis.loadLane (a old : Axis) (e : Nat) (l p : Fin 3) : Axis :=
  let x := a.lane[p]
  let y := (old.lanesAt e)[p]
  let z : AxLane := { x with cnt := a.now + (x.cnt - y.cnt), zpos := if x.zcnt = y.zcnt then a.zpos else x.zpos,
                             zcnt := a.zcnt + (x.zcnt - y.zcnt), ill := a.ill + (x.ill - y.ill) }
  { a with lane := a.lane.set l z }

/-- The odd lane's input agreement copy is loaded with the values agreed at this boundary, the first since its K0 part was
loaded (R177). -/
def State.agreeLoad (s : State) (old : Vector Axis 12) (e : Nat) : State :=
  match s.lanes.rs, s.lanes.joining with
  | .k0 u, some l =>
    if e < u then s else
    let p := (s.lanes.counting.head?).getD 0
    let s := { s with mot := { s.mot with axes := Vector.ofFn fun (i : Fin 12) => (s.mot.axes[i]).loadLane old[i] e l p } }
    let s := { s with chain := { s.chain with cnt := s.chain.cnt.set l s.chain.cnt[p] } }
    { s with lanes := { s.lanes with rs := .agreed u e, devCnt := s.lanes.devCnt.set l 0
                                     bitDev := s.lanes.bitDev &&& ~~~ BitVec.ofNat 3 (2 ^ l.val) } }
  | _, _ => s

/-- A task is still to be triggered, or frozen, at or before `e` (R136). -/
def State.triggersBy (s : State) (e : Nat) : Bool :=
  s.eng.mode == .run && s.eng.change == .none && s.pstate == .run && s.twn.role != .standby &&
    s.eng.tasks.toList.any fun k => k.rec'.en && k.act.isNone && match k.trig with
      | some t => decide (t ≤ e)
      | none => k.rec'.trig == 0 && decide (k.grid ≤ e)

/-- The agreed items are written as one voted write (R169, R251). -/
def State.agreedItems (s : State) (u : WriteUpset) : State :=
  match s.voteWrite pimIpi u with
  | (s, none) => s
  | (s, some x) =>
    if x.target then s else
    let s := (List.range 12).foldl (fun s ax => s.axItems ax x.data) s
    (List.range 8).foldl (fun s n => s.pinItems n x.data) s

/-- AGREEMENT_EPOCH (R169): the boundary `e` is the last whole microsecond, not agreed before; the write falls 200 ns after it,
behind the freeze of every task triggered at it (R246). -/
def execAgreementEpoch (s : State) (u : WriteUpset := WriteUpset.none) : Answer :=
  let e := s.now / 1000 * 1000
  if !(s.booted && decide (s.mot.epoch < e) && decide (e + 200 ≤ s.now) && s.pimc.retry.isNone && !s.triggersBy e) then .next s else
  let l := s.lanes
  let old := s.mot.axes
  let ag := (List.range 12).map fun ax => (s.axis ax).agree l e
  let dev := ag.foldl (fun d x => d ||| x.2.2) (l.bitDev ||| (l.agree s.chain.cnt[0] s.chain.cnt[1] s.chain.cnt[2]).2)
  let s := { s with mot := { s.mot with epoch := e, axes := Vector.ofFn fun (i : Fin 12) =>
    (ag.getD i (Axis.reset, 0, 0)).1 } }
  let s := ag.zipIdx.foldl (fun s x => if x.1.2.1 = 0 then s else s.axQerr x.2 x.1.2.1) s
  let (s, dev) := (List.range 8).foldl (fun p n => let r := p.1.pinAgree e n; (r.1, p.2 ||| r.2)) (s, dev)
  let cnt (i : Nat) (n : Nat) : Nat := if bit dev i && l.counts i then satNat 16 (n + 1) else 0
  let dc := s.lanes.devCnt
  let s := { s with lanes := { s.lanes with devCnt := #v[cnt 0 dc[0], cnt 1 dc[1], cnt 2 dc[2]], bitDev := 0 } }
  let s := s.agreedItems u
  .next (if s.safeLatch then s else s.agreeLoad old e)

/-- INPUT_AGREEMENT_ODD (R170): sixteen epochs in a row. -/
def execInputAgreementOdd (s : State) : Answer :=
  if !s.booted then .next s else
  match (List.finRange 3).filter fun (i : Fin 3) => s.lanes.counts i.val && decide (16 ≤ s.lanes.devCnt[i]) with
  | [] => .next s
  | [l] => .next (({ s with lanes := { s.lanes with devCnt := s.lanes.devCnt.set l 0 } }).laneOdd l 5 0)
  | _ => .next (s.noMajority 5 0)

/-! ## Compare slots (R252 to R254) -/

/-- The crossing of a slot: true up, false down. -/
def Arm.crossing (a : Arm) (prev now : Word) : Option Bool :=
  let dp := sfld (prev - a.p) 0 32
  let dn := sfld (now - a.p) 0 32
  if dp < 0 ∧ 0 ≤ dn ∧ bit a.mode 0 then some true
  else if 0 < dp ∧ dn ≤ 0 ∧ bit a.mode 1 then some false
  else none

/-- A slot that fired and stays armed has gone back beyond P by more than HYS. -/
def Arm.isBack (a : Arm) (up : Bool) (now : Word) : Bool :=
  let dn := sfld (now - a.p) 0 32
  let h : Int := fld a.mode 8 8
  if up then decide (dn < -h) else decide (h < dn)

/-- The captured crossing time: within the microsecond before `e`, rounded down to 4 ns. -/
def captTime (e : Nat) (p prev now : Word) : Nat :=
  let f := Int.fdiv (sfld (p - prev) 0 32 * 1000) (sfld (now - prev) 0 32)
  (e - 1000 + f.toNat) / 4 * 4

/-- The task that owns a slot's trigger is started: the first task record that names it (R132, R254). -/
def State.slotTask (s : State) (ax k : Nat) : State :=
  if s.eng.mode = .stop ∨ s.now < s.rd64 Reg.engEpochLo then s else
  match (List.finRange 8).find? fun t =>
    let r := s.eng.tasks[t].rec'
    r.en && r.trig == 1 && r.tsrc == 16 * ax + k with
  | none => s
  | some t => s.taskEvent t

/-- The pin that slot `k` of axis `ax` has claimed (R254). -/
def State.slotPin (s : State) (ax k : Nat) : Option (Fin 8) :=
  (List.finRange 8).find? fun (n : Fin 8) => match (s.pins[n]).owner with
    | .slot x j => x.val == ax && j.val == k
    | .none => false
    | .mode => false
    | .mclk => false

/-- Slot `k` fires at boundary `e` with what was armed (R253); `cur` where that is the present arming: a firing with what stood
before a commit at `e` disarms nothing that the commit has armed. -/
def State.slotFire (s : State) (ax k e : Nat) (a : Arm) (up cur : Bool) (prev now : Word) : State :=
  let s := s.modSlot ax k fun x =>
    { x with
      fires := x.fires + 1
      fired := true
      capv := x.capv || bit a.mode 4
      capt := if bit a.mode 4 then captTime e a.p prev now else x.capt
      arm := if cur then { x.arm with armed := bit a.mode 5, back := if bit a.mode 5 then some up else none } else x.arm }
  let s := match s.slotPin ax k with
    | none => s
    | some n => if bit a.mode 3 then { s with pins := Vec.upd s.pins n fun p => { p with due := some (e + 500) } } else s
  if bit a.mode 2 then s.slotTask ax k else s

/-- One slot at boundary `e`: a slot armed by a commit at `e` is evaluated as it stood before it. -/
def State.slotEval (s : State) (ax e k : Nat) : State :=
  let x := s.axis ax
  let sl := x.slot k
  let (a, cur) := match sl.before with
    | some (tc, old) => if e ≤ tc then (old, false) else (sl.arm, true)
    | none => (sl.arm, true)
  let s := if cur then s.modSlot ax k fun y => { y with before := none } else s
  if !a.armed then s else
  match a.back with
  | some up =>
    if cur && a.isBack up x.now then s.modSlot ax k fun y => { y with arm := { y.arm with back := none } } else s
  | none => match a.crossing x.prev x.now with
    | none => s
    | some up => s.slotFire ax k e a up cur x.prev x.now

/-- SLOT_EVALUATE (R253): once for each boundary, 200 ns after it. -/
def execSlotEvaluate (s : State) : Answer :=
  let e := s.mot.epoch
  if !(s.reflexOn && decide (s.mot.slotAt < e) && decide (e + 200 ≤ s.now)) then .next s else
  let s := { s with mot := { s.mot with slotAt := e } }
  .next ((List.range 12).foldl (fun s ax =>
    if s.axMode ax = 0 ∨ (s.axis ax).fault then s else (List.range 8).foldl (fun s k => s.slotEval ax e k) s) s)

/-- A CMPARM request is refused (R252, R254, R262): of several grounds the first in the order of `armSlot` is the one reported
(DESIGN CHOICE, log entry 55). -/
def State.armRefuse (s : State) (iref ax k : Nat) (conflict : Bool) : State :=
  let s := if conflict then s.conflict (axPage ax) else s.evt (axPage ax) 0x200
  (s.axRaise ax 0x1506 k).report iref 2

/-- A CMPARM request takes effect at the commit instant `tc` (R125, R252 to R254). -/
def State.armSlot (s : State) (iref ax k tc : Nat) (p mode : Word) (en : Bool) : State :=
  let sl := (s.axis ax).slot k
  let old := match sl.before with
    | some (t, o) => if t = tc then o else sl.arm
    | none => sl.arm
  let put (a : Arm) : State :=
    (s.modSlot ax k fun x => { x with arm := a, before := some (tc, old), fired := false, capv := false }).report iref 1
  if !en then (s.modSlot ax k fun x => { x with arm := { x.arm with armed := false }, before := some (tc, old) }).report iref 1
  else if fld mode 0 2 = 0 ∨ fld mode 6 2 ≠ 0 ∨ fld mode 16 16 ≠ 0 then s.armRefuse iref ax k false
  else if bit mode 3 && !sl.pinOwn then s.armRefuse iref ax k true
  else if bit mode 2 && !sl.taskOwn then s.armRefuse iref ax k false
  else put ⟨p, mode, true, none⟩

/-! ## Presets (R250) -/

/-- An enabled SLP monitor watches the axis. -/
def State.slpWatches (s : State) (ax : Nat) : Bool :=
  (List.range 24).any fun m => s.monEn m && s.monType m == 1 && s.monAxis m == ax

/-- Every stored count of the axis moves by the offset, in one clock. -/
def State.presetShift (s : State) (ax : Nat) (d : Word) : State :=
  let s := s.modAxis ax fun a =>
    { a with lane := a.lane.map fun l => { l with cnt := l.cnt + d }
             latch := a.latch.map fun x => (x.1, x.2.map fun l => { l with cnt := l.cnt + d })
             now := a.now + d, prev := a.prev + d, refd := true, preset := none }
  (List.range 24).foldl (fun s m =>
    if s.monEn m && s.monAxis m == ax then s.modSmo m fun x => { x with win := x.win.map (· + d), ref := x.ref + d }
    else s) s

/-- PRESET_APPLY (R250): at the boundary a microsecond after the commit. -/
def execPresetApply (ax : Fin 12) (s : State) : Answer :=
  let a := s.axis ax
  match a.preset with
  | some (v, tc, some base) =>
    if !(s.booted && decide (tc + 1000 ≤ s.mot.epoch)) then .next s
    else if s.axMode ax == 2 || a.fault || (s.axRefd ax && s.slpWatches ax) then
      .next (((s.modAxis ax fun a => { a with preset := none }).evt (axPage ax) 0x100).axRaise ax 0x1505 ax)
    else .next ((s.presetShift ax (v - base)).axItems ax 0)
  | some (_, _, none) => .next s
  | none => .next s

/-- A preset committed at `tc` waits for its boundary. -/
def State.presetPut (s : State) (ax tc : Nat) (v : Word) : State :=
  s.modAxis ax fun a => { a with preset := some (v, tc, if s.mot.epoch = tc then some a.now else none) }

/-! ## Monitors (R257 to R260) -/

/-- SPEED_WINDOW_UPDATE (R258). -/
def execSpeedWindowUpdate (m : Fin 24) (s : State) : Answer :=
  let e := s.mot.epoch
  let w := 2 ^ s.monWk m
  if !(s.reflexOn && s.monEn m && decide ((s.smo m).winAt < e) && e % (1000 * (w / 16)) == 0) then .next s else
  let ax := s.axis (s.monAxis m)
  if ax.fault then .next (s.modSmo m fun x => { x with win := [], v := 0, fill := true, winAt := e }) else
  let win := (ax.now :: (s.smo m).win).take 17
  let full := win.length == 17
  let v := Int.tdiv (sfld (ax.now - win.getD 16 0) 0 32 * 1000000) w
  .next (s.modSmo m fun x =>
    { x with win := win, winAt := e, fill := !full, v := if full then max (-2147483648) (min 2147483647 v) else 0 })

/-- The SLS limit in force at boundary `e` (R260). -/
def State.slsLimit (s : State) (m e : Nat) : Nat :=
  let x := s.smo m
  let new := (s.setA m x.aset).toNat
  match x.ramp with
  | none => new
  | some (old, e0) =>
    let t := (e - e0) / 1000
    let tr := (s.setB m x.aset).toNat
    if t < tr then new + (old - new) * (tr - t) / tr else new

/-- A set that a commit at `tc` has selected acts from the boundary after it (R260). -/
def State.setApply (s : State) (m e : Nat) : State :=
  let x := s.smo m
  match x.wait with
  | none => s
  | some (tc, k) =>
    if e < tc + 1000 then s else
    let p := (s.axis (s.monAxis m)).now
    let vl := s.slsLimit m (tc + 1000)
    let lower := decide ((s.setA m k).toNat < vl) && s.setB m k != 0
    (s.modSmo m fun x =>
      { x with wait := none, aset := k
               ramp := if s.monType m = 0 ∧ lower then some (vl, tc + 1000) else none
               ref := if s.monType m = 0 then x.ref else p }).evt 0x17 8

/-- p_stop of an SLP monitor (R259). -/
def pStop (p v : Int) (dmax : Nat) : Int := if dmax = 0 then p else p + Int.tdiv (v * v.natAbs) (2 * dmax)

/-- The violation of a monitor at boundary `e` but for axis faults, with the reference it leaves (R259). -/
def State.monViol (s : State) (m : Nat) (vl : Nat) : Bool × Word :=
  let x := s.smo m
  let k := x.aset
  let ax := s.monAxis m
  let pw := (s.axis ax).now
  let p := sfld pw 0 32
  match s.monType m with
  | 0 => (x.fill || decide (vl < x.v.natAbs), x.ref)
  | 1 =>
    let lo := sfld (s.setA m k) 0 32
    let hi := sfld (s.setB m k) 0 32
    let dmax := (s.setC m k).toNat
    let ps := pStop p x.v dmax
    (!s.axRefd ax || decide (p < lo) || decide (hi < p) ||
      (dmax != 0 && (x.fill || decide (ps < lo) || decide (hi < ps))), x.ref)
  | 2 =>
    let d := sfld (pw - x.ref) 0 32
    let tol : Int := (s.setB m k).toNat
    if bit (s.setA m k) 0 then
      (if d < 0 then (false, pw) else (decide (tol < d), x.ref))
    else (if 0 < d then (false, pw) else (decide (tol < -d), x.ref))
  | _ =>
    let vss := (s.setA m k).toNat
    let pss := (s.setB m k).toNat
    (x.fill || decide (vss < x.v.natAbs) || (pss != 0 && decide (pss < (sfld (pw - x.ref) 0 32).natAbs)), x.ref)

/-- The delay of a monitor's evaluation after the boundary (R257). -/
def tEv (m : Nat) : Nat := 655 + 5 * m

/-- MONITOR_EVALUATE (R257, R259, R260). -/
def execMonitorEvaluate (m : Fin 24) (s : State) : Answer :=
  let e := s.mot.epoch
  if !(s.reflexOn && s.monEn m && decide ((s.smo m).at' < e) && decide (e + tEv m ≤ s.now)) then .next s else
  let s := s.setApply m e
  let vl := s.slsLimit m e
  let (v, r) := s.monViol m vl
  let flt := (s.axis (s.monAxis m)).fault
  let viol := v || flt
  let old := s.smo m
  let done := match old.ramp with
    | none => true
    | some (_, e0) => decide ((s.setB m old.aset).toNat ≤ (e - e0) / 1000)
  let pw := (s.axis (s.monAxis m)).now
  let r := if s.monType m = 3 ∧ old.viol ∧ !viol then pw else r
  let s := s.modSmo m fun x =>
    { x with at' := e, viol := viol, fault := flt, vl := vl, ref := r, ramp := if done then none else x.ramp
             pstop := pStop (sfld pw 0 32) x.v (s.setC m x.aset).toNat }
  let s := if viol && !old.viol then (s.evt 0x17 1).raise 0x1701 [wd m] else s
  .next (if flt && !old.fault then (s.evt 0x17 2).raise 0x1702 [wd m] else s)

/-- MSTAT (R263). -/
def State.mstat (s : State) (m : Nat) : Word :=
  let x := s.smo m
  wd (b2n x.viol + 2 * b2n x.fault + 4 * b2n x.fill + 8 * b2n x.ramp.isSome + 16 * x.aset.val +
    64 * b2n (s.monEn m && s.monType m == 1 && !s.axRefd (s.monAxis m)) +
    128 * b2n (s.monEn m && s.monType m == 3 && !x.viol))

/-- MREF: the limit in force, p_stop or p, or r. -/
def State.mref (s : State) (m : Nat) : Word :=
  let x := s.smo m
  match s.monType m with
  | 0 => wd x.vl
  | 1 => wi x.pstop
  | _ => x.ref

/-- MONITOR_ITEM_WRITE (R251): 800 ns after the boundary. -/
def execMonitorItemWrite (s : State) : Answer :=
  let e := s.mot.epoch
  if !(s.reflexOn && decide (s.mot.itemAt < e) && decide (e + 800 ≤ s.now) && s.pimc.retry.isNone) then .next s else
  let s := { s with mot := { s.mot with itemAt := e } }
  .next ((List.range 24).foldl (fun s m => s.putItems 0x11 m fun x => match x.item with
    | 0 => (wd (fld (s.mstat m) 0 8), true)
    | 1 => (wi (s.smo m).v, true)
    | _ => (s.mref m, true)) s)

/-- SMOSEL takes effect at a commit at `tc`, or is refused (R125, R260). -/
def State.selectSet (s : State) (iref m tc : Nat) (set : Word) : State :=
  if h : set.toNat < 4 then
    if m < 24 ∧ bit (s.mcfg m) (24 + set.toNat) then
      (s.modSmo m fun x => { x with wait := some (tc, ⟨set.toNat, h⟩) }).report iref 1
    else ((s.evt 0x17 4).raise 0x1703 [wd m]).report iref 2
  else ((s.evt 0x17 4).raise 0x1703 [wd m]).report iref 2

/-- The monitors start on entry to STOP or RUN from BOOT: set 0, FILL, SDI and SSM references at the position (R256,
R258, R259). -/
def State.smosStart (s : State) : State :=
  (List.range 24).foldl (fun s m =>
    let p := (s.axis (s.monAxis m)).now
    let vl := (s.setA m 0).toNat
    s.modSmo m fun _ => { Smo.reset with fill := s.monEn m, ref := p, vl := vl }) s

/-- The reference of every SDI monitor starts at the position: on entry to STOP or RUN (R259). -/
def State.sdiStart (s : State) : State :=
  (List.range 24).foldl (fun s m =>
    if s.monEn m && s.monType m == 2 then
      let p := (s.axis (s.monAxis m)).now
      s.modSmo m fun x => { x with ref := p }
    else s) s

/-- A write of MCFG: an enabled monitor that was not, or whose configuration changes, starts to fill its window (R258). -/
def State.mcfgPut (s : State) (m : Nat) (old : Word) : State :=
  if s.monEn m && s.mcfg m != old then s.smoRestart m else s

/-! ## The shadow view of the axes (R249) -/

/-- The AXIS registers that are not zero, by their index. -/
def State.axisRegs (s : State) (ax : Nat) : List (Nat × Word) :=
  let a := s.axis ax
  let b := ax * 0x10000
  let slot (k : Nat) : List (Nat × Word) :=
    let x := a.slot k
    let own := b2n x.arm.armed + 2 * b2n x.fired + 4 * b2n x.capv + 8 * b2n x.pinOwn + 16 * b2n x.taskOwn + 256 * x.fires.toNat
    [(b + 0x10 + 4 * k, wd own), (b + 0x11 + 4 * k, x.arm.p), (b + 0x12 + 4 * k, loN x.capt), (b + 0x13 + 4 * k, hiN x.capt)]
  ([(b, a.now), (b + 1, a.zpos), (b + 2, a.zcnt), (b + 3, s.axStat ax)] ++ (List.range 8).flatMap slot).filter fun e => e.2 != 0

/-- What the axis operands of an activation read (R246, R249). -/
def State.axisSnap (s : State) : List (Nat × Word) :=
  (List.range 12).flatMap fun ax => if s.axis ax = Axis.reset ∧ s.axMode ax ≠ 2 then [] else s.axisRegs ax

end Sys2Proof.Machine
end

