-- ==== Sys2Proof/Machine/Net.lean ====
section
/-!
DEFINITION. Process data, twin-path safety telegrams, and the commands of the plane switches and host rings
(spec/11_train_network.md).
-/
namespace Sys2Proof.Machine

/-! ## Dataset words (R302, R310) -/

/-- The table entry a map entry of KIND 0x40 or 0x41 names. -/
def MapE.pdEntry (m : MapE) : Nat := m.inst + 256 * fld m.sopt 0 3

/-- Word `w` of a dataset as the map entry orders its bytes. -/
def MapE.pdWord (m : MapE) (bs : List Byte) : Word :=
  wordOf (bit m.sopt 8) fun i => bs.getD (4 * fld m.sopt 16 9 + i) 0

/-! ## Subscriptions (R299 to R301) -/

def State.sub (s : State) (e : Nat) : SubSt := Store.get (fun _ => ⟨0, false⟩) s.trdp.subs e
def State.modSub (s : State) (e : Nat) (f : SubSt → SubSt) : State :=
  { s with trdp := { s.trdp with subs := Store.put (fun _ => ⟨0, false⟩) s.trdp.subs e (f (s.sub e)) } }

/-- The input map entries bound to subscription `e`. -/
def State.subMaps (s : State) (e : Nat) : List MapE :=
  s.maps.filter fun m => !m.out && m.kind == 0x40 && m.pdEntry == e

/-- TRD.TOk shows TIMEDOUT. -/
def State.subFlag (s : State) (e : Nat) (out : Bool) : State :=
  s.wr (Reg.trdTo (e / 32)) (setBit (s.rd (Reg.trdTo (e / 32))) (e % 32) out)

/-- Every word of a subscription is written in one operation: fresh data, or substitute values. -/
def State.subWrite (s : State) (e : Nat) (data : Option (List Byte)) : State :=
  (s.subMaps e).foldl (fun s m => match m.item, data with
    | 1, _ => s.ipiGood m.piw (wd (fld (s.tbl 1 e 6) 0 4))
    | 0, some bs => s.ipiGood m.piw (m.pdWord bs)
    | _, some _ => s.ipiGood m.piw (s.tbl 1 e 7)
    | _, none => s.ipiBad m) s

/-- The topology test of R299. -/
def topoOk (sent cur : Word) : Bool := sent == 0 || sent == cur

/-- The first check of R299 that a PD frame fails, by the reason codes of TRD.LASTERR. -/
def State.pdReason (s : State) (x : Nat) (d : PdFrame) (planes : Nat) (dst src : Word) (len : Nat) (topo : Bool) : Option Nat :=
  if !d.fcsOk then some 1
  else if d.version.toNat / 256 ≠ 1 then some 2
  else if d.msgType ≠ 0x5064 then some 3
  else if d.dsLen ≠ len then some 4
  else if topo && !(topoOk d.etbTopo (s.rd Reg.trdEtbtopo) && topoOk d.opTopo (s.rd Reg.trdOptopo)) then some 5
  else if !planes.testBit x then some 6
  else if d.dstIp ≠ (if dst = 0 then s.ipAddr x else dst) ∨ (src ≠ 0 ∧ d.srcIp ≠ src) then some 7
  else none

/-- TRD.RXERR and LASTERR. -/
def State.pdError (s : State) (e reason : Nat) : State :=
  ((s.count Reg.trdRxerr).wr Reg.trdLasterr (wd (reason + e * 0x10000 + 0x80000000))).evt 0x22 4

/-- A counter is newer (R299, R307). -/
def newer (new old : Word) : Bool :=
  let d := (new - old).toNat
  1 ≤ d && d < 2 ^ 31

/-- The instant at which subscription `e` times out (R301). -/
def State.subEnd (s : State) (e : Nat) : Nat :=
  (s.sub e).at' + 1000 * (s.tbl 1 e 5).toNat * (fld (s.tbl 1 e 3) 0 4 + 1)

/-- The subscription times out once the K0 clock of its expiry is over: an acceptance in that clock wins (R301). -/
def State.subExpire (s : State) (e : Nat) : State :=
  if bit (s.tbl 1 e 3) 31 && !(s.sub e).told && decide (s.subEnd e / 4 < s.now / 4) then
    let s := s.setTbl 1 e 6 (setBit (s.tbl 1 e 6) 0 true)
    let s := ((s.modSub e fun x => { x with told := true }).subFlag e true).subWrite e none
    (s.evt 0x22 1).raise 0x2201 [wd e]
  else s

/-- PD_ACCEPT: TRD judges a frame for subscription `e`, which may have timed out before. -/
def State.pdRx (s : State) (x e : Nat) (d : PdFrame) : State :=
  let s := s.subExpire e
  let w3 := s.tbl 1 e 3
  match s.pdReason x d (fld w3 4 2) (s.tbl 1 e 1) (s.tbl 1 e 2) (fld (s.tbl 1 e 4) 0 11) (bit w3 6) with
  | some r => s.pdError e r
  | none =>
    let out := bit (s.tbl 1 e 6) 0
    if !out && !newer d.seq (s.tbl 1 e 7) then s else
    let told := (s.sub e).told
    let s := (s.setTbl 1 e 6 (wd (2 + 4 * 2 ^ x))).setTbl 1 e 7 d.seq
    let s := ((s.modSub e fun _ => ⟨s.now, false⟩).subFlag e false).count Reg.trdRxok
    let s := s.subWrite e (some d.data)
    let s := if told then (s.evt 0x22 2).raise 0x2202 [wd e] else s
    s.bridgeMsg 5 e d.data

/-- PD_TIMEOUT (R301). -/
def execPdTimeout (e : Fin 2048) (s : State) : Answer :=
  if s.bridgeRuns then .next (s.subExpire e) else .next s

/-! ## Publications (R296 to R298) -/

/-- The map entries of publication `e`. -/
def State.pubMaps (s : State) (e : Nat) : List MapE := s.maps.filter fun m => m.out && m.kind == 0x41 && m.pdEntry == e

/-- The dataset of publication `e`: the OPC words of its map entries, and routed bytes where none covers (R296, R326). -/
def State.pubData (s : State) (e len : Nat) : List Byte :=
  let ms := s.pubMaps e
  (List.range len).map fun i =>
    match ms.find? fun m => fld m.sopt 16 9 == i / 4 with
    | some m => (bytesOf (bit m.sopt 8) (s.pimRd (pimOpc + m.piw))).getD (i % 4) 0
    | none => s.routedByte e i

/-- The last instant at or before now at which (t − OFFS) modulo CYCLE = 0, in ns. -/
def lastInstant (now cycle offs : Nat) : Option Nat :=
  let us := now / 1000
  if us < offs then none else some ((us - (us - offs) % cycle) * 1000)

/-- The destination MAC of an IPv4 address. -/
def dstMac (ip lo hi : Word) : BitVec 48 :=
  if isGroup ip then groupMac ip else BitVec.ofNat 48 (lo.toNat + 2 ^ 32 * fld hi 0 16)

/-- A PD frame of the module (R297); a twin pair's source address is SVCIP (spec/18_twin_modules.md R470). -/
def State.pdFrame (s : State) (x pcp : Nat) (dst seq com : Word) (bs : List Byte) : PdFrame where
  srcIp := if bit (s.rd Reg.twnCtrl) 0 then s.rd Reg.twnSvcip else s.ipAddr x
  dstIp := dst
  srcPort := pdPort
  dstPort := pdPort
  ttl := 64
  dscp := BitVec.ofNat 6 (8 * pcp)
  seq := seq
  version := 0x0100
  msgType := 0x5064
  comId := com
  etbTopo := s.rd Reg.trdEtbtopo
  opTopo := s.rd Reg.trdOptopo
  dsLen := bs.length
  reserved := 0
  replyCom := 0
  replyIp := 0
  fcsOk := true
  scUpset := false
  data := bs

/-- A frame waits at P3 of plane `x`, in the order of its instant and number; P3 with IPADDR 0 sends nothing
(R291, R298), nor does an isolated twin unit (spec/18_twin_modules.md R457). -/
def State.p3Queue (s : State) (x due key pcp : Nat) (tel : Bool) (dst : BitVec 48) (d : PdFrame) : State :=
  if s.ipAddr x = 0 ∨ s.isolated then s else
  let o : P3Out := ⟨due, key, tel, s.p3Frame x pcp dst (90 + d.dsLen) (.pd d)⟩
  s.modPlane x fun n =>
    { n with p3 := (n.p3.takeWhile fun q => decide (q.due < due ∨ (q.due = due ∧ q.key ≤ key))) ++ o ::
        n.p3.dropWhile fun q => decide (q.due < due ∨ (q.due = due ∧ q.key ≤ key)) }

def State.pubAt (s : State) (e : Nat) : Nat := Store.get (fun _ => s.trdp.since) s.trdp.pubAt e

/-- PD_PUBLISH (R296): a commit at the same instant comes first (R136). -/
def execPdPublish (e : Fin 1024) (s : State) : Answer :=
  let w := s.tbl 0 e 3
  if !(s.bridgeRuns && bit w 31) then .next s else
  match lastInstant s.now (s.tbl 0 e 5).toNat (s.tbl 0 e 6).toNat with
  | none => .next s
  | some t =>
    if t ≤ s.pubAt e || s.commitBy t then .next s else
    match s.readLines 4 ((s.pubMaps e).map fun m => (pimOpc + m.piw) / 8).eraseDups with
    | (s, false) => .next s
    | (s, true) =>
    let bs := s.pubData e (fld (s.tbl 0 e 4) 0 11)
    let seq := s.tbl 0 e 7 + 1
    let dst := s.tbl 0 e 1
    let s := ((s.setTbl 0 e 7 seq).count Reg.trdTxcnt)
    let s := { s with trdp := { s.trdp with pubAt := Store.put (fun _ => s.trdp.since) s.trdp.pubAt e t } }
    let send (s : State) (x : Nat) : State :=
      if (fld w 20 2).testBit x then
        s.p3Queue x t e (fld w 16 3) false (dstMac dst (s.tbl 0 e 2) w) (s.pdFrame x (fld w 16 3) dst seq (s.tbl 0 e 0) bs)
      else s
    .next (send (send s 0) 1)

/-- Telegrams are sent: in RUN, outside a change pause (R306, spec/05_tasks_and_modes.md R152). -/
def State.telSends (s : State) : Bool := s.alive && s.mstate == .run && !s.eng.change.isPausing

/-- A frame that waits at P3 may still leave (R291, R306, spec/19_faults_and_diagnostics.md R482). -/
def State.p3Sends (s : State) (x : Nat) (o : P3Out) : Bool :=
  s.ipAddr x != 0 && (if o.tel then s.telSends else s.bridgeRuns) && !s.isolated

/-- P3_FRAME_TX (R298): the first waiting frame leaves P3 into the switch, or is dropped where P3 may no longer send it. -/
def execP3FrameTx (x : Plane) (s : State) : Answer :=
  let i := planeIdx x
  match (s.plane i).p3 with
  | [] => .next s
  | o :: r =>
    if !s.alive then .next s else
    let s := s.modPlane i fun n => { n with p3 := r }
    if s.p3Sends i o then .next (s.ingress i 2 o.f) else .next s

/-! ## Telegrams (R303 to R310) -/

def State.tel (s : State) (t : Nat) : TelSt := Store.get (fun _ => TelSt.zero) s.trdp.tels t
def State.modTel (s : State) (t : Nat) (f : TelSt → TelSt) : State :=
  { s with trdp := { s.trdp with tels := Store.put (fun _ => TelSt.zero) s.trdp.tels t (f (s.tel t)) } }

/-- The buffers of telegram `t` in PIM (R305). -/
def telSendBuf (t : Nat) : Nat := 0x5e0000 + 64 * t
def telRxBuf (x t : Nat) : Nat := 0x5e4000 + 0x4000 * x + 64 * t

def State.telLen (s : State) (t : Nat) : Nat := fld (s.tbl 2 t 5) 16 6
def State.telUdv (s : State) (t : Nat) : Nat := fld (s.tbl 2 t 5) 0 16

/-- The SC-32 of Annex B: not reflected, SID as initial value, no final change (PRESUMED). -/
def sc32 (sid : Word) (bs : List Byte) : Word := crcMsb (0xf4acfb13 : Word) sid (bytesMsb bs)

/-- The trailer up to the safety code. -/
def trailer (udv : Nat) (ssc : Word) : List Byte := List.replicate 6 0 ++ natBytesBE udv 2 ++ natBytesBE ssc.toNat 4

/-- The dataset of a telegram (R303). -/
def telDataset (sid : Word) (udv : Nat) (ssc : Word) (ws : List Word) : List Byte :=
  let b := ws.flatMap (fun w => natBytesBE w.toNat 4) ++ trailer udv ssc
  b ++ natBytesBE (sc32 sid b).toNat 4

/-- STATE of a telegram changes, and the TWP registers with it. -/
def State.telState (s : State) (t : Nat) (tout single : Bool) (count : Nat) (ever : Bool) : State :=
  let s := s.setTbl 2 t 8 (wd (b2n tout + 2 * b2n single + 4 * count + 256 * b2n ever))
  let a := Reg.twpTout (t / 32)
  let b := Reg.twpSingle (t / 32)
  (s.wr a (setBit (s.rd a) (t % 32) tout)).wr b (setBit (s.rd b) (t % 32) single)

def State.telTout (s : State) (t : Nat) : Bool := bit (s.tbl 2 t 8) 0
def State.telSingle (s : State) (t : Nat) : Bool := bit (s.tbl 2 t 8) 1
def State.telCount (s : State) (t : Nat) : Nat := fld (s.tbl 2 t 8) 2 5
def State.telEver (s : State) (t : Nat) : Bool := bit (s.tbl 2 t 8) 8

/-- The words of a telegram are written in one operation, fresh at instant `e` (R308, R310). -/
def State.telWrite (s : State) (t e : Nat) (data : Option (List Word)) : State :=
  (s.inMaps 0x42 t).foldl (fun s m => match m.item, data with
    | 1, _ => s.ipiFrom m.piw (s.tbl 2 t 8) stGood (e + 1)
    | 0, some ws => s.ipiFrom m.piw (ws.getD (fld m.sopt 0 6) 0) stGood (e + 1)
    | _, some _ => s.ipiFrom m.piw (s.tbl 2 t 9) stGood (e + 1)
    | _, none => s.ipiBad m) s

/-- The telegram enters its timeout state (R309). -/
def State.telOut (s : State) (t : Nat) : State :=
  let ever := s.telEver t
  let was := s.telTout t
  let s := s.telState t true (s.telSingle t) (s.telCount t) ever
  let s := if ever && !was then s.count Reg.twpTocnt else s
  s.telWrite t s.now none

/-- The SC-32 units disagree: the telegram stops until module reset (R309). -/
def State.telStop (s : State) (t : Nat) : State :=
  let s := s.modTel t fun x => { x with stopped := true, win := none }
  let s := if bit (s.tbl 2 t 0) 0 then s else s.telOut t
  (s.evt 0x23 32).raise 0x2305 [wd t]

/-- An acceptance at instant `e`: words, trigger, SSC, and the time from which TTO counts (R308). -/
def State.telAccept (s : State) (t e : Nat) (ssc : Word) (ws : List Word) : State :=
  let s := (s.setTbl 2 t 9 ssc).modTel t fun x => { x with win := none, at' := e }
  (s.telWrite t e (some ws)).trigger 2 t

/-- DUAL_PATH_ACCEPT (R308, R309). -/
def State.telDual (s : State) (t : Nat) (ssc : Word) (ws : List Word) : State :=
  let was := s.telTout t
  let s := (s.telState t false false 0 true).telAccept t s.now ssc ws
  if was then (s.evt 0x23 16).raise 0x2306 [wd t] else s

/-- A window closes at instant `e` without the other plane's copy (R308). -/
def State.telSinglePath (s : State) (t e : Nat) (w : TelWin) : State :=
  let s := s.modTel t fun x => { x with win := none }
  if s.telTout t then s else
  let n := s.telCount t
  let grace := fld (s.tbl 2 t 5) 24 4
  if n < grace + 1 then
    let s := (s.telState t false true (n + 1) (s.telEver t)).telAccept t e w.ssc w.data
    if n = 0 then (s.evt 0x23 8).raise 0x2304 [wd t] else s
  else ((s.telOut t).evt 0x23 2).raise 0x2302 [wd t]

/-- A valid copy (R308). -/
def State.telCopy (s : State) (x t : Nat) (ssc : Word) (ws : List Word) : State :=
  let s := s.pimWrs (telRxBuf x t) ws
  let fresh (s : State) : State := s.modTel t fun y => { y with win := some ⟨planeOf x, ssc, ws, s.now⟩ }
  match (s.tel t).win with
  | none => fresh s
  | some w =>
    if w.plane = planeOf x then (if newer ssc w.ssc then fresh (s.telSinglePath t s.now w) else s)
    else if w.ssc = ssc ∧ w.data = ws then s.telDual t ssc ws
    else (((s.modTel t fun y => { y with win := none }).count Reg.twpMiscnt).evt 0x23 4).raise 0x2303 [wd t]

/-- The end of an open window: W = CYCLE / 4 µs after the copy (R308). -/
def State.winEnd (s : State) (t : Nat) (w : TelWin) : Nat := w.at' + 250 * (s.tbl 2 t 6).toNat

/-- The instant at which TTO expires. -/
def State.telEnd (s : State) (t : Nat) : Nat := (s.tel t).at' + 1000 * (s.tbl 2 t 7).toNat

/-- The open window closes once its end is reached; from its end on it takes no copy (log entry 59). -/
def State.telClose (s : State) (t : Nat) : State :=
  match (s.tel t).win with
  | none => s
  | some w => if s.winEnd t w ≤ s.now then s.telSinglePath t (s.winEnd t w) w else s

/-- TTO expires in its K0 clock, before an acceptance of the same clock (R309). -/
def State.telExpire (s : State) (t : Nat) : State :=
  let w := s.tbl 2 t 0
  if bit w 31 && !bit w 0 && !s.telTout t && decide (s.telEnd t / 4 ≤ s.now / 4) then
    ((s.telOut t).evt 0x23 1).raise 0x2301 [wd t]
  else s

/-- What time has brought about for receive telegram `t`, in its order: a window that ends before the clock of the TTO expiry,
the expiry, a window that ends later. -/
def State.telSettle (s : State) (t : Nat) : State :=
  let first := match (s.tel t).win with
    | none => false
    | some w => decide (s.winEnd t w / 4 < s.telEnd t / 4)
  ((if first then s.telClose t else s).telExpire t).telClose t

/-- TELEGRAM_COPY_RX (R307): the checks of a copy of receive telegram `t`. A copy with an SSC older than the last accepted one
is not valid and counted in TRD.RXERR, one with the same SSC is a duplicate. -/
def State.telRx (s : State) (x t : Nat) (d : PdFrame) : State :=
  if (s.tel t).stopped then s else
  let s := s.telSettle t
  let len := 4 * s.telLen t + 16
  let grp := s.tbl 2 t (2 + x)
  match s.pdReason x d 3 grp 0 len false with
  | some _ => s.count Reg.trdRxerr
  | none =>
    if d.scUpset then s.telStop t else
    let ws := (List.range (s.telLen t)).map fun i => wd (beNat ((d.data.drop (4 * i)).take 4))
    let tr := d.data.drop (4 * s.telLen t)
    let ssc := wd (beNat ((tr.drop 8).take 4))
    let body := d.data.take (len - 4)
    let codeOk := beNat ((tr.drop 12).take 4) == (sc32 (s.tbl 2 t 4) body).toNat
    if !codeOk || beNat ((tr.drop 6).take 2) != s.telUdv t then s.count Reg.twpScerrcnt
    else if !s.telTout t && ssc == s.tbl 2 t 9 then s
    else if !s.telTout t && !newer ssc (s.tbl 2 t 9) then s.count Reg.trdRxerr
    else s.telCopy x t ssc ws

/-- COMPARE_WINDOW_CLOSE (R308): W = CYCLE / 4 µs after the copy. -/
def execCompareWindowClose (t : Fin 256) (s : State) : Answer :=
  match (s.tel t).win with
  | none => .next s
  | some w => if s.bridgeRuns && decide (s.winEnd t w ≤ s.now) then .next (s.telSettle t) else .next s

/-- TELEGRAM_TIMEOUT (R309). -/
def execTelegramTimeout (t : Fin 256) (s : State) : Answer :=
  if s.bridgeRuns && decide (s.telEnd t / 4 ≤ s.now / 4) then .next (s.telSettle t) else .next s

/-- TELEGRAM_SEND (R306), behind a commit of the same instant (R136). An instant that passed while telegrams were not sent
passes unsent. The header's sequence counter is a free value. -/
def execTelegramSend (t : Fin 256) (scUpset : Bool) (s : State) : Answer :=
  let w := s.tbl 2 t 0
  if !(s.telSends && bit w 31 && bit w 0 && s.eng.telOpen.contains t.val && !(s.tel t).stopped) then .next s else
  match lastInstant s.now (s.tbl 2 t 6).toNat (s.tbl 2 t 7).toNat with
  | none => .next s
  | some at' =>
    if at' ≤ (s.tel t).sentAt || decide (at' < s.trdp.telFrom) || s.commitBy at' then .next s else
    match s.readLines 4 (linesOf (telSendBuf t) (s.telLen t)) with
    | (s, false) => .next s
    | (s, true) =>
    let ssc := s.tbl 2 t 9 + 1
    let s := (s.setTbl 2 t 9 ssc).modTel t fun x => { x with sentAt := at' }
    if scUpset then .next (s.telStop t) else
    let bs := telDataset (s.tbl 2 t 4) (s.telUdv t) ssc (s.pimRds (telSendBuf t) (s.telLen t))
    let seq := lo32 s.freeDraw
    let s := s.drawn
    let send (s : State) (x : Nat) : State :=
      let g := s.tbl 2 t (2 + x)
      s.p3Queue x at' t (fld w 8 3) true (groupMac g) (s.pdFrame x (fld w 8 3) g seq (s.tbl 2 t 1) bs)
    .next (send (send s 0) 1)

/-! ## P3 and the switches -/

/-- ARP_REPLY (R292). -/
def State.arpReply (s : State) (x : Nat) (a : Arp) : State :=
  s.p3Send x 0 a.senderMac 64 (.arp ⟨true, Config.mac x, s.ipAddr x, a.senderIp⟩)

/-- P3 takes in a frame (R292); what it does not take goes to P4. Process data and telegrams are processed in STOP, RUN and HOLD
alone (spec/01_system_architecture.md R22, spec/19_faults_and_diagnostics.md R482). -/
def State.p3Take (s : State) (x : Nat) (f : EthFrame) : State :=
  let s := s.count (Reg.netPtx x 2)
  if !s.p3Takes x f then (if s.hostEn x then s.hostRxDeliver x f else s) else
  match f.body with
  | .arp a => s.arpReply x a
  | .pd d =>
    if !s.bridgeRuns then s else
    match s.subOf d.comId, s.telOf d.comId with
    | some e, _ => s.pdRx x e d
    | none, some t => s.telRx x t d
    | none, none => s
  | .ptp m => s.ptpRx m
  | .pause => s
  | .other _ _ => s

/-- P3_FRAME_RX: the frame, taken off P3's queue where it waits there. -/
def execP3FrameRx (x : Plane) (f : EthFrame) (s : State) : Answer :=
  let i := planeIdx x
  if !s.booted then .next s else
  let s := s.modPlane i fun n => { n with queues := Vec.updAt n.queues 2 fun l => l.eraseP fun q => q.f == f }
  .next (s.p3Take i f)

/-- SWITCH_FRAME_RX (R287 to R290): a frame at an external port. -/
def execSwitchFrameRx (x : Plane) (port : Fin 4) (f : EthFrame) (s : State) : Answer :=
  let i := planeIdx x
  if s.alive && decide (port.val < 2) && s.portEn i port then .next (s.ingress i port f) else .next s

/-- The frame that leaves next: the highest priority, the oldest of it (R289). -/
def nextFrame (l : List QFrame) : Option QFrame :=
  ((List.range 8).reverse.filterMap fun p => l.find? fun q => q.pcp == p).head?

/-- The correction the transparent clock adds to a PTP frame that leaves (spec/13_time.md R344). -/
def State.transparent (s : State) (x p : Nat) (q : QFrame) : State × EthFrame :=
  if !bit (s.rd Reg.ptpCtrl) 3 then (s, q.f) else
  match q.f.body with
  | .ptp m =>
    let d := s.now - q.at'
    let link : Int := if s.ptpP2p then Config.linkDelay x p else 0
    let plus (n : Int) : EthFrame := { q.f with body := .ptp { m with hdr := { m.hdr with corr := m.hdr.corr + n } } }
    match m.kind with
    | .sync =>
      if m.twoStep then
        (s.modPlane x fun n => { n with resid := ((m.hdr.src, m.hdr.seq, p, d) :: n.resid).take 16 }, q.f)
      else (s, plus (d + link))
    | .followUp =>
      match (s.plane x).resid.find? fun r => r.1 == m.hdr.src && r.2.1 == m.hdr.seq && r.2.2.1 == p with
      | some r => (s, plus (r.2.2.2 + link))
      | none => (s, q.f)
    | _ => (s, q.f)
  | _ => (s, q.f)

/-- SWITCH_FRAME_TX (R289): the next frame of a port leaves; into P3 it is taken in. -/
def execSwitchFrameTx (x : Plane) (port : Fin 4) (s : State) : Answer :=
  let i := planeIdx x
  match nextFrame (Vec.at (s.plane i).queues port []) with
  | none => .next s
  | some q =>
    if !(s.alive && s.portUp i port) then .next s else
    let s := s.modPlane i fun n => { n with queues := Vec.updAt n.queues port fun l => l.erase q }
    let (s, f) := s.transparent i port q
    if port.val < 2 then .next ((s.count (Reg.netPtx i port)).emit (.eth x port f)) else .next (s.p3Take i f)

/-! ## Host rings and links -/

/-- The frame in a host send slot. -/
def State.hostSlot (s : State) (x slot : Nat) : EthFrame :=
  let a := (s.rd (Reg.netHtxbase x)).toNat + 2048 * slot
  let n := (s.notice.readWord ramFill a).toNat % 2048
  let b := s.notice.readBytes ramFill (a + 16) n
  let tagged := beNat ((b.drop 12).take 2) == 0x8100
  let tci := beNat ((b.drop 14).take 2)
  let r := b.drop (if tagged then 16 else 12)
  { dst := BitVec.ofNat 48 (beNat (b.take 6)), src := BitVec.ofNat 48 (beNat ((b.drop 6).take 6))
    tag := if tagged then some (BitVec.ofNat 3 (tci / 0x2000), BitVec.ofNat 12 tci) else none
    len := n + 4, fcsOk := true, body := bodyParse (planeOf x) s.now r }

/-- HOST_TX_SEND (R293). -/
def execHostTxSend (x : Plane) (s : State) : Answer :=
  let i := planeIdx x
  let cons := fld (s.rd (Reg.netHtxcons i)) 0 8
  if !(s.booted && s.hostEn i && cons != fld (s.rd (Reg.netHtxprod i)) 0 8) then .next s else
  let f := s.hostSlot i cons
  let n := fld (s.rd (Reg.netHtxnum i)) 0 9
  let s := s.wr (Reg.netHtxcons i) (wd (if cons + 1 = n then 0 else cons + 1))
  .next ((s.evt (netPage i) 8).ingress i 3 f)

/-- ETH_LINK_CHANGE (R311, R313). -/
def execEthLinkChange (x : Plane) (port : Fin 2) (spd : BitVec 2) (s : State) : Answer :=
  let i := planeIdx x
  let a := Reg.netStat i
  let old := s.rd a
  if !(s.alive && s.portEn i port && fld old (2 + 2 * port.val) 2 != spd.toNat) then .next s else
  let s := s.wr a (setFld (setBit old port (spd != 0)) (2 + 2 * port.val) 2 spd.toNat)
  let s := (s.evt (netPage i) 1).raise (0x2001 + 0x100 * i) [wd (port.val + 1)]
  .next (if s.netUp i then s else (s.evt (netPage i) 2).raise (0x2002 + 0x100 * i) [wd (port.val + 1)])

/-- ADDRESS_AGEING (R288). -/
def execAddressAgeing (x : Plane) (mac : BitVec 48) (s : State) : Answer :=
  if s.alive then
    .next (s.modPlane (planeIdx x) fun n =>
      { n with table := n.table.filter fun e => !(e.mac == mac && decide (e.at' + 300000000000 ≤ s.now)) })
  else .next s

/-- NETx.CNTCLR (R312). -/
def State.netClear (s : State) (x : Nat) (v : Word) : State :=
  if v ≠ 1 then s else
  (List.range 4).foldl (fun s p =>
    (((s.wr (Reg.netPrx x p) 0).wr (Reg.netPtx x p) 0).wr (Reg.netPerr x p) 0).wr (Reg.netPdrop x p) 0) s

end Sys2Proof.Machine
end

