-- ==== Sys2Proof/Machine/Resync.lean ====
section
/-!
DEFINITION. Global signatures, the resynchronisation of a held lane, and the PIM controller's write-backs, retries and
scrubbing (spec/06_triplex_execution.md R172 to R178, R181 to R183).
-/
namespace Sys2Proof.Machine

def State.modLanes (s : State) (f : Lanes → Lanes) : State := { s with lanes := f s.lanes }

/-! ## Global signatures (R172, R173) -/

/-- The words that give where an activation stands: the context of R163. -/
def Act.words (a : Act) (t : Nat) : List Word :=
  let p : Nat × Nat × Nat := match a.pos with
    | .cond i => (1, i, 0)
    | .desc i k => (2, i, k)
    | .done => (3, 0, 0)
  [wd t, wd p.1, wd p.2.1, wd p.2.2, wd a.pe, wd a.dt, loN a.ts, hiN a.ts, wd a.eper]

/-- Pipe working word `i` of a lane that an undisturbed lane holds as `w`. -/
def Pipe.flip (p : Pipe) (i : Nat) (w : Word) : Word := p.dev.foldl (fun w d => if d.1 = i then w ^^^ d.2 else w) w

/-- Pipe working word `i` of a lane, 64 in each of the four pipes in their order (R163). -/
def Pipe.word (p : Pipe) (i : Byte) : Word :=
  p.flip i.toNat (match p.fill with
    | none => 0
    | some n => Config.pipeWord n i)

/-- The 256 pipe working words of a lane as they deviate from those of an undisturbed one, in pipe order. -/
def Pipe.devWords (p : Pipe) : List Word := (List.range 256).map fun i => p.flip i 0

/-- A lane's deviation in a signature after the words of its pipes (R171): the code is linear. -/
def Pipe.devSig (d : Dword) (p : Pipe) : Dword :=
  if p.dev = [] then (if d = 0 then 0 else sigWords d (List.replicate 256 0)) else sigWords d p.devWords

/-- What the words of undisturbed pipes bring into a signature; the spec names no content (log entry 6). -/
def Pipe.sigPart (p : Pipe) : Dword :=
  match p.fill with
  | none => 0
  | some n => Config.pipeSig n

/-- The preempted activations, lowest task first. -/
def State.contexts (s : State) : List (Fin 8 × Act) :=
  (List.finRange 8).filterMap fun (t : Fin 8) => match s.eng.tasks[t].act with
    | none => none
    | some a => if a.stage = .preempted then some (t, a) else none

/-- The scheduler view: who is ready, who runs, the pending commits (R163). -/
def State.schedWords (s : State) : List Word :=
  wd (match s.eng.running with | none => 0xff | some t => t.val) ::
    s.eng.tasks.toList.flatMap fun k => match k.act with
      | none => [0, 0, 0]
      | some a => [wd (1 + b2n (a.stage == .ready)), loN a.tc, hiN a.tc]

/-- The latched settings of ENG, TSK, VOTE, PIM and DBG (R163). -/
def State.cfgWords (s : State) : List Word :=
  [Reg.engCtrl, Reg.voteCtrl, Reg.voteStarve, Reg.pimScrubmax].map s.rd ++
    (List.range 8).flatMap (fun t => [s.rd (Reg.tskTcfg t), s.rd (Reg.tskTwarn t)]) ++
    (List.range 16).map fun k => s.rd (Reg.dbgBp k)

/-- What every lane holds alike: context store, scheduler view, configuration copy, rule configuration, agreed values and the
deviation counters (DEDUCED: every input agreement copy counts the deviations of all three lanes; log entry 51). -/
def State.globalShared (s : State) : List Word :=
  s.contexts.flatMap (fun c => c.2.words c.1 ++ [lo32 c.2.sig, hi32 c.2.sig]) ++ s.schedWords ++ s.cfgWords ++
    (List.range 64).flatMap (fun r => [s.rd (Reg.rfxRcond r), s.rd (Reg.rfxRact r), s.rd (Reg.rfxRrst r)]) ++
    s.mot.axes.toList.flatMap (fun x => [x.now, x.zpos, x.zcnt]) ++ s.lanes.devCnt.toList.map wd

/-- A rule's latches as one word. -/
def Rule.word (x : Rule) : Word :=
  wd (b2n x.latch + 2 * b2n x.armed + 4 * b2n x.stuck + 8 * b2n x.tested + 16 * x.hold.toNat)

/-- What lane `l` holds itself: its deviations in the scheduler view, the configuration copy and the context store, both halves
of its LCR, and the rule latches of its reflex matrix copy. -/
def State.globalOwn (s : State) (l : Fin 3) : List Word :=
  let own := s.lanes.own[l]
  [lo32 own, hi32 own, (s.lanes.lcrS[l]).zeroExtend 32, (s.lanes.lcr[l]).zeroExtend 32] ++
    s.contexts.flatMap (fun c =>
      let d := c.2.pipe[l].devSig (if l.val = 0 then c.2.sigDev.a else if l.val = 1 then c.2.sigDev.b else c.2.sigDev.c)
      [lo32 d, hi32 d]) ++
    (List.range 64).map fun r => (s.rule l r).word

/-- The global signature of a lane: the CRC of R171 over the items of R172. -/
def State.globalSig (s : State) (l : Fin 3) : Dword := sigWords (sigWords 0 s.globalShared) (s.globalOwn l)

/-- The lanes form their global signatures, and the voter copies compare them (R172, R174): that of a held lane takes part once
all of its parts have been loaded (R177; DEDUCED, log entry 51). -/
def State.globalVote (s : State) : State × Option Dword :=
  let loaded := match s.lanes.rs with
    | .agreed _ _ => true
    | .idle => false
    | .reset _ => false
    | .engine _ => false
    | .k0 _ => false
  let lead : Fin 3 := (s.lanes.counting.head?).getD 0
  let sig (l : Fin 3) : Dword := if loaded || s.lanes.counts l then s.globalSig l else s.globalSig lead
  s.vote 4 0 ⟨sig 0, sig 1, sig 2⟩

/-- What a disturbance changes in the scheduler views ([63:32]) and configuration copies ([31:0]) of the lanes. -/
def State.ownUpset (s : State) (d : Tri) : State :=
  s.modLanes fun x => { x with own := #v[x.own[0] ^^^ d.a, x.own[1] ^^^ d.b, x.own[2] ^^^ d.c] }

/-- An activation is being copied, ready, running or preempted. -/
def Act.busy (a : Act) : Bool := a.stage != .complete

/-- A task boundary (R176). In HOLD none occurs. -/
def State.taskBoundary (s : State) : Bool :=
  let idle := s.eng.tasks.toList.all fun k => match k.act with
    | none => true
    | some a => !a.busy
  let done := s.eng.mode == .stop || s.eng.tasks.toList.any fun k => k.lastShad.isSome
  s.eng.mode != .hold && idle && done && s.pow.opc == .none && s.pimc.retry.isNone

/-- A lane that may be resynchronised. -/
def Lanes.oddLane (l : Lanes) : Option (Fin 3) := (List.finRange 3).find? fun i => bit l.held i && !bit l.retired i

/-- RESYNC_START: the odd lane's engine part and voter copy are reset (R177). -/
def execResyncStart (s : State) : Answer :=
  if !(s.booted && !s.safeLatch && s.lanes.rs == .idle && s.lanes.oddLane.isSome && s.taskBoundary) then .next s
  else .next (s.modLanes fun l => { l with rs := .reset s.now })

/-- The two lanes that send to the odd one: the first and the last that count. -/
def Lanes.senders (l : Lanes) : Fin 3 × Fin 3 :=
  ((l.counting.head?).getD 0, (l.counting.getLast?).getD 0)

/-- The two transfer streams of the agreeing lanes differ (R177, R179). -/
def State.streamsDiffer (s : State) : State := s.enterSafe 0x0a0c 0 (lanePay (s.lanes.oddLane.getD 0) 0 0 s.runTask)

/-- RESYNC_ENGINE_LOADED: scheduler view, configuration copy and staged LCR half of the odd lane are those of the agreeing
lanes, whose streams agree, or the module enters SAFE; its pipe registers are zero (R177). -/
def execResyncEngineLoaded (differ : Bool) (s : State) : Answer :=
  match s.lanes.rs, s.lanes.oddLane with
  | .reset tb, some l =>
    let (p, q) := s.lanes.senders
    if !s.booted then .next s
    else if differ || s.lanes.own[p] != s.lanes.own[q] || s.lanes.lcrS[p] != s.lanes.lcrS[q] then .next s.streamsDiffer
    else .next (s.modLanes fun x =>
      { x with rs := .engine tb, own := x.own.set l x.own[p], lcrS := x.lcrS.set l x.lcrS[p], pipe := x.pipe.set l Pipe.zero })
  | _, _ => .next s

/-- Enable latches, each with the GEN bit last seen. -/
def State.enLatches (s : State) (l : Fin 3) : List (Bool × Bool) :=
  s.fio.toList.map fun f => (f.cp[l].en, f.cp[l].genPrev)

/-- The K0 items that the agreeing lanes `p` and `q` send differ. -/
def State.k0Differ (s : State) (p q : Fin 3) : Bool :=
  s.rfx.rules[p] != s.rfx.rules[q] || s.enLatches p != s.enLatches q || s.lanes.lcr[p] != s.lanes.lcr[q]

/-- Rule latches, enable latches and committed LCR half of lane `l` become those of lane `p`. -/
def State.k0Load (s : State) (l p : Fin 3) : State :=
  let s := s.modLanes fun x =>
    { x with lcr := x.lcr.set l x.lcr[p], vecDev := x.vecDev.set l x.vecDev[p], vecCnt := x.vecCnt.set l 0 }
  let load (f : Fio) : Fio := { f with cp := f.cp.set l { f.cp[l] with en := f.cp[p].en, genPrev := f.cp[p].genPrev } }
  { s with rfx := { s.rfx with rules := s.rfx.rules.set l s.rfx.rules[p] }, fio := s.fio.map load }

/-- RESYNC_K0_LOAD (R177). -/
def execResyncK0Load (differ : Bool) (s : State) : Answer :=
  match s.lanes.rs, s.lanes.oddLane with
  | .engine _, some l =>
    let (p, q) := s.lanes.senders
    if !s.booted then .next s
    else if differ || s.k0Differ p q then .next s.streamsDiffer
    else .next ((s.k0Load l p).modLanes fun x => { x with rs := .k0 s.now })
  | _, _ => .next s

/-- LANE_REJOIN (R177): 200 ns after the epoch boundary, the verifying signatures. -/
def execLaneRejoin (sig : Tri) (s : State) : Answer :=
  match s.lanes.rs, s.lanes.oddLane with
  | .agreed _ e, some l =>
    if !(s.booted && decide (e + 200 ≤ s.now)) then .next s else
    let (s, v) := (s.ownUpset sig).globalVote
    match v, s.lanes.rs with
    | some _, .agreed _ _ =>
      let s := s.modLanes fun x => { x with held := x.held &&& ~~~ BitVec.ofNat 3 (2 ^ l.val), rs := .idle, starved := false }
      let s := s.wr Reg.voteLasthold (wd (satNat 0xffffffff (s.now - s.lanes.oddAt)))
      let cause := fld (s.rd (Reg.voteOddcnt l)) 16 3
      .next ((s.evt 10 2).raise 0x0a09 (lanePay l cause 0 s.runTask))
    | _, _ => .next s
  | _, _ => .next s

/-- RESYNC_STARVED (R178): no task boundary within VOTE.STARVE milliseconds. -/
def execResyncStarved (s : State) : Answer :=
  match s.lanes.rs, s.lanes.oddLane with
  | .idle, some l =>
    let due := s.lanes.oddAt + 1000000 * fld (s.rd Reg.voteStarve) 0 14
    if !(s.booted && !s.safeLatch && !s.lanes.starved && decide (due ≤ s.now)) then .next s else
    let cause := fld (s.rd (Reg.voteOddcnt l)) 16 3
    .next (((s.modLanes fun x => { x with starved := true }).evt 10 8).raise 0x0a0b (lanePay l cause 0 s.runTask))
  | _, _ => .next s

/-- VOTE.SIGSNAP: 0x1 copies the last task signatures (R186). -/
def State.sigSnap (s : State) (v : Word) : State :=
  if v ≠ 1 then s else
  let t := s.lanes.sig
  ((s.wr64 (Reg.voteSig 0) t.a.toNat).wr64 (Reg.voteSig 2) t.b.toNat).wr64 (Reg.voteSig 4) t.c.toNat

/-! ## PIM controller (R181 to R183) -/

/-- PIM_WRITEBACK: the first corrected line that waits is written back (R181). -/
def execPimWriteback (s : State) : Answer :=
  if !s.alive || s.pimc.retry.isSome then .next s else
  match s.pimc.writeback with
  | [] => .next s
  | line :: _ => .next { s with pimc := s.pimc.wrote line }

/-- The line holds a codeword that the code finds uncorrectable. -/
def State.lineFails (s : State) (line : Nat) : Bool :=
  (List.range 4).any fun cw => codeFinds (s.flips line cw) == .fails

/-- PIM_RETRY_END (R182): the repeated read finds stored errors again. -/
def execPimRetryEnd (o : RetryOut) (s : State) : Answer :=
  match s.pimc.retry with
  | none => .next s
  | some (line, mid, second) =>
    if !s.alive then .next s else
    let s := { s with pimc := { s.pimc with retry := none } }
    if o = .addrClass || second then .next (s.pimFatal 0x0b03 line mid 1 (8 * line))
    else if o = .sameData || s.lineFails line then .next (s.pimFatal 0x0b04 line mid 2 (8 * line))
    else .next ((s.evt 11 2).raise 0x0b02 [0, wd (8 * line), wd s.runTask])

/-- The lines of a full pass (R183). -/
def scrubLines : Nat := 786432

/-- SCRUB_PASS_DONE; the record names no line (R185). -/
def State.scrubDone (s : State) : State :=
  let us := (s.now - s.pimc.scrubFrom) / 1000
  let s := s.wr Reg.pimScrubt (wd (satNat 0xffffffff us))
  let s := { s with pimc := { s.pimc with scrubPos := 0, scrubFrom := s.now } }
  if 1000 * fld (s.rd Reg.pimScrubmax) 0 16 < us then (s.evt 11 4).raise 0x0b06 [0, 0, wd s.runTask] else s

/-- SCRUB_LINE (R183): the next line is read and checked in a free slot. -/
def execScrubLine (e : PimErr) (s : State) : Answer :=
  if !(s.booted && !s.pimc.scrubOff && s.pstate != .nap && s.pimc.retry.isNone) then .next s else
  let p := s.pimc.scrubPos
  let s := (s.pimCheck 0 [p] { e with lanes := 0 }).1
  let s := { s with pimc := { s.pimc with scrubPos := p + 1 } }
  let s := if p + 1 < scrubLines then s else s.scrubDone
  .next (s.wr Reg.pimScrubpos (wd s.pimc.scrubPos))

end Sys2Proof.Machine
end

