-- ==== Sys2Proof/Machine/PowerOps.lean ====
section
/-!
DEFINITION. The governor's balance, operating-point requests, and the chooser of DOZE and NAP
(spec/16_clocks_and_power.md R416 to R422, spec/05_tasks_and_modes.md R154).
-/
namespace Sys2Proof.Machine

def State.modPow (s : State) (f : Pow → Pow) : State := { s with pow := f s.pow }

/-- PWR.STAT and PWR.CTRL fields (R430). -/
def State.op (s : State) : Nat := fld (s.rd Reg.pwrStat) 4 2
def State.setPst (s : State) (b : Nat) (v : Bool) : State := s.wr Reg.pwrStat (setBit (s.rd Reg.pwrStat) b v)
def State.opMax (s : State) : Nat := fld (s.rd Reg.pwrOplim) 0 2
def State.opFloor (s : State) : Nat := fld (s.rd Reg.pwrOplim) 8 2

/-- EPE of an operating point, pJ. -/
def State.epe (s : State) (p : Nat) : Nat :=
  (s.rd (if p = 0 then Reg.pwrEpe0 else if p = 1 then Reg.pwrEpe1 else if p = 2 then Reg.pwrEpe2 else Reg.pwrEpe3)).toNat

/-! ## Token balance (R154, R419) -/

/-- The energy of PEs at the point in force, whole µJ. -/
def State.peCost (s : State) (pes : Nat) : Nat := pes * s.epe s.op / 1000000
def State.tokBal (s : State) : Int := sfld (s.rd Reg.pwrTokbal) 0 32
def State.setTok (s : State) (b : Int) : State := s.wr Reg.pwrTokbal (wi b)

/-- A cost in µJ is deducted. -/
def State.deduct (s : State) (c : Nat) : State := s.setTok (s.tokBal - c)

/-- GOVERNOR_SETTLE: the cost deducted at the admission gives way to the measured one, at the point in force (DEDUCED: the spec
names the energy per PE of the point in force for the estimate alone; log entry 52). -/
def State.govSettle (s : State) (est meas : Nat) : State := s.setTok (s.tokBal + est - s.peCost meas)

/-! ## Operating points (R416, R417) -/

/-- OP_CHANGE_REQUEST: point `b` is asked for. -/
def State.opRequest (s : State) (b : Fin 4) : State :=
  if s.now < s.pow.opNotBefore then s
  else if s.pow.opc != .none || s.pstate == .nap then s.modPow fun p => { p with opWant := some b }
  else if b.val = s.op then s
  else if b.val < s.op then s.modPow fun p => { p with opc := .ramp b s.now }
  else s.modPow fun p => { p with opc := .ready b }

/-- The point that stands at the end of the changes asked for. -/
def State.opTarget (s : State) : Nat :=
  match s.pow.opWant, s.pow.opc with
  | some b, _ => b
  | none, .ramp b _ => b
  | none, .ready b => b
  | none, .halted b => b
  | none, .none => s.op

/-- A request that waited is taken. -/
def State.opNext (s : State) : State :=
  match s.pow.opWant with
  | none => s
  | some b => (s.modPow fun p => { p with opWant := none }).opRequest b

/-- The lanes wait at a dispatch point. -/
def State.opHalts (s : State) : Bool :=
  match s.pow.opc with
  | .ready _ => true
  | .halted _ => true
  | .ramp _ _ => false
  | .none => false

/-- A dispatch point (R417). -/
def State.dispatchPoint (s : State) : Bool :=
  let copying := s.eng.tasks.toList.any fun k => match k.act with
    | none => false
    | some a => a.stage == .copying
  let loading := match s.lanes.rs with
    | .reset _ => true
    | .idle => false
    | .engine _ => false
    | .k0 _ => false
    | .agreed _ _ => false
  s.eng.running.isNone && !copying && !loading

/-! ## DOZE and NAP (R421, R422) -/

/-- No activation is being copied, ready, running or preempted. -/
def State.engineIdle (s : State) : Bool :=
  s.eng.tasks.toList.all fun k => match k.act with
    | none => true
    | some a => !a.busy

/-- DOZE is eligible; NAP, with the tables empty, the host rings and TWN disabled and no resynchronisation in progress. -/
def State.dozeOk (s : State) : Bool :=
  (s.mstate == .stop || s.mstate == .run) &&
    (List.finRange 8).all fun t => decide (4 ≤ t.val) || !(s.eng.tasks[t]).rec'.en || (s.eng.tasks[t]).rec'.trig == 0
def State.napOk (s : State) : Bool :=
  s.dozeOk && (s.enabled 0 3).isEmpty && (s.enabled 1 3).isEmpty && (s.enabled 2 0).isEmpty && s.routes.isEmpty &&
    !s.hostEn 0 && !s.hostEn 1 && !bit (s.rd Reg.twnCtrl) 0 && s.lanes.rs == .idle

/-- The known events: pending and next triggers of periodic tasks, the next whole millisecond, WAKEAT, and for NAP the next
commit instant. -/
def State.nextEvent (s : State) (nap : Bool) : Nat :=
  let trigs := if s.eng.mode != .run then [] else s.eng.tasks.toList.flatMap fun k =>
    if k.rec'.en && k.rec'.trig == 0 then (match k.trig with | some t => [t] | none => [k.grid]) else []
  let wake := s.rd64 Reg.pwrWakeatLo
  let wakes := if wake = 0 ∨ wake < s.now then [] else [wake]
  let commits := if nap then s.eng.tasks.toList.filterMap fun k => k.act.map fun a => a.tc else []
  (trigs ++ wakes ++ commits).foldl min (nextWhole s.now 1000000)

/-- PWR.STAT.PSTATE follows the power state. -/
def State.setPower (s : State) (p : PowerState) (exit : Option Nat) : State :=
  let code := match p with
    | .doze => 1
    | .nap => 2
    | .run => 0
    | .slumber => 0
    | .hibernate => 0
  { (s.wr Reg.pwrStat (setFld (s.rd Reg.pwrStat) 0 3 code)).modPow (fun x => { x with planExit := exit }) with pstate := p }

/-- POWER_CHOOSE: the engine is idle. -/
def State.powerChoose (s : State) : State :=
  if !(s.booted && s.pstate == .run && s.engineIdle && s.eng.mode != .hold) then s else
  let n := s.nextEvent true
  let d := s.nextEvent false
  if bit (s.rd Reg.pwrCtrl) 1 ∧ s.napOk ∧ s.now + 260000 ≤ n then
    (s.count Reg.pwrNapcnt).setPower .nap (some (n - 60000))
  else if bit (s.rd Reg.pwrCtrl) 0 ∧ s.dozeOk ∧ s.now + 5000 ≤ d then
    (s.count Reg.pwrDozecnt).setPower .doze (some (d - 1000))
  else s

/-- DOZE or NAP is left: on leaving NAP the lanes form the global signature, and the channels that stood still restart. -/
def State.wakeUp (s : State) : State :=
  let was := s.pstate
  let s := s.setPower .run none
  let stood := was == .nap || (was == .doze && !bit (s.rd (Reg.clkGate 3)) 1)
  let s := if was == .nap then ((s.modLanes fun l => { l with gsMs := s.now / 1000000 }).globalVote).1 else s
  if s.safeLatch then s else
  let s := if stood then s.decStart else s
  s.opNext

end Sys2Proof.Machine
end

