-- ==== Sys2Proof/Machine/Commit.lean ====
section
/-!
DEFINITION. What the shadow instant takes from the other blocks, what a commit hands to them, and what changes with the
engine mode (spec/05_tasks_and_modes.md R134, R142 to R144, spec/04_block_library.md R122 to R129,
spec/11_train_network.md R306, spec/12_bridges.md R328, spec/18_twin_modules.md R458, R462, R464).
-/
namespace Sys2Proof.Machine

/-! ## Mailboxes as ENG sees them (R127, R128) -/

/-- The end of word-queue channel `n` from which ENG sends, and at which it receives; a channel that is none of MB0 to MB15 is
not bound to ENG (R127; DEDUCED, log entry 44). -/
def State.engSends (s : State) (n : Nat) : Option Bool :=
  if 16 ≤ n || !s.chanEn n then none else if s.midA n = 1 then some true else if s.midB n = 1 then some false else none
def State.engReceives (s : State) (n : Nat) : Option Bool :=
  if 16 ≤ n || !s.chanEn n then none else if s.midB n = 1 then some false else if s.midA n = 1 then some true else none

/-- The oldest message towards ENG. -/
def State.engHead (s : State) (n : Nat) : Option MbMsg :=
  match s.engReceives n with
  | none => none
  | some a => ((s.chan n).txq !a).head?

/-- The heads of ENG's receive queues at a shadow instant: channel, epoch, words. -/
def State.mbHeads (s : State) : List (Nat × Nat × List Word) :=
  (List.range 16).filterMap fun n => (s.engHead n).map fun m => (n, m.epoch.toNat, m.words)

/-- A message of an MBSEND is placed, or dropped whole. The receiver reset of ST bit 2 is reported once per channel, to the first
block that reports on it (R127; DESIGN CHOICE, log entry 63). -/
def State.engSend (s : State) (iref ch : Nat) (ws : List Word) : State :=
  match s.engSends ch with
  | none => s.report iref 8
  | some a =>
    let c := s.chan ch
    let rst : Nat := 4 * b2n c.engRst
    let s := s.modChan ch fun c => { c with engRst := false }
    if chanRoom ch (c.txq a) ws.length then (s.mbPush ch a ws).report iref (wd (1 + rst)) else s.report iref (wd (2 + rst))

/-- The message an MBRECV took at the shadow instant is removed, where it still stands at the head. -/
def State.engPop (s : State) (a : Act) (ch : Nat) : State :=
  match s.engHead ch, s.engReceives ch, a.mbSnap.find? fun e => e.1 == ch with
  | some m, some e, some x => if m.epoch.toNat = x.2.1 ∧ m.words = x.2.2 then s.mbPop ch e else s
  | _, _, _ => s

/-- One staged effect is carried out at the commit instant (R94, R134). A RECEV record is not a report of ENG and is not
counted by DIA. -/
def State.applyEffect (s : State) (t : Fin 8) (a : Act) : Effect → State
  | .out w v => s.pimWr (pimOpc + w) v
  | .axis ax reg v => if reg = 8 then s.presetPut ax a.tc v else s
  | .arm iref ax slot p mode en => s.armSlot iref ax slot a.tc p mode en
  | .select iref m set => s.selectSet iref m a.tc set
  | .message iref ch ws => s.engSend iref ch ws
  | .pop ch => s.engPop a ch
  | .record iref code pay =>
    let s := if iref.isSome then s else s.tally code.toNat
    s.handOver ⟨mkSource 8 t a.tsync, code, pay8 pay, a.ts, iref⟩

/-! ## After the OPC words have switched -/

/-- The output words of one kind that tasks of `due` own. -/
def State.dueOuts (s : State) (due : List (Fin 8)) (kind : Nat) : List MapE :=
  s.outMaps.filter fun m => m.kind == kind && due.any fun t => bit m.tmask t

/-- The first commit of the task that owns a telegram's words: it is sent at instants from then on (R306). -/
def State.telOpens (s : State) (t tc : Nat) : State :=
  if s.eng.telOpen.contains t then s
  else { s with eng := { s.eng with telOpen := t :: s.eng.telOpen } }.modTel t fun x => { x with sentAt := max x.sentAt (tc - 1) }

/-- The words of send buffers are written at a commit, each as a voted write (R306, spec/06_triplex_execution.md R165). -/
def State.telWrites (s : State) (tc : Nat) (tel : List WriteUpset) : List (MapE × Nat) → State
  | [] => s
  | (m, k) :: rest =>
    if s.safeLatch then s else
    let a := telSendBuf m.inst + fld m.sopt 0 6
    match s.voteWrite a (tel.getD k WriteUpset.none) with
    | (s, none) => s.telWrites tc tel rest
    | (s, some x) => ((s.votedWr a (s.pimRd (pimOpc + m.piw)) x).telOpens m.inst tc).telWrites tc tel rest

/-- TELEGRAM_COMMIT_WRITE (spec/11_train_network.md R306). -/
def State.telCommit (s : State) (due : List (Fin 8)) (tc : Nat) (tel : List WriteUpset) : State :=
  s.telWrites tc tel (s.dueOuts due 0x43).zipIdx

/-- The bytes of a send area: its OPC words, zero where none stands. -/
def State.areaOut (s : State) (a : Nat) : List Byte :=
  let ms := s.outMaps.filter fun m => m.kind == 0x45 && m.inst == a
  (List.range 64).map fun i => match ms.find? fun m => fld m.sopt 0 4 == i / 4 with
    | none => 0
    | some m => (bytesOf (bit m.sopt 8) (s.pimRd (pimOpc + m.piw))).getD (i % 4) 0

/-- SEND_AREA_RELEASE (spec/12_bridges.md R328). -/
def State.areaCommit (s : State) (due : List (Fin 8)) : State :=
  ((s.dueOuts due 0x45).map fun m => m.inst).eraseDups.foldl (fun s a => s.bridgeMsg 6 a (s.areaOut a)) s

/-- The commit digest of a task (spec/18_twin_modules.md R464): PIW, 16 bits, and value of each word, most significant bit
first. -/
def State.digest (s : State) (t : Fin 8) : Dword :=
  let own := s.outMaps.filter fun m => bit m.tmask t
  let ps := (own.map fun m => m.piw).mergeSort
  crcMsb (0x42f0e1eba9ea3693 : Dword) 0 (ps.flatMap fun p => bitsMsb p 16 ++ bitsMsb (s.pimRd (pimOpc + p)).toNat 32)

/-- A digest of the active unit is compared with the standby's own. -/
def State.cmpJudge (s : State) (t : Fin 8) (own peer : Dword) : State :=
  if own = peer then s.modTwn fun x => { x with mmRun := Vec.upd x.mmRun t fun _ => 0 } else
  let s := s.modTwn fun x => { x with mmRun := Vec.upd x.mmRun t (· + 1) }
  let s := ((s.count Reg.twnMmcnt).evt 0x39 4).raise 0x3903 [wd t]
  if fld (s.rd Reg.twnMmlim) 0 5 ≤ s.twn.mmRun[t] then s.twnUnfit else s

/-- The digest is sent by the ACTIVE unit, and compared or kept by the STANDBY one (R464). -/
def State.cmpCommit (s : State) (t : Fin 8) : State :=
  let n := s.pimRd (pimSysv t + 1)
  if s.twn.role = .active then
    s.emit (.twin (twinFrame ([5, BitVec.ofNat 8 t] ++ bytesLE n 4 ++ bytesLE (s.digest t) 8)))
  else if s.twn.role = .standby then
    match s.twn.cmpRx.find? fun e => e.1 == t && e.2.1 == n with
    | some e => (s.modTwn fun x => { x with cmpRx := x.cmpRx.filter fun e => e.1 != t }).cmpJudge t (s.digest t) e.2.2
    | none => s.modTwn fun x => { x with cmpOwn := (t, n, s.digest t) :: x.cmpOwn.filter fun e => e.1 != t }
  else s

/-- What follows the switch of the OPC words: command bits and enable latches, HOLDOFF, telegrams, send areas, digests. -/
def State.afterCommits (s : State) (due : List (Fin 8)) (tc : Nat) (tel : List WriteUpset) : State :=
  let s := (((s.lcrCommit due).holdoffClear).telCommit due tc tel).areaCommit due
  due.foldl (fun s t => s.cmpCommit t) s

/-! ## Engine modes -/

/-- A start command is accepted: the engine tree runs on a PLL (spec/16_clocks_and_power.md R411), and neither an activation
nor an entry into SLUMBER or HIBERNATE is in progress. -/
def State.startAllowed (s : State) : Bool := s.imgRun && s.engSrc != 2 && s.upd.st != .activating && s.pow.sleep.isNone

/-- The engine enters RUN: a decimation test ends, a guard test pending is recorded, a twin unit takes the role WAIT
(spec/10_decimation.md R281, spec/08_reflex_and_reaction.md R235, spec/18_twin_modules.md R458, R464). -/
def State.twinRun (s : State) : State := if s.twnEn ∧ s.twn.role ≠ .unfit then s.twnWait else s
def State.enteredRun (s : State) : State := s.sdiStart.decTestEnd.guardPending.twinRun

/-- The engine has come to STOP; an overrun makes a standby UNFIT (R464). -/
def State.enteredStop (s : State) (overrun : Bool) : State := (if overrun then s.sdiStart.twnUnfit else s.sdiStart).powerChoose

end Sys2Proof.Machine
end

