-- ==== Sys2Proof/Machine/Tasks.lean ====
section
/-!
DEFINITION. Tasks, the cycle and the engine modes: triggers, admission and freeze, the shadow copy, dispatch and
preemption, segments, completion, commit and overrun, start and stop, HOLD and stepping (spec/05_tasks_and_modes.md).
-/
namespace Sys2Proof.Machine

/-! ## Forces (R147 to R150) -/

/-- A force entry: TAGID, ELEM, EN, VALUE, ACTIVE, ORPHAN. -/
structure Force where
  tag    : Word
  elem   : Nat
  en     : Bool
  value  : Word
  flags  : Word
deriving DecidableEq, Repr

def State.force (s : State) (i : Nat) : Force :=
  let w1 := s.pimRd (pimForce + 4 * i + 1)
  ⟨s.pimRd (pimForce + 4 * i), fld w1 0 16, bit w1 16, s.pimRd (pimForce + 4 * i + 2), s.pimRd (pimForce + 4 * i + 3)⟩

/-- The tag entry a force names, if it is forceable and has the element (R148); under a sealed image no tag is forceable
(spec/03_program_image.md R91). -/
def State.forceTag (s : State) (f : Force) : Option Tag :=
  s.tags.find? fun t => t.id == f.tag && t.forceable && !s.imgSealed && decide (f.elem < t.count)

/-- The forces in force: word reference, bit and value of each entry in use that is no orphan. -/
def State.forces (s : State) : List (Nat × Option Nat × Word) :=
  if !s.imgRun || s.imgSealed then [] else
  (List.range 256).filterMap fun i =>
    let f := s.force i
    if f.en && !bit f.flags 1 then
      (s.forceTag f).map fun t => let e := t.elem f.elem; (e.1, e.2, if e.2.isSome then f.value else tyExt t.dtype f.value)
    else none

/-- The descriptors of a task, in the order of its segments. -/
def State.taskDescs (s : State) (t : Nat) : List Nat :=
  let r := s.taskRecAt t
  if !r.en then [] else
  (List.range r.segCount).flatMap fun i =>
    let g := s.seg (r.segFirst + i)
    (List.range g.2.1).map fun k => g.1 + k

/-- The word is instance data of the block at descriptor `d`. -/
def State.holdsWord (s : State) (d w : Nat) : Bool :=
  match blockOf (fld (s.pimRd (s.descAt d)) 0 12) with
  | none => false
  | some b => decide (b.words ≠ 0 ∧ s.irefAt d ≤ w ∧ w ≤ s.irefAt d + b.words)

/-- A block or COND of the task reads or writes a word by its reference, or as instance data. -/
def State.taskTouches (s : State) (t ref : Nat) : Bool :=
  ((s.taskDescs t).any fun d => s.holdsWord d ref || (s.slotsOf d).any fun w => slotRef w == ref) ||
    (let r := s.taskRecAt t
     r.en && (List.range r.segCount).any fun i => slotRef (s.seg (r.segFirst + i)).2.2 == ref)

/-- The reference of an IN word and of an OUT word. -/
def refIn (w : Nat) : Nat := 0xa00000 + w
def refOut (w : Nat) : Nat := 0xb00000 + w

/-! ## Grid and triggers (R130 to R133) -/

/-- No on-line change is under way. -/
def State.noChange (s : State) : Bool := s.eng.change == .none

/-- A grid instant of a periodic task arrives: it becomes the pending trigger, and the grid moves on (R131). A STANDBY unit
takes its triggers from the active one (spec/18_twin_modules.md R462). -/
def execTaskPeriodicTrigger (t : Fin 8) (s : State) : Answer :=
  let k := s.task t
  let own := s.twn.role != .standby
  if own && s.alive && s.eng.mode == .run && s.noChange && k.rec'.en && k.rec'.trig == 0 && k.trig.isNone && decide (k.grid ≤ s.now)
  then .next (s.modTask t fun k => { k with trig := some k.grid, grid := k.grid + 1000 * k.rec'.period })
  else .next s

/-- The time step of an activation (R106) and its EPERIOD (R154), in µs. -/
def Task.step (k : Task) (ts : Nat) : Nat × Nat :=
  let since : Nat := match k.lastShad with | none => 0 | some l => ts / 1000 - l / 1000
  let eper := if k.firstLoad || k.zeroDt then k.rec'.period
    else if k.rec'.trig = 0 then (k.defers + 1) * k.rec'.period
    else since
  let dt := if k.firstLoad || k.zeroDt then 0
    else if k.afterHold then (if k.rec'.trig = 0 then eper else 0)
    else since
  (min dt 2147483647, eper)

/-- An admitted trigger starts an activation (R134): the system variables are fixed and the freeze is taken. -/
def State.startAct (s : State) (t : Fin 8) (ts : Nat) (est : Option Nat) : State :=
  let k := s.task t
  let (dt, eper) := k.step ts
  let v := pimSysv t
  let cnt := s.pimRd (v + 1) + 1
  let s := (((((s.pimWr v (wd t)).pimWr (v + 1) cnt).pimWr (v + 2) (loN ts)).pimWr (v + 3) (hiN ts)).pimWr (v + 6) (wd eper))
  let s := (s.wr (Reg.tskTact t) cnt).wr (Reg.tskTperiod t) (wd eper)
  let s := if k.rec'.trig = 3 then
      let b := Reg.dblDb 1
      s.wr b (setBit (s.rd b) (k.rec'.tsrc % 32) false)
    else s
  let a : Act := { ts := ts, tc := ts + k.rec'.commitNs, dt := dt, eper := eper, stage := .copying, pos := .cond 0, pe := 0
                   est := est, staged := [], saved := [], axSnap := s.axisSnap, mbSnap := s.mbHeads, rep := s.eng.reports
                   tsync := s.synced, frc := s.forces, sig := 0, sigDev := Tri.none, pipe := Vector.replicate 3 Pipe.zero }
  let s := s.modTask t fun k => { k with trig := none, lastShad := some ts, notBefore := ts + 1000 * k.rec'.period, defers := 0,
                                         firstLoad := false, zeroDt := false, afterHold := false, act := some a }
  if s.twn.role = .active then
    s.emit (.twin (twinFrame ([3, BitVec.ofNat 8 t] ++ natBytesLE ts 8 ++ natBytesLE eper 4)))
  else s

/-! ### A STANDBY unit's activations (spec/18_twin_modules.md R462) -/

/-- One mirrored word is applied; `ts` is the active unit's shadow instant, and fresh times stand MLAG later here. -/
def State.mirPut (s : State) (ts : Nat) (m : Mir) : State :=
  let age := (wd (ts / 1000) - m.fresh).toNat
  s.ipiSet m.piw m.value (wd (0x80000000 * b2n m.qual + 0x40000000 * b2n m.subst)) (ts / 1000 * 1000 + s.mlag + 1 - 1000 * age)

/-- A frame is stamped at or before `ts`. -/
def Mir.before (m : Mir) (ts : Nat) : Bool := decide ((wd (ts / 1000) - m.fresh).toNat < 2 ^ 31)

/-- Every frame stamped at or before the active unit's `ts` is applied, in order of arrival. -/
def State.mirApply (s : State) (ts : Nat) : State :=
  let now := s.twn.mir.filter fun m => m.before ts
  (now.foldl (fun s m => s.mirPut ts m) s).modTwn fun x => { x with mir := x.mir.filter fun m => !m.before ts }

/-- The activation of an admitted trigger of the active unit, MLAG later, with its EPERIOD. -/
def State.mirrorAct (s : State) (t : Fin 8) (ts : Nat) : State :=
  let at' := ts - s.mlag
  let s := (s.mirApply at').startAct t ts none
  match s.twn.trgs.find? fun g => g.task == t && g.ts == at' with
  | none => s
  | some g =>
    let s := (s.pimWr (pimSysv t + 6) g.eper).wr (Reg.tskTperiod t) g.eper
    let s := (s.modAct t fun a => { a with eper := g.eper.toNat }).modTwn fun x => { x with trgs := x.trgs.filter fun h => h != g }
    match s.twn.trgs.find? fun h => h.task == t with
    | none => s
    | some h => s.modTask t fun k => { k with trig := some (h.ts + s.mlag) }

/-- A deferrable trigger that the governor does not admit (R154): counted; a periodic task waits for its next grid point,
a triggered one is retried after PERIOD. -/
def State.deferAct (s : State) (t : Fin 8) (ts : Nat) : State :=
  let d := Reg.tskTdefer t
  let s := (s.wr d (satIncFld (s.rd d) 16 16)).evt 9 (wd (2 ^ (16 + t.val)))
  s.modTask t fun k => { k with defers := k.defers + 1,
                                trig := if k.rec'.trig = 0 then none else some (ts + 1000 * k.rec'.period) }

/-- One pending trigger is admitted or deferred. -/
def State.admitOne (s : State) (ts : Nat) (t : Fin 8) : State :=
  let k := s.task t
  if k.trig != some ts || k.act.isSome then s
  else if s.twn.role = .standby then s.mirrorAct t ts
  else if t.val < 4 then s.startAct t ts none
  else
    let pes := if k.firstLoad then k.rec'.wcpe else (s.pimRd (pimSysv t + 5)).toNat
    let forced := decide (k.rec'.stretch ≤ k.defers + 1)
    let cost := s.peCost pes
    if decide ((cost : Int) ≤ s.tokBal) || forced then (s.deduct cost).startAct t ts (some cost)
    else s.deferAct t ts

/-- The earliest pending trigger instant of a task without an activation in progress (R133). -/
def State.firstTrig (s : State) : Option Nat :=
  (s.eng.tasks.toList.filterMap fun k => if k.act.isSome then none else k.trig).min?

/-- The earliest pending trigger instant, when it may be admitted: reached, and no commit due at or before it waits (R136). -/
def State.admitAt (s : State) : Option Nat :=
  if !(s.alive && s.eng.mode == .run && s.noChange && s.pstate == .run && s.pimc.retry.isNone) then none else
  match s.firstTrig with
  | none => none
  | some ts =>
    if s.now < ts then none else
    match s.firstCommit with
    | none => some ts
    | some tc => if tc ≤ ts then none else some ts

/-- TRIGGER_ADMIT: every trigger pending for the earliest instant is admitted, in task order, with one freeze (R134, R136). -/
def execTriggerAdmit (s : State) : Answer :=
  match s.admitAt with
  | none => .next s
  | some ts => .next ((List.finRange 8).foldl (fun s t => s.admitOne ts t) s)

/-! ## The shadow image (R134, R136, R150) -/

/-- The status word with AGE at the shadow instant; `f` is the fresh instant plus one, 0 for none (R74). -/
def ageOf (ts : Nat) (st : Word) (f : Nat) : Word :=
  let age := if f = 0 then 0xffffff else if ts < f then 0 else satNat 0xffffff ((ts - (f - 1)) / 1000)
  setFld st 0 24 age

/-- One word is copied into a task's shadow image, and a force on it is applied. -/
def State.copyWord (s : State) (t : Fin 8) (a : Act) (n : Nat) : State :=
  let (v, st, f) := match a.saved.find? fun e => e.1 == n with
    | some e => e.2
    | none => (s.pimRd (pimIpi + n), s.pimRd (pimIst + n), s.fresh n)
  (s.pimWr (pimShadow t + n) (forced a.frc (refIn n) v)).pimWr (pimShadowSt t + n) (ageOf a.ts st f)

/-- The write requests of the forced PIM-space words that the task's blocks read or write (R150). -/
def State.forceReqs (s : State) (t : Fin 8) (a : Act) : List WriteReq :=
  (((a.frc.map fun f => f.1).eraseDups).filter fun w => refPim w && s.taskTouches t w).map fun w => .inst w (s.pimRd w)

/-- An activation begins or resumes in the lanes: its pipe registers begin at zero (DEDUCED from the load of
spec/06_triplex_execution.md R177; log entry 51), or are those of its context (R140). -/
def State.startRun (s : State) (t : Fin 8) : State :=
  match (s.task t).act with
  | none => s
  | some a =>
    let pipe (l : Fin 3) : Pipe :=
      if a.stage ≠ .ready then a.pipe[l] else if s.lanes.runs l then Pipe.zero else s.lanes.pipe[l]
    let s := s.modLanes fun x => { x with pipe := Vector.ofFn pipe }
    let s := s.modAct t fun a => { a with stage := .running }
    { s with eng := { s.eng with running := some t } }

/-- The running activation is preempted: its context keeps the pipe registers (spec/06_triplex_execution.md R163). -/
def State.preempt (s : State) (t : Fin 8) : State := s.modAct t fun a => { a with stage := .preempted, pipe := s.lanes.pipe }

/-- The highest-priority activation that is ready or preempted. -/
def State.nextReady (s : State) : Option (Fin 8) :=
  (List.finRange 8).find? fun t => match (s.task t).act with
    | none => false
    | some a => a.stage == .ready || a.stage == .preempted

/-- Dispatch and preemption at a block boundary (R140); the lanes halted for an operating-point change dispatch nothing
(spec/16_clocks_and_power.md R417). -/
def State.dispatch (s : State) : State :=
  if s.eng.mode ≠ .run then s else
  match s.nextReady, s.eng.running with
  | none, _ => s
  | some t, none => if s.opHalts then s else s.startRun t
  | some t, some r => if t.val < r.val then (s.preempt r).startRun t else s

/-- The input map entries of a task. -/
def State.inputsOf (s : State) (t : Nat) : List MapE := s.maps.filter fun m => !m.out && bit m.tmask t

/-- The lines that the copier reads for task `t`. -/
def State.copyLines (s : State) (t : Nat) : List Nat :=
  ((s.inputsOf t).flatMap fun m => [(pimIpi + m.piw) / 8, (pimIst + m.piw) / 8]).eraseDups

/-- SHADOW_COPY_DONE (R134): the image of task `t`, the first one still being copied, is complete, and the task is ready. -/
def execShadowCopyDone (t : Fin 8) (s : State) : Answer :=
  match (s.task t).act with
  | none => .next s
  | some a =>
    let earlier := (List.finRange 8).any fun j => decide (j.val < t.val) && (match (s.task j).act with
      | none => false
      | some b => b.stage == .copying)
    if s.alive && a.stage == .copying && !earlier && s.eng.mode != .stop && s.pimc.retry.isNone then
      match s.linesCheck 1 (s.copyLines t) with
      | (s, false) => .next s
      | (s, true) =>
        let s := (s.inputsOf t).foldl (fun s m => s.copyWord t a m.piw) s
        .next (s.modAct t fun a => { a with stage := .ready, saved := [] }).dispatch
    else .next s

/-! ## Segments and completion (R134, R137, R139, R158) -/

/-- Where a COND of segment `i` leads. -/
def State.afterCond (s : State) (t : Fin 8) (i : Nat) (scan : Bool) : Pos :=
  if scan then .desc i 0 else if i + 1 < (s.task t).rec'.segCount then .cond (i + 1) else .done

/-- The COND slot of segment `i` of a task, and the PIM word address of the segment's entry. -/
def State.condAt (s : State) (t : Fin 8) (i : Nat) : Word × Nat :=
  let k := (s.task t).rec'.segFirst + i
  ((s.seg k).2.2, s.secAt 2 + 72 + 4 * k)

/-- The lines read for a COND: those of the segment's entry and of the word it names. -/
def condLines (c : Word × Nat) : List Nat :=
  linesOf c.2 4 ++ (if c.1 ≠ 0 ∧ refPim (slotRef c.1) then [slotRef c.1 / 8] else [])

/-- A segment's COND is read at 1 PE; `x` disturbs the address (R137). -/
def State.evalCond (s : State) (t : Fin 8) (a : Act) (i x extra : Nat) : State :=
  let c := (s.condAt t i).1
  let v := if c = 0 then 1 else s.readSlot t a c tBOOL x
  let s := s.modAct t fun a => { a with pos := s.afterCond t i (bit v 0) }
  (s.modAct t fun a => a.sigAll [wd (s.condAt t i).2, c, v]).addPe t (1 + extra)

/-- The reads of COND number `j` of a command: the segment's entry, and the word it names. -/
def condReads (c : Word × Nat) (j : Nat) (u : Upset) : List (Nat × Tri) :=
  (c.2, u.rd.getD (16 + 2 * j) Tri.none) :: if c.1 = 0 then [] else [(slotAddr c.1, u.rd.getD (17 + 2 * j) Tri.none)]

/-- The running activation stands at segment `i`: before the first, the lanes write the forced variables (R150); then the
segment's entry and its COND are read, checked and voted on (spec/06_triplex_execution.md R162, R165). `j` counts the CONDs
of one command. -/
def State.runCond (s : State) (t : Fin 8) (a : Act) (i j : Nat) (u : Upset) (e : PimErr) : State :=
  let c := s.condAt t i
  match s.pimCheck 1 (condLines c) e with
  | (s, false) => s
  | (s, true) =>
    let s := if i = 0 then s.doReqs t a c.2 u (s.forceReqs t a).zipIdx else s
    if s.safeLatch then s else
    match s.voteReads (condReads c j u) with
    | (s, none) => s
    | (s, some xs) => s.evalCond t a i (xs.getD 1 0 ^^^ pimEscape e) u.extraPe

/-- SEGMENT_COND: the running activation stands at a segment. -/
def execSegmentCond (u : Upset) (s : State) : Answer :=
  if !s.engineRuns .run then .next s else
  match s.runAct with
  | none => .next s
  | some (t, a) => match a.pos with
    | .cond i => .next (s.runCond t a i 0 u u.pim)
    | .desc _ _ => .next s
    | .done => .next s

/-- The final sweep of the task signatures (spec/06_triplex_execution.md R171): context and pipe words enter; `d` is what a
disturbance changes in the lanes' contexts. The deviations of the lanes, and the signatures of those that execute. -/
def State.sweep (s : State) (t : Fin 8) (a : Act) (d : Tri) : Tri × Tri :=
  let dev (x y : Dword) (l : Fin 3) : Dword := s.lanes.pipe[l].devSig (x ^^^ y)
  let ds : Tri := ⟨dev a.sigDev.a d.a 0, dev a.sigDev.b d.b 1, dev a.sigDev.c d.c 2⟩
  let all := sigWords a.sig (a.words t ++ List.replicate 256 0)
  let one (l : Fin 3) (old x : Dword) : Dword := if s.lanes.runs l then all ^^^ (s.lanes.pipe[l]).sigPart ^^^ x else old
  (ds, ⟨one 0 s.lanes.sig.a ds.a, one 1 s.lanes.sig.b ds.b, one 2 s.lanes.sig.c ds.c⟩)

/-- The time left to the commit instant; in HOLD, where the commit instants are suspended, that at H (R146, R158; DEDUCED, log
entry 53). -/
def State.slackOf (s : State) (a : Act) : Nat := a.tc - (if s.eng.mode = .hold then s.eng.holdAt else s.now)

/-- Completion (R134): the signatures are compared, LASTPE is written, the slack is judged, the governor settles. -/
def State.completeAct (s : State) (t : Fin 8) (a : Act) (sig : Tri) : State :=
  let w := s.sweep t a sig
  match (s.modLanes fun x => { x with sig := w.2 }).vote 3 0 w.1 with
  | (s, none) => s
  | (s, some _) =>
    let s := (s.pimWr (pimSysv t + 5) (wd a.pe)).wr (Reg.tskTlastpe t) (wd a.pe)
    let s := if (s.rd (Reg.tskTmaxpe t)).toNat < a.pe then s.wr (Reg.tskTmaxpe t) (wd a.pe) else s
    let slack := s.slackOf a
    let us := satNat 0xffffffff (slack / 1000)
    let s := if us < (s.rd (Reg.tskTslack t)).toNat then s.wr (Reg.tskTslack t) (wd us) else s
    let warn := fld (s.rd (Reg.tskTwarn t)) 0 24
    let s := if slack < 1000 * warn then (s.evt 9 (wd (2 ^ t.val))).raise 0x0901 [] else s
    let s := match a.est with
      | none => s
      | some e => s.govSettle e a.pe
    let s := s.modAct t fun a => { a with stage := .complete }
    { s with eng := { s.eng with running := none } }

/-- ACTIVATION_COMPLETE: the last block has retired; the next activation is dispatched, or the idle engine may doze. -/
def execActivationComplete (sig : Tri) (s : State) : Answer :=
  if !s.engineRuns .run then .next s else
  match s.runAct with
  | none => .next s
  | some (t, a) => match a.pos with
    | .done => .next ((s.completeAct t a sig).dispatch.powerChoose)
    | .cond _ => .next s
    | .desc _ _ => .next s

/-! ## Commit and overrun (R134 to R136, R141) -/

/-- The activations due at `tc`, in task order. -/
def State.dueAt (s : State) (tc : Nat) : List (Fin 8) :=
  (List.finRange 8).filter fun t => match (s.task t).act with
    | none => false
    | some a => a.tc == tc

/-- One completed activation commits: OPC words switch, the rest is handed over in scan order; a force on an OUT word of
the task wins, in the lanes' LCRs too (R134, R150, spec/06_triplex_execution.md R166). -/
def State.commitAct (s : State) (t : Fin 8) : State :=
  match (s.task t).act with
  | none => s
  | some a =>
    let frc := s.forces
    let s := a.staged.foldl (fun s e => match e with
      | .out w v => s.pimWr (pimOpc + w) v
      | e => s.applyEffect t a e) s
    let own := s.outMaps.filter fun m => bit m.tmask t
    let s := own.foldl (fun s m => match frc.find? fun f => f.1 == refOut m.piw with
      | none => s
      | some _ =>
        let v := forced frc (refOut m.piw) (s.pimRd (pimOpc + m.piw))
        (s.pimWr (pimOpc + m.piw) v).lcrStage m.piw v Tri.none) s
    s.modTask t fun k => { k with act := none }

/-- The overrun of R141: task `k` is the lowest whose activation is incomplete at `tc`. -/
def State.overrun (s : State) (tc : Nat) (bad : List (Fin 8)) : State :=
  match bad with
  | [] => s
  | k :: _ =>
    let mask := bad.foldl (fun m t => m + 2 ^ t.val) 0
    ((s.stopAt tc (some k.val)).enteredStop true).raiseI 0x0801 k [wd k, wd mask]

/-- The committed half of a joining lane's LCR has been loaded (spec/06_triplex_execution.md R177). -/
def Lanes.k0Loaded (l : Lanes) : Bool :=
  match l.rs with
  | .k0 _ => true
  | .agreed _ _ => true
  | .idle => false
  | .reset _ => false
  | .engine _ => false

/-- The LCR cross-check at a commit (spec/06_triplex_execution.md R165, R167): the committed bits of every lane that counts
against the voted OPC words; `d` flips bits of the LCRs before it. -/
def State.lcrCheck (s : State) (d : Tri) : State :=
  let flip (l : Fin 3) : BitVec 20 := s.lanes.lcr[l] ^^^ (triLane d l).truncate 20
  let s := s.modLanes fun x => { x with lcr := Vector.ofFn flip }
  let s' := match s.lanes.counting.filter fun (l : Fin 3) => s.lanes.lcr[l] != s.lcrOfOpc with
    | [] => s
    | [l] => s.laneOdd l 6 0
    | _ => s.noMajority 6 0
  if s'.safeLatch || !s'.lanes.k0Loaded then s' else s'.joinCheck 0 fun l => Vec.at s'.lanes.lcr l 0 != s'.lcrOfOpc

/-- The lines that the commit unit reads: the OPS words that were staged, and the output words that go to send buffers and
bridge areas. -/
def State.commitLines (s : State) (due : List (Fin 8)) : List Nat :=
  ((due.flatMap fun t => match (s.task t).act with
    | none => []
    | some a => a.staged.filterMap fun e => match e with
      | .out w _ => some ((pimOps + w) / 8)
      | _ => none) ++ (s.dueOuts due 0x43 ++ s.dueOuts due 0x45).map (fun m => (pimOpc + m.piw) / 8)).eraseDups

/-- COMMIT: at the earliest commit instant reached, every activation due commits, or the watchdog stops the engine; with the
engine tree on the TCXO it stops whether or not they have completed (spec/16_clocks_and_power.md R411). A PIM retry holds back
the commits, but not the watchdog, which stands in the K0 domain (R141). -/
def execCommit (lcr : Tri) (s : State) (tel : List WriteUpset := []) : Answer :=
  if !(s.alive && s.eng.mode == .run && s.eng.change.isPausing == false) then .next s else
  match s.firstCommit with
  | none => .next s
  | some tc =>
    if s.now < tc then .next s else
    let due := s.dueAt tc
    let bad := due.filter fun t => match (s.task t).act with
      | none => false
      | some a => a.stage != .complete
    if s.engSrc = 2 then .next (((s.stopAt tc (due.head?.map fun t => t.val)).enteredStop true).raise 0x0203 [])
    else if bad ≠ [] then .next (s.overrun tc bad)
    else if s.pimc.retry.isSome then .next s
    else match s.linesCheck 1 (s.commitLines due) with
      | (s, false) => .next s
      | (s, true) => .next (((due.foldl (fun s t => s.commitAct t) s).afterCommits due tc tel).lcrCheck lcr)

/-! ## Start and stop (R131, R142 to R144) -/

/-- The task epoch: the first whole millisecond at least 100 µs after `t` (R131). -/
def epochAfter (t : Nat) : Nat := wholeAtOrAfter (t + 100000) 1000000

/-- The engine enters RUN at `t`: the epoch and the grids are fixed, every first Δt is 0; the reflex conditions OVR and STOPCMD
end (spec/08_reflex_and_reaction.md R231). -/
def State.enterRun (s : State) (t : Nat) : State :=
  let e := epochAfter t
  let s := (s.setMode .run).setMState .run
  let s := { s with rfx := { s.rfx with ovr := false, stopc := false } }
  let s := ((s.wr64 Reg.engEpochLo e).evt 8 1)
  let tasks := s.eng.tasks.map fun k =>
    { k with grid := e + 1000 * k.rec'.phase, trig := none, zeroDt := true, afterHold := false, defers := 0, act := none }
  { s with eng := { s.eng with tasks := tasks, telOpen := [] } }.enteredRun

/-- A host write to ENG.CTRL (R142 to R144): accepted at the next whole microsecond, or refused with CMDREF. -/
def State.engCtrlWrite (s : State) (pf : Pf) (v : Word) : State :=
  if pf = .pf1 || s.sealRo 8 then s.refuse 8
  else if bit v 0 then
    if s.mstate == .stop && s.noChange && s.startAllowed then s.enterRun (nextWhole s.now 1000) else s.evt 8 8
  else if s.mstate == .run then (s.stopAt (nextWhole s.now 1000) none).enteredStop false
  else s.evt 8 8

def execStartCommand (pf : Pf) (s : State) : Answer :=
  if s.booted then .next (s.engCtrlWrite pf 1) else .next s
def execStopCommand (pf : Pf) (s : State) : Answer :=
  if s.booted then .next (s.engCtrlWrite pf 0) else .next s

/-! ## HOLD and breakpoints (R145, R146, R160) -/

/-- DBG.HSTAT and HDESC show the halted block, or nothing. -/
def State.showHalt (s : State) : State :=
  match s.eng.halted with
  | none => (s.wr Reg.dbgHstat 0).wr Reg.dbgHdesc 0
  | some (t, d) => (s.wr Reg.dbgHstat (wd (t.val + 0x80000000))).wr Reg.dbgHdesc (wd d)

/-- The lanes reach a breakpoint: HOLD from t_h; with a sealed image only HOLDREF. -/
def execBreakpointHalt (s : State) : Answer :=
  if !s.engineRuns .run then .next s else
  match s.nextBlock with
  | none => .next s
  | some (t, _, d) =>
    if !s.isBp d || s.eng.passed == some (t, d) then .next s
    else if s.imgSealed then .next (s.evt 13 2)
    else
      let s := (s.setMode .hold).setMState .hold
      let s := { s with eng := { s.eng with halted := some (t, d), holdAt := wholeAtOrAfter s.now 1000 } }
      .next ((s.showHalt.evt 13 1).desync)

/-- A DBG command that does not fit: HOLDREF, and WREFUSED where the page is read-only (R160). -/
def State.holdRef (s : State) : State := s.evt 13 2

/-- The guard of the DBG commands: the state after a refusal, or none where the command is carried out. -/
def State.dbgRefuses (s : State) (pf : Pf) : Option State :=
  if pf = .pf1 then some (s.refuse 13)
  else if s.sealRo 13 then some ((s.refuse 13).holdRef)
  else if s.eng.mode ≠ .hold then some s.holdRef
  else none

/-- The instants of a task shifted at a resume (R146). A pending triggered task triggers at R, held back by PERIOD still, and
where an activation of it goes on, from a previous trigger that has moved with its commit instant (R133; DEDUCED, log entry
54). -/
def Task.resume (k : Task) (h r : Nat) : Task :=
  let d := r - h
  { k with
    grid := k.grid + d
    notBefore := if k.act.isSome then k.notBefore + d else k.notBefore
    trig := k.trig.map fun t => if k.rec'.trig = 0 then t + d else max r (if k.act.isSome then k.notBefore + d else k.notBefore)
    afterHold := true
    act := k.act.map fun a => { a with tc := if h ≤ a.tc then a.tc + d else a.tc } }

/-- DBG.CMD 0x1: resume at the next whole microsecond. -/
def State.holdResume (s : State) (pf : Pf) : State :=
  match s.dbgRefuses pf with
  | some s' => s'
  | none =>
    let r := nextWhole s.now 1000
    let s := (s.setMode .run).setMState .run
    let s := { s with eng := { s.eng with
      tasks := s.eng.tasks.map fun k => Task.resume k s.eng.holdAt r, passed := s.eng.halted, halted := none } }
    s.showHalt.sdiStart.twinRun.dispatch

def execHoldResume (pf : Pf) (s : State) : Answer := if !s.booted then .next s else .next (s.holdResume pf)

/-- The activation runs on over CONDs to its next block or its end, or up to a fault or a retry; `j` counts the CONDs. -/
def State.skipConds (s : State) (t : Fin 8) (u : Upset) (j : Nat) : Nat → State × Nat
  | 0 => (s, j)
  | n + 1 =>
    if s.safeLatch || s.pimc.retry.isSome then (s, j) else
    match (s.task t).act with
    | none => (s, j)
    | some a => match a.pos with
      | .cond i => (s.runCond t a i j { u with wr := [], extraPe := 0 } PimErr.none).skipConds t u (j + 1) n
      | .desc _ _ => (s, j)
      | .done => (s, j)

/-- One block of task `t` is executed, and the lanes halt before the next of the same activation (R146). -/
def State.stepBlock (s : State) (t : Fin 8) (u : Upset) : State :=
  let r := s.skipConds t u 0 4097
  let s := r.1
  if s.safeLatch || s.pimc.retry.isSome then s else
  let s := match (s.task t).act with
    | none => s
    | some a => match s.descOf t a with
      | none => s
      | some d => match blockOf (fld (s.pimRd (s.descAt d)) 0 12) with
        | none => s
        | some b => s.runBlock b t a d u
  let s := (s.skipConds t u r.2 4097).1
  if s.safeLatch || s.pimc.retry.isSome then s else
  match (s.task t).act with
  | none => s
  | some a =>
    let s := match s.descOf t a with
      | some d => { s with eng := { s.eng with halted := some (t, d) } }
      | none =>
        let s := s.completeAct t a Tri.none
        { s with eng := { s.eng with halted := none } }
    if s.safeLatch then s else s.showHalt.evt 13 4

/-- DBG.CMD 0x2: a step. -/
def State.holdStep (s : State) (pf : Pf) (u : Upset) : State :=
  match s.dbgRefuses pf with
  | some s' => s'
  | none =>
    match s.eng.halted with
    | some (t, _) => s.stepBlock t u
    | none => match s.nextReady with
      | none => s.holdRef
      | some t => (s.startRun t).stepBlock t u

def execHoldStep (pf : Pf) (u : Upset) (s : State) : Answer :=
  if !s.booted || s.pimc.retry.isSome then .next s else .next (s.holdStep pf u)

/-- DBG.CMD 0x3: stop from HOLD, as a stop command. -/
def State.holdStop (s : State) (pf : Pf) : State :=
  match s.dbgRefuses pf with
  | some s' => s'
  | none => ((s.stopAt (nextWhole s.now 1000) none).enteredStop false).showHalt

def execDbgStop (pf : Pf) (s : State) : Answer := if !s.booted then .next s else .next (s.holdStop pf)

/-- CHANGE_PAUSE_BEGIN (R152): the last activation in progress has committed. -/
def execChangePauseBegin (s : State) : Answer :=
  match s.eng.change with
  | .waiting w =>
    if s.alive && s.eng.tasks.toList.all (fun k => k.act.isNone) then
      .next (({ s with eng := { s.eng with change := .pausing s.now w } }).desync)
    else .next s
  | .none => .next s
  | .pausing _ _ => .next s

end Sys2Proof.Machine
end

