-- ==== Sys2Proof/Machine/Clocks.lean ====
section
/-!
DEFINITION. Clock sources and their loss, the real-time clock, operating-point changes, the governor's measurements, and the
exits from DOZE and NAP (spec/16_clocks_and_power.md R407 to R422).
-/
namespace Sys2Proof.Machine

/-- Bits of CLK.STAT and PLLs (R428). -/
def State.setClk (s : State) (b : Nat) (v : Bool) : State := s.wr Reg.clkStat (setBit (s.rd Reg.clkStat) b v)
def pllIsB : Pll → Bool
  | .a => false
  | .b => true
def State.setPll (s : State) (b ready : Bool) : State := s.setClk (if b then 4 else 3) ready
def State.fixLock (s : State) : Bool := bit (s.rd Reg.clkStat) 8

/-- Both trees, or the fixed tree alone, run on a PLL. -/
def State.fixTo (s : State) (b : Bool) : State := (s.setClk 5 b).setClk 8 true
def State.engTo (s : State) (b : Bool) : State := s.wr Reg.clkStat (setFld (s.rd Reg.clkStat) 6 2 (b2n b))

/-- The two halves of CLK.SWCNT. -/
def State.countSw (s : State) (lo : Nat) : State := s.wr Reg.clkSwcnt (satIncFld (s.rd Reg.clkSwcnt) lo 16)

/-- PLL_LOCK_LOST (R410, R411). -/
def execPllLockLost (p : Pll) (s : State) : Answer :=
  let b := pllIsB p
  if !s.alive then .next s
  else if b = s.fixB then
    if !s.fixLock then .next s
    else if s.pllRdy (!b) then
      let t := (((((s.setPll b false).fixTo (!b)).engTo (!b)).countSw 0).evt 2 1).raise 0x0201 []
      .next (s.degrAfter t.rsmpStart)
    else
      let t := (s.setPll b false).setClk 8 false
      .next ((((t.wr Reg.clkStat (setFld (t.rd Reg.clkStat) 6 2 2)).countSw 16).evt 2 4).raise 0x0203 [])
  else if s.pllRdy b then
    .next (s.degrAfter (((s.setPll b false).evt 2 2).raise 0x0202 []))
  else .next s

/-- PLL_READY (R407, R410, R411). -/
def execPllReady (p : Pll) (s : State) : Answer :=
  let b := pllIsB p
  if !s.alive || s.bootPh == .clocks || s.pllRdy b then .next s else
  let s := ((s.setPll b true).evt 2 16).raise 0x0207 []
  if s.fixLock then .next s else
  let s := if b = s.fixB then s.setClk 8 true else ((((s.fixTo b).countSw 0).evt 2 1).raise 0x0201 []).rsmpStart
  if s.engSrc ≠ 2 then .next s
  else if s.eng.mode = .stop then .next (s.engTo b)
  else if s.pow.opc = .none then .next (s.modPow fun x => { x with opc := .ready ⟨s.op % 4, Nat.mod_lt _ (by decide)⟩ })
  else .next s

/-- PLL_OUT_OF_TOLERANCE (R411): the fixed tree stands on an unlocked PLL. -/
def execPllOutOfTolerance (s : State) : Answer :=
  if s.alive && s.bootPh != .clocks && !s.fixLock then .next (s.enterSafe 0x0204 0 []) else .next s

/-- TCXO_FAIL (R412): both PLLs have lost their reference. -/
def execTcxoFail (s : State) : Answer :=
  if !(s.alive && bit (s.rd Reg.clkStat) 0) then .next s else
  let t := ((((s.setClk 0 false).setPll false false).setPll true false).setClk 8 false).enterSafe 0x0206 0 []
  .next (s.degrAfter t)

/-- RTC_CRYSTAL_FAIL (R412). -/
def execRtcCrystalFail (s : State) : Answer :=
  if s.alive && bit (s.rd Reg.clkStat) 2 then
    .next ((((s.setClk 2 false).setClk 9 false).evt 2 32).raise 0x0208 [])
  else .next s

/-- RTC_CRYSTAL_READY (R407). -/
def execRtcCrystalReady (s : State) : Answer := if s.alive then .next (s.setClk 2 true) else .next s

/-- CLK.SWCMD (R409): none where the write is refused with WREFUSED alone. -/
def State.swCmd (s : State) (v : Word) : Option State :=
  if v ≠ 1 ∧ v ≠ 2 then none else
  let b := v == 2
  if b = s.fixB ∧ s.fixLock then some s
  else if !s.pllRdy b then some (((s.evt 2 8).raise 0x0205 []).refuse 2)
  else some ((((s.fixTo b).engTo b).evt 2 1).rsmpStart)

/-! ## The real-time clock (R413) -/

/-- The ticks that stand for a module time, and the part of the next tick in 10^-9 of one. -/
def rtcOf (t : Nat) : Nat × Nat := (t * 32768 / 1000000000 % 2 ^ 64, t * 32768 % 1000000000)

/-- The module time that the ticks stand for. -/
def Rtc.time (r : Rtc) : Nat := r.ticks * 1000000000 / 32768

/-- Four nanoseconds pass for the real-time clock. -/
def Rtc.tick (r : Rtc) : Rtc :=
  let p := r.part + 131072
  if p < 1000000000 then { r with part := p } else { r with part := p - 1000000000, ticks := (r.ticks + 1) % 2 ^ 64 }

/-- RTC_SET: at each whole second while LOCKED. -/
def execRtcSet (s : State) : Answer :=
  let sec := s.now / 1000000000
  if !(s.alive && s.bootPh != .clocks && s.sstate == 2 && decide (s.rtc.setAt < sec)) then .next s else
  let r := rtcOf (sec * 1000000000)
  let s := { s with rtc := { s.rtc with ticks := r.1, part := r.2, setAt := sec } }
  .next (s.setClk 9 (bit (s.rd Reg.clkStat) 2))

/-- CLK.RTCSNAP (R427). -/
def State.rtcSnap (s : State) (v : Word) : State := if v ≠ 1 then s else s.wr64 Reg.clkRtcLo s.rtc.ticks

/-! ## Operating-point changes (R417) -/

/-- OP_PGOOD. -/
def execOpPgood (s : State) : Answer :=
  match s.pow.opc with
  | .ramp b _ => if s.alive then .next (s.modPow fun p => { p with opc := .ready b }) else .next s
  | .none => .next s
  | .ready _ => .next s
  | .halted _ => .next s

/-- OP_DIVIDER_SWITCH: at a dispatch point the lanes halt. -/
def execOpDividerSwitch (s : State) : Answer :=
  match s.pow.opc with
  | .ready b =>
    if s.alive && s.dispatchPoint && s.pstate != .nap then .next (s.modPow fun p => { p with opc := .halted b }) else .next s
  | .none => .next s
  | .ramp _ _ => .next s
  | .halted _ => .next s

/-- OP_RESUME: the lanes resume at the new point, and the engine tree stands on a ready PLL again where one is. -/
def execOpResume (s : State) : Answer :=
  match s.pow.opc with
  | .halted b =>
    if !s.alive then .next s else
    let moved := decide (b.val ≠ s.op)
    let s := (s.modPow fun p => { p with opc := .none }).wr Reg.pwrStat (setFld (s.rd Reg.pwrStat) 4 2 b)
    let s := if moved then s.count Reg.pwrOpcnt else s
    let s := if s.engSrc = 2 ∧ s.fixLock then s.engTo s.fixB else s
    .next s.opNext.dispatch
  | .none => .next s
  | .ramp _ _ => .next s
  | .ready _ => .next s

/-- OP_PGOOD_TIMEOUT: no PGOOD within 200 µs; an engine tree that waits to leave the TCXO follows now (R411). -/
def execOpPgoodTimeout (s : State) : Answer :=
  match s.pow.opc with
  | .ramp _ r =>
    if !(s.alive && decide (r + 200000 ≤ s.now)) then .next s else
    let follow : OpChange := if s.engSrc = 2 ∧ s.fixLock then .ready ⟨s.op % 4, Nat.mod_lt _ (by decide)⟩ else .none
    let s := s.modPow fun p => { p with opc := follow, opWant := none, opNotBefore := s.now + 1000000000 }
    .next ((s.evt 3 64).raise 0x0307 [])
  | .none => .next s
  | .ready _ => .next s
  | .halted _ => .next s

/-- CORE_UNDERVOLTAGE. -/
def execCoreUndervoltage (s : State) : Answer :=
  if s.alive && s.bootPh != .clocks then .next (s.enterSafe 0x0308 0 []) else .next s

/-! ## The governor (R418, R419) -/

/-- k_T × 256. -/
def ktOf (base : Int) : Nat := (min 256 (max 0 ((88 - base) * 32))).toNat

/-- The token fill is scaled with the base plate's temperature; `old` is the sample before. -/
def State.govTokens (s : State) (base old : Int) : State :=
  let kt := ktOf base
  let s := (s.wr Reg.pwrKt (wd kt)).setPst 7 (decide (kt < 256))
  if 80 ≤ base ∧ old < 80 then (s.evt 3 1).raise 0x0301 [] else s

/-- The point is lowered or raised by one step, and THROT follows. -/
def State.govStep (s : State) (b : Nat) (down : Bool) : State :=
  let s := s.opRequest ⟨b % 4, Nat.mod_lt _ (by decide)⟩
  let s := s.setPst 8 (decide (s.opMax < b))
  if down then (s.evt 3 2).raise 0x0302 [] else (s.evt 3 4).raise 0x0306 []

/-- The base plate at or above 88 °C, and back below 85 °C; while no change is attempted (R417) the step waits for a later
sample. -/
def State.govPoint (s : State) (base : Int) : State :=
  let cur := s.opTarget
  if 88 ≤ base then
    let due := match s.pow.hotAt with
      | none => true
      | some t => decide (t + 10000000000 ≤ s.now)
    let s := s.modPow fun p => { p with coolAt := none }
    if !due || decide (s.now < s.pow.opNotBefore) then s else
    let s := s.modPow fun p => { p with hotAt := some s.now }
    if cur < s.opFloor then s.govStep (cur + 1) true else s
  else if base < 85 then
    let s := s.modPow fun p => { p with hotAt := none }
    match s.pow.coolAt with
    | none => s.modPow fun p => { p with coolAt := some s.now }
    | some t =>
      if t + 10000000000 ≤ s.now ∧ s.pow.opNotBefore ≤ s.now ∧ bit (s.rd Reg.pwrStat) 8 ∧ s.opMax < cur then
        (s.modPow fun p => { p with coolAt := some s.now }).govStep (cur - 1) false
      else s
  else s.modPow fun p => { p with hotAt := none, coolAt := none }

/-- HOT. -/
def State.govHot (s : State) (base : Int) : State :=
  let hot := bit (s.rd Reg.pwrStat) 9
  if 95 ≤ base ∧ hot = false then ((s.setPst 9 true).evt 3 8).raise 0x0303 []
  else if base < 92 then s.setPst 9 false
  else s

/-- GOVERNOR_TEMP_SAMPLE: a sample of the base plate and the die, °C. -/
def execGovernorTempSample (base die : Int) (s : State) : Answer :=
  if !(s.alive && s.bootPh != .clocks) then .next s else
  let old := sfld (s.rd Reg.pwrTemp) 0 8
  let s := s.wr Reg.pwrTemp (setFld (setFld 0 0 8 (wi base).toNat) 8 8 (wi die).toNat)
  let s := ((s.govTokens base old).govPoint base).govHot base
  if die < 105 then .next s else
  let s := if s.mstate = .run then (s.stopAt (nextWhole s.now 1000) none).enteredStop false else s
  .next ((s.evt 3 16).enterSafe 0x0304 0 [])

/-- TOKEN_FILL: the headroom of the millisecond just past, from its input energy in µJ. -/
def execTokenFill (inputUj : Nat) (s : State) : Answer :=
  let ms := s.now / 1000000
  if !(s.booted && decide (s.pow.tokAt < ms)) then .next s else
  let pes := s.pow.deferPe
  let h : Int := (fld (s.rd Reg.pwrPbudget) 0 16 : Int) - ((inputUj : Int) - s.peCost pes)
  let kt := fld (s.rd Reg.pwrKt) 0 9
  let b := if 0 < h then min ((s.rd Reg.pwrTokmax).toNat : Int) (s.tokBal + Int.fdiv (h * kt) 256) else s.tokBal + h
  let overN := if h < 0 ∧ pes = 0 then satNat 1000 (s.pow.overRun + 1) else 0
  let s := ((s.setTok b).wr Reg.pwrPin (wd inputUj)).modPow fun p => { p with tokAt := ms, deferPe := 0, overRun := overN }
  if overN < 1000 then .next (s.setPst 10 false) else
  let s := s.setPst 10 true
  let told := match s.pow.overAt with
    | none => false
    | some t => decide (s.now < t + 1000000000)
  if told then .next s else .next (((s.modPow fun p => { p with overAt := some s.now }).evt 3 32).raise 0x0305 [])

/-! ## Exits from DOZE and NAP (R421, R422) -/

/-- GLOBAL_SIGNATURE (R172): once for each whole millisecond, at a block boundary; an engine that is idle then is idle anew,
and the chooser acts (R422; DEDUCED, log entry 28). -/
def execGlobalSignature (sig : Tri) (s : State) : Answer :=
  let ms := s.now / 1000000
  if !(s.booted && !s.safeLatch && decide (s.lanes.gsMs < ms) && s.pstate != .nap && s.pimc.retry.isNone) then .next s else
  .next (((s.ownUpset sig).modLanes fun l => { l with gsMs := ms }).globalVote).1.powerChoose

/-- POWER_STATE_EXIT: the planned exit is reached. -/
def execPowerStateExit (s : State) : Answer :=
  match s.pow.planExit with
  | none => .next s
  | some t => if s.alive ∧ (s.pstate = .doze ∨ s.pstate = .nap) ∧ t ≤ s.now then .next s.wakeUp else .next s

/-- POWER_STATE_EARLY_EXIT: an event leaves the state early. -/
def execPowerStateEarlyExit (s : State) : Answer :=
  if s.alive ∧ (s.pstate = .doze ∨ s.pstate = .nap) then .next s.wakeUp else .next s

/-- OPLIM is written: the engine goes to OPMAX where it is faster, or not lowered by temperature. -/
def State.opLimits (s : State) : State :=
  let cur := s.opTarget
  let s := if cur ≤ s.opMax then s.setPst 8 false else s
  if cur < s.opMax ∨ (bit (s.rd Reg.pwrStat) 8 = false ∧ cur ≠ s.opMax) then
    s.opRequest ⟨s.opMax % 4, Nat.mod_lt _ (by decide)⟩
  else s

end Sys2Proof.Machine
end

