-- ==== Sys2Proof/Machine/RegRules.lean ====
section
/-!
DEFINITION. Which values the registers take: the ranges and relations that refuse a host write with WREFUSED and make a
preload record not valid (spec/05_tasks_and_modes.md R151 to spec/18_twin_modules.md R472, each in its page's rule).
-/
namespace Sys2Proof.Machine

/-- A number lies in a range. -/
def within (lo hi n : Nat) : Bool := decide (lo ≤ n) && decide (n ≤ hi)

/-- The position of a register in an array of `n` of them from `base`, `step` bytes apart. -/
def arrayIdx (base n step off : Nat) : Option Nat :=
  if base ≤ off ∧ (off - base) % step = 0 ∧ (off - base) / step < n then some ((off - base) / step) else none

/-! ## Rules of the reflex matrix (spec/08_reflex_and_reaction.md R227 to R230) -/

/-- RCONDr on its own: no reserved bit or value, the monitor, GTEST of the right KIND. -/
def rcondOk (v : Word) : Bool :=
  v &&& 0xffe0f800 == 0 &&
    (match fld v 8 3 with
      | 0 => v == 0
      | 1 => true
      | 2 => decide (fld v 0 8 ≤ 23)
      | 3 => true
      | 4 => fld v 3 5 == 0
      | _ => false)

/-- RACTr on its own. -/
def ractOk (v : Word) : Bool := v &&& 0xe0e00000 == 0 && [0, 1, 8, 9].contains (fld v 24 4)

/-- RRSTr on its own. -/
def rrstOk (v : Word) : Bool := v &&& 0xfffffe00 == 0 && decide (fld v 0 2 ≤ 1)

/-- The three registers of rule `r` and the inputs' configuration agree (R230). -/
def State.ruleOk (s : State) (r : Nat) : Bool :=
  let c := s.rd (Reg.rfxRcond r)
  let a := s.rd (Reg.rfxRact r)
  let x := s.rd (Reg.rfxRrst r)
  match fld c 8 3 with
  | 0 => a == 0 && x == 0
  | 1 =>
    let g := fld c 0 2
    let i := fld c 2 3
    !(bit c 5 && fld (s.rd (Reg.fioIncfg g i)) 16 2 != 0) && !(fld x 0 2 == 1 && fld x 2 2 == g && fld x 4 3 == i)
  | _ => true

/-! ## Axes (spec/09_axes_and_safe_motion.md R243 to R245, R262) -/

/-- ACFG of local axis `k` of page `g`. -/
def acfgOk (g k : Nat) (v : Word) : Bool :=
  (if 6 * g + k ≤ 7 then [0, 1, 2] else [0, 4, 5]).contains (fld v 0 3) && within 1 8 (fld v 4 4)

/-- SSICFG (R245). -/
def ssicfgOk (v : Word) : Bool :=
  let nb := fld v 0 6
  let div := fld v 8 7
  let spk := fld v 16 4
  within 8 32 nb && within 5 100 div && within 5 12 spk &&
    decide ((nb + 2 + fld v 21 1) * div * 100 + 20000 ≤ 1000 * 2 ^ spk)

/-! ## Monitors, as the loader judges them (R255, R256) -/

/-- A set of a monitor of a type keeps the table of R256. -/
def setOk (ty : Nat) (a b c : Word) : Bool :=
  match ty with
  | 0 => !bit a 31 && decide (b.toNat ≤ 10000000) && c == 0
  | 1 => decide (a.toInt ≤ b.toInt)
  | 2 => decide (a.toNat ≤ 1) && decide (b.toNat ≤ 65535) && c == 0
  | _ => c == 0

/-- An enabled monitor keeps R255. -/
def State.monitorOk (s : State) (m : Nat) : Bool :=
  let v := s.rd (Reg.smoMcfg m)
  if !bit v 31 then true else
  let ax := fld v 8 4
  let ty := fld v 0 2
  let wk := fld v 16 5
  let en := fld v 24 4
  let mode := fld (s.rd (Reg.axsAcfg (ax / 6) (ax % 6))) 0 3
  decide (ax ≤ 11) && mode != 0 && !(ty == 2 && mode == 4) && within 4 16 wk && en % 2 == 1 &&
    (mode != 2 || decide (fld (s.rd (Reg.axsSsicfg (ax / 6) (ax % 6))) 16 4 + 4 ≤ wk)) &&
    ((List.range 4).all fun k => !(en.testBit k) ||
      setOk ty (s.rd (Reg.smoSetA m k)) (s.rd (Reg.smoSetB m k)) (s.rd (Reg.smoSetC m k)))

/-- No rule of the reflex matrix names a monitor that is not enabled. -/
def State.ruleMonitorOk (s : State) (r : Nat) : Bool :=
  let c := s.rd (Reg.rfxRcond r)
  fld c 8 3 != 2 || bit (s.rd (Reg.smoMcfg (fld c 0 5))) 31

/-! ## CAN bit timing (spec/12_bridges.md R318, R336) -/

/-- The prescaler times the length of a bit, for the nominal and the data rate: 80 MHz by this is the rate. -/
def nbtClocks (v : Word) : Nat := (fld v 0 5 + 1) * (1 + (fld v 8 8 + 1) + (fld v 16 7 + 1))
def dbtClocks (v : Word) : Nat := (fld v 0 5 + 1) * (1 + (fld v 8 5 + 1) + (fld v 16 4 + 1))

/-- Nominal rate 10 kbit/s to 1 Mbit/s, data rate 1 Mbit/s to 5 Mbit/s and no lower, jump widths within TSEG2. -/
def canTimingOk (n d : Word) : Bool :=
  within 80 8000 (nbtClocks n) && within 16 80 (dbtClocks d) && decide (dbtClocks d ≤ nbtClocks n) &&
    decide (fld n 24 7 ≤ fld n 16 7) && decide (fld d 24 4 ≤ fld d 16 4)

/-! ## The host rings (spec/11_train_network.md R293) -/

/-- A ring of `n` slots at `base` lies in the non-secure partition. -/
def ringOk (base n : Word) : Bool :=
  base.toNat % 2048 == 0 && decide (0x200000 ≤ base.toNat) && decide (base.toNat + 2048 * n.toNat ≤ 0x800000)

/-! ## A register on its own -/

/-- The value is in its register's range, whatever the other registers hold. Registers without a range take any value. -/
def regAlone (a : Nat) (v : Word) : Bool :=
  let off := a % 0x1000
  let p := a / 0x1000
  match p with
  | 0x03 => match off with
    | 0x20 => within 15000 36000 v.toNat
    | 0x24 => within 1 2 (fld v 8 2)
    | 0x2c => within 1000 1000000 v.toNat
    | 0x58 => v != 0xffffff
    | _ => true
  | 0x0a => off != 0x3c || within 1 10000 v.toNat
  | 0x0b => off != 0x34 || within 1 60000 v.toNat
  | 0x10 | 0x11 | 0x12 | 0x13 =>
    if (arrayIdx 0x20 8 4 off).isSome then fld v 16 2 != 3
    else if (arrayIdx 0x40 4 4 off).isSome then within 100 1000 (fld v 0 10) && within 1 3600 (fld v 16 12)
    else if off = 0x50 then
      within 50 1000 (fld v 0 10) && within 1 1000 (fld v 16 10) && decide (fld v 0 10 + 20 < 500 * fld v 16 10)
    else true
  | 0x14 =>
    if off = 0x40 then within 100 10000 v.toNat
    else if (arrayIdx 0x100 64 16 off).isSome then rcondOk v
    else if (arrayIdx 0x104 64 16 off).isSome then ractOk v
    else if (arrayIdx 0x108 64 16 off).isSome then rrstOk v
    else true
  | 0x15 | 0x16 =>
    match arrayIdx 0x100 6 0x100 off with
    | some k => acfgOk (p - 0x15) k v
    | none => if (arrayIdx 0x104 6 0x100 off).isSome then ssicfgOk v else true
  | 0x18 =>
    if off = 0x08 then within 50 200 (fld v 0 8)
    else if (arrayIdx 0x20 16 4 off).isSome then decide (fld v 24 8 ≤ 128)
    else true
  | 0x19 => if (arrayIdx 0x20 8 0x20 off).isSome then decide (fld v 0 3 ≤ 3) && !(fld v 0 3 == 3 && fld v 4 2 == 0) else true
  | 0x20 | 0x21 => if off = 0x64 ∨ off = 0x74 then within 2 256 v.toNat else true
  | 0x24 => match off with
    | 0x2c =>
      let z (lo hi : Int) (x : Int) : Bool := decide (lo ≤ x) && decide (x ≤ hi)
      z (-7) 1 (sfld v 0 8) && z (-3) 3 (sfld v 8 8) && z (-7) 5 (sfld v 16 8) && within 2 10 (fld v 24 4)
    | 0x58 => within 20 1000000 v.toNat
    | 0x5c => within 1000 1000000000 v.toNat
    | 0x60 => within 1 500 v.toNat
    | 0x64 => within 1 65535 v.toNat
    | _ => true
  | 0x34 => match off with
    | 0x08 => within 10 1000 v.toNat
    | 0x48 => within 1 33554432 v.toNat
    | _ => true
  | 0x39 => match off with
    | 0x2c => within 20 200 v.toNat
    | 0x30 => within 1 16 v.toNat
    | 0x34 => within 1 100 v.toNat
    | _ => true
  | _ => true

/-! ## A register among the others -/

/-- The registers agree with the one at `a`, which already holds its new value. -/
def State.regJoint (s : State) (a : Nat) : Bool :=
  let off := a % 0x1000
  let p := a / 0x1000
  match p with
  | 0x14 =>
    let idx := [0x100, 0x104, 0x108].filterMap fun b => arrayIdx b 64 16 off
    idx.all s.ruleOk
  | 0x18 =>
    if off = 0x08 then (List.range 16).all fun k => dscfgOk (s.rd Reg.decCtrl) (s.dscfg k)
    else match arrayIdx 0x20 16 4 off with
      | some k => dscfgOk (s.rd Reg.decCtrl) (s.dscfg k)
      | none => off != 0x120 || s.tmdOk (fld (s.rd a) 8 8)
  | 0x19 =>
    let n := (off - 0x20) / 0x20
    if (arrayIdx 0x2c 8 0x20 off).isSome ∨ (arrayIdx 0x30 8 0x20 off).isSome then
      pinTimesOk (s.rd (Reg.tpinPeriod n)).toNat (s.rd (Reg.tpinWidth n)).toNat
    else true
  | 0x20 | 0x21 =>
    let x := p - 0x20
    if off = 0x60 ∨ off = 0x64 then ringOk (s.rd (Reg.netHrxbase x)) (s.rd (Reg.netHrxnum x))
    else if off = 0x70 ∨ off = 0x74 then ringOk (s.rd (Reg.netHtxbase x)) (s.rd (Reg.netHtxnum x))
    else true
  | 0x28 | 0x29 | 0x2a | 0x2b =>
    let c := p - 0x28
    if off = 0x20 ∨ off = 0x24 then canTimingOk (s.rd (Reg.canNbt c)) (s.rd (Reg.canDbt c)) else true
  | _ => true

/-! ## Leaves (spec/16_clocks_and_power.md R414, R415, R428) -/

/-- The leaf whose gate a page's block has, if the gate can be shut. -/
def leafOf (p : Nat) : Option Nat :=
  if p = 0x18 then some 3
  else if p = 0x20 then some 4
  else if p = 0x21 then some 5
  else if p = 0x22 ∨ p = 0x23 then some 6
  else if 0x28 ≤ p ∧ p ≤ 0x2b then some (8 + (p - 0x28))
  else if p = 0x2c then some 12
  else if p = 0x2d then some 13
  else if 0x30 ≤ p ∧ p ≤ 0x32 then some 14
  else if p = 0x39 then some 15
  else none

/-- The page's block is without its clock: RUNEN of its leaf is 0. -/
def State.gatedOff (s : State) (p : Nat) : Bool :=
  match leafOf p with
  | none => false
  | some k => !bit (s.rd (Reg.clkGate k)) 0

/-- The block of leaf `k` has a channel, entry, port or table enabled (R415). -/
def State.leafBusy (s : State) (k : Nat) : Bool :=
  match k with
  | 3 => (List.range 16).any fun c => bit (s.dscfg c) 7
  | 4 => s.rd (Reg.netCtrl 0) &&& 0x7 != 0
  | 5 => s.rd (Reg.netCtrl 1) &&& 0x7 != 0
  | 6 => !(s.enabled 0 3).isEmpty || !(s.enabled 1 3).isEmpty || !(s.enabled 2 0).isEmpty
  | 8 => s.canEn 0
  | 9 => s.canEn 1
  | 10 => s.canEn 2
  | 11 => s.canEn 3
  | 12 => bit (s.rd Reg.mvbCtrl) 0 || !(s.enabled 3 0).isEmpty
  | 13 => bit (s.rd Reg.brgCtrl) 0 || !(s.enabled 4 0).isEmpty
  | 14 => true
  | 15 => s.rd Reg.twnCtrl &&& 0x5 != 0 || (List.range 8).any fun i => bit (s.rd (Reg.twnRefpair i)) 31
  | _ => false

/-- The bits of GATEk that a write may change: leaves 0, 1, 2 and 7 have none, and only CAN leaves have DEEPEN. -/
def gateMask (k : Nat) : Word :=
  if k = 0 ∨ k = 1 ∨ k = 2 ∨ k = 7 then 0 else if 8 ≤ k ∧ k ≤ 11 then 7 else 3

/-- GATEk after a write of `v`. -/
def State.gateNew (s : State) (k : Nat) (v : Word) : Word :=
  (s.rd (Reg.clkGate k) &&& ~~~ gateMask k) ||| (v &&& gateMask k)

end Sys2Proof.Machine
end

