-- ==== Sys2Proof/Machine/Tables.lean ====
section
/-!
DEFINITION. The tables behind the windows: which entries they take, what happens when an entry is replaced, and the windows
themselves (spec/02_register_pages.md R46, spec/05_tasks_and_modes.md R147, R148, spec/11_train_network.md R294, R295, R304,
spec/12_bridges.md R322 to R324).
-/
namespace Sys2Proof.Machine

/-- The pages' table numbers: publications 0, subscriptions 1, telegrams 2, MVB ports 3, routing entries 4. -/
def tableSize (t : Nat) : Nat :=
  match t with
  | 0 => 1024
  | 1 => 2048
  | 2 => 256
  | 3 => 256
  | _ => 4096

/-- The words of an entry that may be written, from word 0 on. -/
def tableWords (t : Nat) : Nat :=
  match t with
  | 0 => 7
  | 1 => 6
  | 2 => 8
  | 3 => 2
  | _ => 8

/-- The defined bits of word `j` of an entry (R40). -/
def tableMask (t j : Nat) : Word :=
  match t, j with
  | 0, 3 => 0x8037ffff
  | 0, 4 => 0x7ff
  | 1, 3 => 0x8000007f
  | 1, 4 => 0x7ff
  | 2, 0 => 0x80000701
  | 2, 5 => 0x0f3fffff
  | 3, 0 => 0x80017fff
  | 3, 1 => 0xffff
  | 4, 0 => 0x80010f77
  | 4, 1 => 0x1fffffff
  | 4, 2 => 0x1fffffff
  | 4, 3 => 0x007f07ff
  | 4, 4 => 0x1fffffff
  | 4, 5 => 0xff7f07ff
  | 4, 7 => 0x1fffffff
  | _, _ => 0xffffffff

/-- The word of an entry that holds EN. -/
def enWord (t : Nat) : Nat := if t ≤ 1 then 3 else 0

/-- The entry is in use. -/
def State.entryEn (s : State) (t e : Nat) : Bool := bit (s.tbl t e (enWord t)) 31

/-- No other entry in use of table `t` has the same low `n` bits in word `j`. -/
def State.entryAlone (s : State) (t e j n : Nat) : Bool :=
  (s.enabled t (enWord t)).all fun i => i == e || fld (s.tbl t i j) 0 n != fld (s.tbl t e j) 0 n

/-! ## Process data and telegrams (R294, R295, R304) -/

def planesOk (n : Nat) : Bool := within 1 3 n
def lenOk (n : Nat) : Bool := n % 4 == 0 && decide (n ≤ 1432)

def State.pubOk (s : State) (e : Nat) : Bool :=
  let cycle := (s.tbl 0 e 5).toNat
  planesOk (fld (s.tbl 0 e 3) 20 2) && lenOk (fld (s.tbl 0 e 4) 0 11) && within 250 10000000 cycle &&
    decide ((s.tbl 0 e 6).toNat < cycle) && (!s.entryEn 0 e || s.entryAlone 0 e 0 32)

def State.subOk (s : State) (e : Nat) : Bool :=
  (s.tbl 1 e 1 == 0 || isGroup (s.tbl 1 e 1)) && planesOk (fld (s.tbl 1 e 3) 4 2) && lenOk (fld (s.tbl 1 e 4) 0 11) && within 250 10000000 (s.tbl 1 e 5).toNat &&
    (!s.entryEn 1 e || s.entryAlone 1 e 0 32)

def groupOk (w : Word) : Bool := fld w 28 4 == 14

/-- The ComId of a telegram in use differs from every other telegram's, publication's and subscription's. -/
def State.telComOk (s : State) (e : Nat) : Bool :=
  let c := s.tbl 2 e 1
  s.entryAlone 2 e 1 32 && (s.enabled 0 3).all (fun i => s.tbl 0 i 0 != c) && (s.enabled 1 3).all fun i => s.tbl 1 i 0 != c

def State.telOk (s : State) (e : Nat) : Bool :=
  let cycle := (s.tbl 2 e 6).toNat
  let x := (s.tbl 2 e 7).toNat
  groupOk (s.tbl 2 e 2) && groupOk (s.tbl 2 e 3) && within 1 60 (fld (s.tbl 2 e 5) 16 6) && within 250 1000000 cycle &&
    (if bit (s.tbl 2 e 0) 0 then decide (x < cycle) else decide (5 * cycle ≤ 4 * x) && decide (x ≤ 10000000)) &&
    (!s.entryEn 2 e || s.telComOk e)

/-! ## MVB ports and routing entries (R322, R324) -/

def State.mvbOk (s : State) (e : Nat) : Bool :=
  let w := s.tbl 3 e 0
  decide (fld w 12 3 ≤ 4) && (!bit w 16 || s.tbl 3 e 1 == 0) && (!s.entryEn 3 e || s.entryAlone 3 e 0 12)

/-- An identifier lies in the range of its port (R316); `ext` for an extended CAN identifier. An MVB port must be enabled
in the direction. -/
def State.idOk (s : State) (port id : Nat) (ext source : Bool) : Bool :=
  if port < 4 then ext || decide (id < 2048)
  else if port = 4 then decide (id < 4096) && (s.mvbEntry id !source).isSome
  else if port = 5 then decide (id < (if source then 2048 else 1024))
  else decide (id < 128)

/-- The bytes of a source or destination other than a CAN frame. -/
def State.portSize (s : State) (port id : Nat) (source : Bool) : Nat :=
  if port = 4 then
    match s.mvbEntry id !source with
    | some e => s.mvbSize e
    | none => 0
  else if port = 5 then fld (s.tbl (if source then 1 else 0) id 4) 0 11
  else 64

/-- A length a CAN frame may have. -/
def canLen (n : Nat) : Bool := decide (n ≤ 8) || [12, 16, 20, 24, 32, 48, 64].contains n

/-- The byte ranges an entry writes at a destination other than a CAN channel: data and side-band bytes. -/
def Route.spans (r : Route) : List (Nat × Nat) :=
  (r.doff, r.slen) :: if r.priv then [(r.sboff, 4)] else []

/-- Two ranges of bytes share one. -/
def overlap (a b : Nat × Nat) : Bool := decide (a.1 < b.1 + b.2) && decide (b.1 < a.1 + a.2)

/-- No byte of entry `e` at an MVB port, dataset or area belongs to another entry or to a KIND 0x41 map entry. -/
def State.spansOk (s : State) (e : Nat) : Bool :=
  let r := s.route e
  ((s.routes.filter fun i => i != e && (s.route i).dport == r.dport && (s.route i).did == r.did).all fun i =>
    (s.route i).spans.all fun a => r.spans.all fun b => !overlap a b) &&
  (r.dport != 5 || (s.maps.filter fun m => m.out && m.kind == 0x41 && m.pdEntry == r.did).all fun m =>
    r.spans.all fun b => !overlap (4 * fld m.sopt 16 9, 4) b)

/-- A routing entry (R324); one that is not in use is never refused. -/
def State.routeOk (s : State) (e : Nat) : Bool :=
  if !s.entryEn 4 e then true else
  let r := s.route e
  r.sport != 7 && r.dport != 7 && r.sport != r.dport && r.slen != 0 &&
    s.idOk r.sport r.sid r.side true && s.idOk r.dport r.did r.dide false &&
    decide (r.soff + r.slen ≤ (if r.sport < 4 then 64 else s.portSize r.sport r.sid true)) &&
    (if r.dport < 4 then
      canLen r.dlen && (decide (r.dlen ≤ 8) || r.dfd) && (!r.dbrs || r.dfd) && decide (r.doff + r.slen ≤ r.dlen) &&
        (!r.priv || s.idOk r.dport r.sbid r.dide false)
    else
      let n := s.portSize r.dport r.did false
      decide (r.doff + r.slen ≤ n) && (!r.priv || decide (r.sboff + 4 ≤ n)) && s.spansOk e) &&
    (!r.priv || decide ((s.routes.filter fun i => i != e && (s.route i).priv).length < 8))

/-- Entry `e` of table `t` is one that the table takes. -/
def State.entryOk (s : State) (t e : Nat) : Bool :=
  match t with
  | 0 => s.pubOk e
  | 1 => s.subOk e
  | 2 => s.telOk e
  | 3 => s.mvbOk e
  | _ => s.routeOk e

/-! ## An entry starts -/

/-- Subscription `e` starts: TIMEDOUT 1, VALID 0, its words bad, the timeout counted from now (R295, R301). -/
def State.subStart (s : State) (e : Nat) : State :=
  (((s.setTbl 1 e 6 1).modSub e fun _ => ⟨s.now, false⟩).subFlag e true).subWrite e none

/-- Telegram `e` starts: SSC 0, a receiver in its timeout state with bad words (R306, R309); one stopped by 0x2305 stays so. -/
def State.telStart (s : State) (e : Nat) : State :=
  let recv := s.entryEn 2 e && !bit (s.tbl 2 e 0) 0
  let s := ((s.setTbl 2 e 9 0).telState e recv false 0 false).modTel e fun x => ⟨none, s.now, s.now, x.stopped⟩
  if recv then s.telWrite e s.now none else s

/-- MVB port `e` starts: zeros until its first write or update (R322). -/
def State.mvbStart (s : State) (e : Nat) : State :=
  let bytes := (List.range 32).foldl (fun m i => Store.put (fun _ => (0 : Byte)) m (32 * e + i) 0) s.mvb.bytes
  { s.setTbl 3 e 2 0 with mvb := { s.mvb with bytes := bytes, at' := Store.put (fun _ => 0) s.mvb.at' e 0 } }

/-- Routing entry `e` starts: nothing held, no forward yet, its source timeout counted from now. -/
def State.routeStart (s : State) (e : Nat) : State :=
  (s.setTbl 4 e 8 0).modEnt e fun _ => ⟨0, s.now + 1, none, 0, 0⟩

/-- A publication takes effect from the next publication instant (R296). -/
def State.pubStart (s : State) (e : Nat) : State :=
  { s with trdp := { s.trdp with pubAt := Store.put (fun _ => s.trdp.since) s.trdp.pubAt e s.now } }

def State.entryStart (s : State) (t e : Nat) : State :=
  match t with
  | 0 => s.pubStart e
  | 1 => s.subStart e
  | 2 => s.telStart e
  | 3 => s.mvbStart e
  | _ => s.routeStart e

/-- The first words of an entry are replaced; its read-only words stay (R40). -/
def State.putEntry (s : State) (t e : Nat) (ws : List Word) : State :=
  (ws.take (tableWords t)).zipIdx.foldl (fun s x => s.setTbl t e x.2 (x.1 &&& tableMask t x.2)) s

/-! ## Windows (R46) -/

/-- A window: its page, the offsets of WIN_IDX (WIN_CMD and WIN_STAT follow it) and WIN_DATA0, and its data words. -/
structure WinDef where
  page : Nat
  idx  : Nat
  data : Nat
  n    : Nat

def winDef : Win → WinDef
  | .frc => ⟨0x0c, 0xc020, 0xc030, 4⟩
  | .trd => ⟨0x22, 0x22040, 0x22050, 8⟩
  | .twp => ⟨0x23, 0x23020, 0x23030, 10⟩
  | .mvb => ⟨0x2c, 0x2c040, 0x2c050, 3⟩
  | .brg => ⟨0x2d, 0x2d020, 0x2d030, 9⟩

def WinDef.cmd (w : WinDef) : Nat := w.idx + 4
def WinDef.stat (w : WinDef) : Nat := w.idx + 8

/-- The entry that WIN_IDX names, and the table it stands in; the force table has none of the numbers. -/
def winTable (w : Win) (v : Word) : Nat :=
  match w with
  | .frc => 5
  | .trd => if bit v 16 then 1 else 0
  | .twp => 2
  | .mvb => 3
  | .brg => 4

def winEntry (w : Win) (v : Word) : Nat :=
  match w with
  | .frc => fld v 0 8
  | .trd => fld v 0 11
  | .twp => fld v 0 8
  | .mvb => fld v 0 8
  | .brg => fld v 0 12

/-- Word `j` of entry `e` as the window shows it. -/
def State.entryWord (s : State) (t e j : Nat) : Word :=
  if t = 5 then s.pimRd (pimForce + 4 * e + j) else s.tbl t e j

/-- WIN_IDX is written: none where the table has no such entry. -/
def State.winSelect (s : State) (w : Win) (v : Word) : Option State :=
  let d := winDef w
  let t := winTable w v
  if t < 5 && decide (tableSize t ≤ winEntry w v) then none
  else some ((s.wr d.idx v).wr d.stat 1)

/-- The window shows the entry selected. -/
def State.winShow (s : State) (w : Win) : State :=
  let d := winDef w
  let v := s.rd d.idx
  let s := (List.range d.n).foldl (fun s j => s.wr (d.data + 4 * j) (s.entryWord (winTable w v) (winEntry w v) j)) s
  s.wr d.stat 0

/-- The staged entry of a table window replaces the entry selected: none while BUSY is 1, and where the entry is not one
that the table takes. -/
def State.winCommit (s : State) (w : Win) : Option State :=
  let d := winDef w
  if s.rd d.stat ≠ 0 then none else
  let v := s.rd d.idx
  let t := winTable w v
  let e := winEntry w v
  let u := s.putEntry t e ((List.range d.n).map fun j => s.rd (d.data + 4 * j))
  if u.entryOk t e then some (u.entryStart t e) else none

/-! ## The force table (R147 to R150) -/

/-- FRC.NFORCE: entries in use, and orphans. -/
def State.forceCount (s : State) : State :=
  let fs := (List.range 256).map s.force
  s.wr Reg.frcNforce (wd ((fs.filter fun f => f.en).length + 0x10000 * (fs.filter fun f => f.en && bit f.flags 1).length))

/-- A task's blocks read or write a word, or it is an IN or OUT word of a map entry: the force acts on a variable. -/
def State.forceActs (s : State) (f : Force) : Bool :=
  match s.forceTag f with
  | none => false
  | some t =>
    let ref := (t.elem f.elem).1
    if refPim ref then (List.range 8).any fun k => s.taskTouches k ref else true

/-- A commit of an entry with EN = 1 is refused. -/
def State.forceRefused (s : State) (i : Nat) (f : Force) : Bool :=
  (s.forceTag f).isNone || (List.range 256).any fun k =>
    k != i && (s.force k).en && (s.force k).tag == f.tag && (s.force k).elem == f.elem

def State.forcePut (s : State) (i : Nat) (w0 w1 w2 w3 : Word) : State :=
  (s.pimWrs (pimForce + 4 * i) [w0, w1 &&& 0x1ffff, w2, w3]).forceCount

/-- The staged entry of the force window replaces the entry selected: none where the window is busy. -/
def State.forceCommit (s : State) : Option State :=
  if s.rd Reg.frcWinStat ≠ 0 then none else
  let i := fld (s.rd Reg.frcWinIdx) 0 8
  let w0 := s.rd (Reg.frcWinData 0)
  let w1 := s.rd (Reg.frcWinData 1)
  let w2 := s.rd (Reg.frcWinData 2)
  let f : Force := ⟨w0, fld w1 0 16, bit w1 16, w2, 0⟩
  if f.en && s.forceRefused i f then some (s.evt 0x0c 2)
  else
    let act := b2w (f.en && s.forceActs f)
    some ((s.forcePut i w0 w1 w2 act).desync.winShow .frc)

/-- The entry selected is released: none where the window is busy. -/
def State.forceRelease (s : State) : Option State :=
  if s.rd Reg.frcWinStat ≠ 0 then none
  else some ((s.forcePut (fld (s.rd Reg.frcWinIdx) 0 8) 0 0 0 0).desync.winShow .frc)

/-- Every entry is released. -/
def State.forceReleaseAll (s : State) : State :=
  ((List.range 256).foldl (fun s i => s.pimWrs (pimForce + 4 * i) [0, 0, 0, 0]) s).forceCount.desync

/-- The forces after an image change: entries whose variable has gone become orphans, with 0x0c01 each (R150). -/
def State.forceKeep (s : State) : State :=
  ((List.range 256).foldl (fun s i =>
    let f := s.force i
    if !f.en then s else
    let a := pimForce + 4 * i + 3
    match s.forceTag f with
    | some _ => s.pimWr a (b2w (s.forceActs f))
    | none => ((s.pimWr a 2).evt 0x0c 1).raise 0x0c01 [wd i]) s).forceCount

end Sys2Proof.Machine
end

