-- ==== Sys2Proof/Machine/RegCmds.lean ====
section
/-!
DEFINITION. What a write to a command register or to a control register with an effect of its own does, on the pages that
an image may preload (spec/02_register_pages.md R39, spec/03_program_image.md R89, spec/11_train_network.md R291,
spec/18_twin_modules.md R459, R474).
-/
namespace Sys2Proof.Machine

/-- A command register whose only assigned value is 0x1 (R39). -/
def oneCmd (v : Word) (s : State) : Option State := if v = 1 then some s else none

/-- Chain addressing has fixed the position: the plane's address follows it where IPCHAIN is 1 (R291). -/
def State.ipChain (s : State) (x : Nat) : State :=
  let pos := fld (s.rd Reg.chnPos) 0 5
  if bit (s.netCtrl x) 3 ∧ pos ≠ 0 then s.wr (Reg.netIpaddr x) (s.rd (Reg.netIpbase x) + wd pos - 1) else s

/-- TWN.CTRL is written: the block restarts when EN changes, and without EN the role is ALONE and no output isolated (R457,
R459). -/
def State.twnCtrlWrite (s : State) (v : Word) : State :=
  let was := s.twnEn
  let s := s.wr Reg.twnCtrl v
  if bit v 0 = was then s
  else (s.twnRestart.setTwnRole .alone).lcrShow

/-- TWN.REJOIN: the block restarts, and a unit that is UNFIT, STANDBY or JOINING starts a join (R459, R474). -/
def State.twnRejoin (s : State) : State :=
  if !s.twnEn then s else
  let s := s.twnRestart
  match s.twn.role with
  | .alone => s
  | .wait => s.modTwn fun x => { x with fit := true, askAt := s.now }
  | .active => s.modTwn fun x => { x with fit := true, ackAt := s.now }
  | .joining => (s.modTwn fun x => { x with fit := true }).twnJoin
  | .standby => (s.modTwn fun x => { x with fit := true }).twnJoin
  | .unfit => (s.modTwn fun x => { x with fit := true }).twnJoin

/-- A command register of a page that an image may preload takes `v`: none where the value is not one of its map, or the
command is refused with WREFUSED alone. -/
def State.cmdPut (s : State) (a : Nat) (v : Word) : Option State :=
  let p := a / 0x1000
  let off := a % 0x1000
  match p, off with
  | 0x0a, 0x40 => oneCmd v (s.sigSnap v)
  | 0x02, 0x20 => s.swCmd v
  | 0x02, 0x30 => oneCmd v (s.rtcSnap v)
  | 0x20, 0xc0 => oneCmd v (s.netClear 0 v)
  | 0x21, 0xc0 => oneCmd v (s.netClear 1 v)
  | 0x22, 0x44 => if v = 1 then s.winCommit .trd else none
  | 0x23, 0x24 => if v = 1 then s.winCommit .twp else none
  | 0x2c, 0x44 => if v = 1 then s.winCommit .mvb else none
  | 0x2d, 0x24 => if v = 1 then s.winCommit .brg else none
  | 0x24, 0x30 => oneCmd v (s.timeSnap v)
  | 0x24, 0x54 => oneCmd v (s.setCmd v)
  | 0x28, 0x2c => oneCmd v (s.canCmd 0 v)
  | 0x29, 0x2c => oneCmd v (s.canCmd 1 v)
  | 0x2a, 0x2c => oneCmd v (s.canCmd 2 v)
  | 0x2b, 0x2c => oneCmd v (s.canCmd 3 v)
  | 0x39, 0x38 => oneCmd v s.twnRejoin
  | _, 0x94 => if 0x10 ≤ p ∧ p ≤ 0x13 then some (s.tpReq (p - 0x10) v) else none
  | _, _ => none

/-- A control register whose value has an effect of its own takes `v`; any other register just holds it. -/
def State.plainPut (s : State) (a : Nat) (v : Word) : State :=
  let p := a / 0x1000
  let off := a % 0x1000
  match p, off with
  | 0x20, 0x08 => (s.wr a v).ipChain 0
  | 0x21, 0x08 => (s.wr a v).ipChain 1
  | 0x20, 0x30 => (s.wr a v).ipChain 0
  | 0x21, 0x30 => (s.wr a v).ipChain 1
  | 0x24, 0x08 => s.ptpCtrlWrite v
  | 0x28, 0x08 => s.canCtrlWrite 0 v
  | 0x29, 0x08 => s.canCtrlWrite 1 v
  | 0x2a, 0x08 => s.canCtrlWrite 2 v
  | 0x2b, 0x08 => s.canCtrlWrite 3 v
  | 0x39, 0x08 => s.twnCtrlWrite v
  | 0x03, 0x24 => (s.wr a v).opLimits
  | 0x02, _ => match arrayIdx 0x40 16 4 off with
    | some k => s.wr a (s.gateNew k v)
    | none => s.wr a v
  | 0x17, _ => match arrayIdx 0x100 24 0x40 off with
    | some m => (s.wr a v).mcfgPut m (s.rd a)
    | none => s.wr a v
  | _, _ =>
    if 0x10 ≤ p ∧ p ≤ 0x13 ∧ off < 0x50 then (s.wr a v).tpFollow s (p - 0x10)
    else if p = 0x15 ∨ p = 0x16 then
      match (List.range 6).find? fun i => a == Reg.axsAcfg (p - 0x15) i with
      | some i => (s.wr a v).acfgPut (6 * (p - 0x15) + i) (s.rd a)
      | none => s.wr a v
    else s.wr a v

end Sys2Proof.Machine
end

