-- ==== Sys2Proof/Machine/Image.lean ====
section
/-!
DEFINITION. The checks that the loader makes on an image, in the order of spec/03_program_image.md R92, with what the other
chapters add to them (spec/04_block_library.md R93 to R129, spec/05_tasks_and_modes.md R138, R139, spec/07_field_io.md R219,
spec/09_axes_and_safe_motion.md R249 to R260, spec/10_decimation.md R275, spec/11_train_network.md R302, R310,
spec/12_bridges.md R324, R328, spec/13_time.md R355, spec/17_start_up_and_update.md R438, R439).
-/
namespace Sys2Proof.Machine

/-! ## The image in the flash (R76, R78, spec/17_start_up_and_update.md R438) -/

/-- A word of the stored image, at a byte address. -/
def State.flashWord (s : State) (a : Nat) : Word := s.cfgFlash.readWord flashFill a

/-- Bytes of the stored image. -/
def State.flashBytes (s : State) (a n : Nat) : List Byte := s.cfgFlash.readBytes flashFill a n

/-- A section entry: SECID, OFFSET, LENGTH, SECCRC. -/
structure SecEntry where
  id  : Word
  off : Nat
  len : Nat
  crc : Word
deriving DecidableEq, Repr

def State.flashSec (s : State) (k : Nat) : SecEntry :=
  let a := 0x40 + 16 * k
  ⟨s.flashWord a, (s.flashWord (a + 4)).toNat, (s.flashWord (a + 8)).toNat, s.flashWord (a + 12)⟩

def State.flashLen (s : State) : Nat := (s.flashWord 8).toNat

/-- The end of the section before entry `k`; the header before the first. -/
def State.secEnd (s : State) (k : Nat) : Nat :=
  if k = 0 then 256 else (s.flashSec (k - 1)).off + (s.flashSec (k - 1)).len

/-- 0x3810. -/
def State.headerOk (s : State) : Bool :=
  s.flashWord 0 == 0x48534843 && s.flashWord 4 == 0x01000001 && fld (s.flashWord 0x0c) 2 30 == 0 &&
    fld (s.flashWord 0x10) 8 24 == 0 && s.flashWord 0x1c == 0 &&
    ((List.range 6).all fun i => s.flashWord (0x28 + 4 * i) == 0) &&
    (List.range 11).all fun i => s.flashWord (0xd0 + 4 * i) == 0

/-- 0x3811. -/
def State.headerCrcOk (s : State) : Bool := s.flashWord 0xfc == crc32 (s.flashBytes 0 0xfc)

/-- 0x3812: one section entry. -/
def State.sectionOk (s : State) (k : Nat) : Bool :=
  let e := s.flashSec k
  e.id == wd (k + 1) &&
    (if e.len = 0 then (3 ≤ k && k ≤ 7) && e.off == s.secEnd k
     else e.off % 32 == 0 && decide (s.secEnd k ≤ e.off))

def State.sectionsOk (s : State) : Bool := (List.range 9).all s.sectionOk && s.secEnd 9 == s.flashLen

/-- 0x3813. -/
def State.crcsOk (s : State) : Bool :=
  ((List.range 8).all fun k =>
    let e := s.flashSec k
    e.crc == crc32 (s.flashBytes e.off e.len)) && (s.flashSec 8).crc == 0

/-- A word of a section; zero beyond its end. -/
def State.secWord (s : State) (k i : Nat) : Nat :=
  let e := s.flashSec k
  if 4 * i + 4 ≤ e.len then (s.flashWord (e.off + 4 * i)).toNat else 0

/-- 0x3814. -/
def State.limitsOk (s : State) : Bool :=
  let len (k : Nat) : Nat := (s.flashSec k).len
  let ndesc := s.secWord 0 0
  let nmap (k : Nat) : Nat := s.secWord k 0
  decide (s.flashLen ≤ 10485760) && decide (ndesc ≤ 262144) && decide (s.secWord 1 0 ≤ 3145728) &&
    decide (s.secWord 1 1 ≤ 131072) && decide (s.secWord 2 64 ≤ 4096) && decide (nmap 3 + nmap 4 ≤ 32768) &&
    decide (32 + 32 * ndesc + 4 * s.secWord 0 1 ≤ len 0) && decide (16 + 16 * s.secWord 1 1 ≤ len 1) &&
    decide (292 + 16 * s.secWord 2 64 ≤ len 2) &&
    [3, 4].all fun k => len k == 0 || decide (8 + 16 * nmap k ≤ len k)

/-- The public key of a slot, as the key block holds it (R438). -/
def State.keyBytes (s : State) (k : Nat) : List Byte := s.flashBytes (0xa00000 + 64 * k) 64

/-- An OTP slot holds a key's hash. -/
def OtpSlot.provisioned (o : OtpSlot) : Bool := o.hash != 0

/-- A signature by slot `k` over a message passes (R439). -/
def State.signatureOk (s : State) (k : Nat) (msg : List Byte) (r s' : Nat) (otpOk : Bool) : Bool :=
  let o := Vec.at s.upd.otp k ⟨0, false⟩
  let key := s.keyBytes k
  otpOk && o.provisioned && !o.revoked && o.hash.toNat == sha256Nat key &&
    ecdsaOk (beNat (key.take 32)) (beNat (key.drop 32)) (sha256Nat msg) r s'

/-- 0x381d. -/
def State.signOk (s : State) (otpOk : Bool) : Bool :=
  let e := s.flashSec 8
  let b := s.flashBytes e.off 96
  let w0 := s.flashWord e.off
  e.len == 96 && decide (w0.toNat < 4) && s.flashWord (e.off + 4) == 1 && beNat (b.drop 72) == 0 &&
    s.signatureOk w0.toNat (s.flashBytes 0 e.off) (beNat ((b.drop 8).take 32)) (beNat ((b.drop 40).take 32)) otpOk

/-- The bytes of a flash from `a` on, `n` of them, as a memory whose unlisted bytes are zero. -/
def flashWalk : Nat → Nat → Memory → Memory
  | 0, _, _ => []
  | n + 1, a, [] => (a, flashFill) :: flashWalk n (a + 1) []
  | n + 1, a, (b, v) :: r =>
    if a = b then (if v = ramFill then flashWalk n (a + 1) r else (a, v) :: flashWalk n (a + 1) r)
    else (a, flashFill) :: flashWalk n (a + 1) ((b, v) :: r)

/-- The state as if the stored image stood in the mirror and nothing else in PIM: the checks read the image there. -/
def State.imageView (s : State) : State :=
  { s with pim := flashWalk s.flashLen 0 s.cfgFlash, imgRun := true, imgSealed := bit (s.flashWord 0x0c) 0 }

/-! ## Descriptors (0x3816) -/

/-- What the library fixes for an opcode: accepted types, PE cost by type, the numbers of read and of written operands, the
operands that must be constant, and the operand that names a table. -/
structure Sig where
  ty  : Nat → Bool
  pe  : Nat → Nat
  rlo : Nat
  rhi : Nat
  wlo : Nat
  whi : Nat
  con : List Nat
  tab : Option Nat

/-- Fixed numbers of operands. -/
def sig (ty : Nat → Bool) (pe r w : Nat) : Sig := ⟨ty, fun _ => pe, r, r, w, w, [], none⟩
/-- A cost of its own for REAL. -/
def sigR (ty : Nat → Bool) (pe real r w : Nat) : Sig := ⟨ty, fun t => if t = tREAL then real else pe, r, r, w, w, [], none⟩
def Sig.reads (x : Sig) (lo hi : Nat) : Sig := { x with rlo := lo, rhi := hi }
def Sig.writes (x : Sig) (lo hi : Nat) : Sig := { x with wlo := lo, whi := hi }
def Sig.const (x : Sig) (l : List Nat) : Sig := { x with con := l }
def Sig.table (x : Sig) (k : Nat) : Sig := { x with tab := some k }

/-- One of a list of types. -/
def tyIn (l : List Nat) (t : Nat) : Bool := l.contains t

/-- The block tables (spec/04_block_library.md R102 to R123). -/
def blockSig (opc : Nat) : Option Sig :=
  match opc with
  | 0x041 => some ((sig tyBIT 2 2 1).reads 2 32)
  | 0x042 => some ((sig tyBIT 2 2 1).reads 2 32)
  | 0x043 => some ((sig tyBIT 2 2 1).reads 2 32)
  | 0x044 => some (sig tyBIT 1 1 1)
  | 0x045 => some (sig tyBS 1 2 1)
  | 0x046 => some (sig tyBS 1 2 1)
  | 0x047 => some (sig tyBS 1 2 1)
  | 0x048 => some (sig tyBS 1 2 1)
  | 0x049 => some (sig tyALL 1 1 1)
  | 0x081 => some (sigR tyALL 1 2 2 1)
  | 0x082 => some (sigR tyALL 1 2 2 1)
  | 0x083 => some (sigR tyNUM 1 2 2 1)
  | 0x084 => some (sigR tyNUM 1 2 2 1)
  | 0x085 => some (sigR tyNUM 1 2 2 1)
  | 0x086 => some (sigR tyNUM 1 2 2 1)
  | 0x087 => some (sigR tyNUM 2 3 3 1)
  | 0x088 => some (sigR tyNUM 3 4 3 1)
  | 0x0c1 => some (sigR tyNUM 1 2 2 1)
  | 0x0c2 => some (sigR tyNUM 1 2 2 1)
  | 0x0c3 => some (sig tyNUM 2 2 1)
  | 0x0c4 => some (sig tyNUM 4 2 2)
  | 0x0c5 => some (sig tyINT 4 2 2)
  | 0x0c6 => some (sig tyINT 1 2 1)
  | 0x0c7 => some (sig tyINT 1 2 1)
  | 0x0c8 => some (sig tyINT 2 2 1)
  | 0x0c9 => some (sig (fun t => tySI t || t == tREAL) 1 1 1)
  | 0x0ca => some (sig (tyIn [tREAL]) 6 1 1)
  | 0x0cb => some (sig (tyIn [tDINT, tUDINT, tTIME, tPOS]) 5 3 2)
  | 0x102 => some (sig tyINT 2 1 1)
  | 0x141 => some (sig tyALL 1 3 1)
  | 0x142 => some ((sig tyALL 2 3 1).reads 3 33)
  | 0x143 => some ((sigR tyNUM 2 3 2 1).reads 2 32)
  | 0x144 => some ((sigR tyNUM 2 3 2 1).reads 2 32)
  | 0x145 => some (sigR tyNUM 2 3 3 1)
  | 0x181 => some (sig (tyIn [tBOOL]) 2 1 1)
  | 0x182 => some (sig (tyIn [tBOOL]) 2 1 1)
  | 0x183 => some (sig (tyIn [tBOOL]) 2 2 1)
  | 0x184 => some (sig (tyIn [tBOOL]) 2 2 1)
  | 0x1c1 => some (sig (tyIn [tTIME]) 6 2 2)
  | 0x1c2 => some (sig (tyIn [tTIME]) 6 2 2)
  | 0x1c3 => some (sig (tyIn [tTIME]) 6 2 2)
  | 0x1c4 => some (sig (tyIn [tTIME]) 7 3 2)
  | 0x201 => some (sig (tyIn [tDINT, tUDINT]) 4 3 2)
  | 0x202 => some (sig (tyIn [tDINT, tUDINT]) 4 3 2)
  | 0x203 => some (sig (tyIn [tDINT, tUDINT]) 6 5 3)
  | 0x241 => some (sig (tyIn [tREAL]) 6 2 1)
  | 0x242 => some (sig (tyIn [tBOOL]) 5 2 1)
  | 0x243 => some (sig (tyIn [tDINT, tREAL]) 10 2 1)
  | 0x244 => some (sig (tyIn [tREAL]) 6 3 1)
  | 0x281 => some (sig (tyIn [tREAL]) 24 8 2)
  | 0x282 => some (sig (tyIn [tREAL]) 32 9 2)
  | 0x2c1 => some ((sig (tyIn [tDINT, tREAL]) 12 2 1).table 1)
  | 0x2c2 => some (sig (tyIn [tREAL]) 5 5 1)
  | 0x2c3 => some ((sig (fun t => tyBS t || tyINT t || t == tREAL) 2 2 2).table 1)
  | 0x301 => some ((sig (tyIn [tUDINT]) 8 3 3).const [2])
  | 0x302 => some (((sig (tyIn [tUDINT]) 10 4 3).const [2]).table 3)
  | 0x341 => some ((sig (tyIn [tBOOL]) 5 3 2).const [2])
  | 0x342 => some (sig (tyIn [tBOOL]) 6 3 2)
  | 0x343 => some (sig (tyIn [tBOOL]) 8 4 2)
  | 0x344 => some (sig (tyIn [tBOOL]) 8 4 2)
  | 0x345 => some (sig (tyIn [tBOOL]) 8 5 2)
  | 0x381 => some (sig (tyIn [tDINT]) 6 1 1)
  | 0x382 => some ((sig (tyIn [tPOS]) 8 5 1).const [0, 1])
  | 0x383 => some ((sig (tyIn [tUDINT]) 4 2 1).const [0])
  | 0x3c1 => some (sig (tyIn [tUDINT]) 2 2 2)
  | 0x3c2 => some ((sig (tyIn [tDWORD]) 2 1 1).reads 1 32)
  | 0x3c3 => some ((sig (tyIn [tDWORD]) 2 1 1).writes 1 32)
  | 0x3c4 => some (sig (tyIn [tWORD, tDWORD]) 1 1 1)
  | 0x401 => some (((sig (tyIn [tDWORD]) 6 3 1).reads 3 18).const [1])
  | 0x402 => some (((sig (tyIn [tDWORD]) 6 2 3).writes 3 18).const [1])
  | 0x441 => some ((sig (tyIn [tDWORD]) 4 2 1).reads 2 10)
  | _ =>
    if isConv opc then
      let src := opc - 0x110
      some (sig (fun t => tyALL t && !(src == tREAL && tyBS t) && !(tyBS src && t == tREAL))
        (if src = tREAL then 2 else 1) 1 1)
    else none

/-- The PE cost: a CONV to REAL costs 2 as well (R103). -/
def peCostOf (opc dty : Nat) (g : Sig) : Nat := if isConv opc ∧ dty = tREAL then 2 else g.pe dty

/-- The words of a descriptor, and the fields of its header. -/
def State.descWord (s : State) (d i : Nat) : Word := s.pimRd (s.descAt d + i)
def State.opcOf (s : State) (d : Nat) : Nat := fld (s.descWord d 0) 0 12
def State.dtyOf (s : State) (d : Nat) : Nat := fld (s.descWord d 0) 12 4
def State.irefOf (s : State) (d : Nat) : Nat := fld (s.descWord d 1) 0 24
def State.nconst (s : State) : Nat := (s.pimRd (s.secAt 0 + 1)).toNat

/-- The slot is a CONST reference, or one of constant space. -/
def isConstRef (w : Word) : Bool := !refPim (slotRef w) && refPart (slotRef w) == 1
def isConstant (w : Word) : Bool := !refPim (slotRef w) && decide (refPart (slotRef w) ≤ 1)

/-- The value of a constant operand. -/
def State.constOf (s : State) (w : Word) : Nat :=
  let i := refIdx (slotRef w)
  if refPart (slotRef w) = 1 then (s.pimRd (s.constAt i)).toNat else (wi (sfld (wd i) 0 20)).toNat

/-- `n` constants from index `c` on stand in the pool. -/
def State.poolHas (s : State) (c n : Nat) : Bool := decide (c + n ≤ s.nconst)

/-- The table of LIN, LOOKUP or SEQT keeps its limits (spec/04_block_library.md R114, R115). -/
def State.tableOk (s : State) (opc dty : Nat) (slots : List Word) (k : Nat) : Bool :=
  let w := slots.getD k 0
  if !isConstRef w then true else
  let c := refIdx (slotRef w)
  let n := (s.pimRd (s.constAt c)).toNat
  if opc = 0x302 then
    let n := s.constOf (slots.getD 2 0)
    s.poolHas c n && (List.range n).all fun i => decide ((s.pimRd (s.constAt (c + i))).toNat < n)
  else if opc = 0x2c3 then within 1 4096 n && s.poolHas c (n + 1)
  else
    within 2 64 n && s.poolHas c (2 * n + 1) &&
      (List.range (n - 1)).all fun i => cmpLt dty (s.pimRd (s.constAt (c + 1 + 2 * i))) (s.pimRd (s.constAt (c + 3 + 2 * i)))

/-- The operands that name a resource by a constant: NSTEP, AX and SL, M (R115, R125). -/
def State.namesOk (s : State) (opc : Nat) (slots : List Word) : Bool :=
  let c (k : Nat) : Nat := s.constOf (slots.getD k 0)
  let ok (k lo hi : Nat) : Bool := !isConstant (slots.getD k 0) || within lo hi (c k)
  match opc with
  | 0x301 => ok 2 1 32
  | 0x302 => ok 2 1 32
  | 0x382 => ok 0 0 11 && ok 1 0 7
  | 0x383 => ok 0 0 23
  | _ => true

/-- The read operands stand first. -/
def readCount (slots : List Word) : Nat := (slots.takeWhile fun w => !slotOut w).length

/-- The operands of a descriptor with their types. -/
def State.typedSlots (s : State) (d : Nat) : List (Word × Nat) :=
  let slots := s.slotsOf d
  let r := readCount slots
  let opc := s.opcOf d
  let dty := s.dtyOf d
  match blockOf opc with
  | none => []
  | some b => slots.zipIdx.map fun p => (p.1, if p.2 < r then b.inTy dty (opc % 64) p.2 else b.outTy dty (p.2 - r))

/-- BIT and INV stand only in an operand of type BOOL (R66). -/
def boolFieldsOk (w : Word) (ty : Nat) : Bool := ty == tBOOL || (slotBit w == 0 && !slotInv w)

/-- 0x3816 for descriptor `d`. -/
def State.descOk (s : State) (d : Nat) : Bool :=
  let h := s.descWord d 0
  let opc := s.opcOf d
  let dty := s.dtyOf d
  let nops := fld h 16 3
  let ext := bit h 19
  let xcnt := fld (s.descWord d 1) 24 8
  let ptr := s.descWord d 7
  match blockSig opc with
  | none => false
  | some g =>
    let slots := s.slotsOf d
    let r := readCount slots
    g.ty dty && fld h 24 8 == peCostOf opc dty g && fld h 21 3 == 0 && !(bit h 20 && s.imgSealed) && decide (nops ≤ 6) &&
      (if ext then nops == 6 && isConstRef ptr && fld ptr 24 8 == 0 && decide (2 ≤ xcnt) && s.poolHas (refIdx (slotRef ptr)) xcnt
        else xcnt == 0) &&
      ((List.range (6 - nops)).all fun i => s.descWord d (2 + nops + i) == 0) &&
      (slots.all fun w => !bit w 31) && ((slots.drop r).all slotOut) && ((s.typedSlots d).all fun p => boolFieldsOk p.1 p.2) &&
      within g.rlo g.rhi r && within g.wlo g.whi (slots.length - r) && s.namesOk opc slots &&
      (match g.tab with
        | none => true
        | some k => s.tableOk opc dty slots k)

/-- 0x3816. -/
def State.descsOk (s : State) : Bool :=
  ((List.range 6).all fun i => s.pimRd (s.secAt 0 + 2 + i) == 0) && (List.range s.ndesc).all s.descOk

/-! ## Operand references (0x3817) -/

/-- The AXIS registers of R249: those that may be read, and the one that may be written. -/
def axisIdxOk (idx : Nat) (write : Bool) : Bool :=
  let r := idx % 0x10000
  decide (idx / 0x10000 ≤ 11) && (if write then r == 8 else decide (r ≤ 3) || within 0x10 0x2f r)

/-- Space and index, and direction. -/
def State.refOk (s : State) (w : Word) : Bool :=
  let r := slotRef w
  let i := refIdx r
  let out := slotOut w
  (if refPim r then decide (pimInst ≤ r) && decide (r < pimInst + s.instWords) else
      match refPart r with
      | 0 => !out
      | 1 => !out && decide (i < s.nconst)
      | 2 => !out && decide (i < 16384)
      | 3 => decide (i < 16384)
      | 4 => axisIdxOk i out
      | 5 => decide (i ≤ 6) && (!out || i == 4)
      | 6 => !out && decide (i < 16384)
      | _ => false)

/-- The map entry of a process-image word, in its direction. -/
def State.mapOf (s : State) (out : Bool) (n : Nat) : Option MapE := s.maps.find? fun m => m.out == out && m.piw == n

/-- The type of what a slot writes: OVF is a BOOL, an AXIS PRESET a POS (R64, spec/09_axes_and_safe_motion.md R249; log entry
16). -/
def writeTypeOk (w : Word) (ty : Nat) : Bool :=
  let r := slotRef w
  if !slotOut w || refPim r then true
  else if refPart r = 4 then ty == tPOS else if refPart r = 5 then ty == tBOOL else true

/-- A reference in task `t` names only words mapped for the task (R87). -/
def State.refOwned (s : State) (t : Nat) (w : Word) : Bool :=
  let r := slotRef w
  let ok (out : Bool) : Bool := match s.mapOf out (refIdx r) with
    | none => false
    | some m => bit m.tmask t
  if refPim r then true else
  match refPart r with
  | 2 => ok false
  | 6 => ok false
  | 3 => ok true
  | _ => true

/-- The references of one descriptor, with its constants in constant space. -/
def State.descRefsOk (s : State) (d : Nat) : Bool :=
  let slots := s.slotsOf d
  (slots.all fun w => s.refOk w) && ((s.typedSlots d).all fun p => writeTypeOk p.1 p.2) &&
    match blockSig (s.opcOf d) with
    | none => false
    | some g => (g.con.all fun k => isConstant (slots.getD k 0)) &&
      match g.tab with
      | none => true
      | some k => isConstRef (slots.getD k 0)

/-- The segment entries of a task that stand in the section, and the descriptors in them. -/
def State.taskSegs (s : State) (t : Nat) : List Nat :=
  let r := s.taskRecAt t
  if !r.en then [] else ((List.range r.segCount).map fun i => r.segFirst + i).filter fun i => decide (i < s.nseg)
def State.segDescs (s : State) (i : Nat) : List Nat :=
  let g := s.seg i
  (List.range (min g.2.1 s.ndesc)).filterMap fun k => if g.1 + k < s.ndesc then some (g.1 + k) else none

/-- The COND of a segment: none, or a BOOL operand that is read. -/
def State.condOk (s : State) (i : Nat) : Bool :=
  let c := (s.seg i).2.2
  c == 0 || (!slotOut c && !bit c 31 && s.refOk c)

/-- What task `t` refers to: the slots of its descriptors, and its CONDs. -/
def State.taskSlots (s : State) (t : Nat) : List Word :=
  (s.taskSegs t).flatMap fun i =>
    (let c := (s.seg i).2.2
     if c = 0 then [] else [c]) ++ (s.segDescs i).flatMap s.slotsOf

/-- Instance words of descriptor `d`, header included; 0 where the block has none. -/
def State.instLen (s : State) (d : Nat) : Nat :=
  match blockOf (s.opcOf d) with
  | none => 0
  | some b => if b.words = 0 then 0 else b.words + 1

/-- The word lies in some block's instance data. -/
def State.inInstance (s : State) (w : Nat) : Bool :=
  (List.range s.ndesc).any fun d => decide (s.irefOf d ≤ w) && decide (w < s.irefOf d + s.instLen d)

/-- R138: what task `t` writes outside instance data no other task touches. -/
def State.taskWritesOk (s : State) (t : Nat) : Bool :=
  ((s.taskSlots t).filter fun w => slotOut w && refPim (slotRef w) && !s.inInstance (slotRef w)).all fun w =>
    (List.range 8).all fun u => u == t || !(s.taskSlots u).any fun x => slotRef x == slotRef w

/-- The descriptors of an opcode in a task. -/
def State.taskBlocks (s : State) (t opc : Nat) : List Nat :=
  ((s.taskSegs t).flatMap s.segDescs).filter fun d => s.opcOf d == opc

/-- No two of the tasks have a block of an opcode that names the same resource. -/
def State.oneTaskEach (s : State) (opc : Nat) (key : Nat → Nat) : Bool :=
  (List.range 8).all fun t => (List.range t).all fun u =>
    (s.taskBlocks t opc).all fun d => (s.taskBlocks u opc).all fun e => key d != key e

/-- The value of constant operand `k` of descriptor `d`. -/
def State.constArg (s : State) (d k : Nat) : Nat := s.constOf ((s.slotsOf d).getD k 0)

/-- No number stands twice in a list. -/
def noDup : List Nat → Bool
  | [] => true
  | a :: r => !r.contains a && noDup r

/-- LOC of a tag: a slot that is read and not inverted, into the instance region or the process images, with every element
inside. -/
def State.tagLocOk (s : State) (g : Tag) : Bool :=
  let last := (g.elem (g.count - 1)).1
  let r := g.ref
  !slotOut g.loc && !slotInv g.loc && !bit g.loc 31 && (g.dtype == 0 || slotBit g.loc == 0) &&
    (if refPim r then decide (pimInst ≤ r) && decide (last < pimInst + s.instWords)
     else (refPart r == 2 || refPart r == 3) && decide (refIdx r < 16384) && decide (last ≤ r - refIdx r + 16383))

/-- 0x3817. -/
def State.refsOk (s : State) : Bool :=
  ((List.range s.ndesc).all s.descRefsOk) && ((List.range s.nseg).all s.condOk) && (s.tags.all s.tagLocOk) &&
    ((List.range 8).all fun t => (s.taskSlots t).all (s.refOwned t) && s.taskWritesOk t) &&
    s.oneTaskEach 0x382 (fun d => 8 * s.constArg d 0 + s.constArg d 1) && s.oneTaskEach 0x383 (fun d => s.constArg d 0) &&
    noDup (((List.range s.ndesc).filter fun d => s.opcOf d == 0x402).map fun d => s.constArg d 1)

/-! ## Instance data and segments (0x3818) -/

/-- The initialisation records: address, count and the PIM word of the first data word; false where one runs past the
section's end. -/
def State.initWalk (s : State) (fin : Nat) : Nat → Nat → List (Nat × Nat × Nat) × Bool
  | 0, _ => ([], true)
  | n + 1, a =>
    let c := (s.pimRd (a + 1)).toNat
    if a + 2 + c ≤ fin then
      let x := s.initWalk fin n (a + 2 + c)
      (((s.pimRd a).toNat, c, a + 2) :: x.1, x.2)
    else ([], false)

def State.initRecs (s : State) : List (Nat × Nat × Nat) × Bool :=
  s.initWalk (s.secAt 1 + s.secLen 1 / 4) (s.pimRd (s.secAt 1 + 2)).toNat (s.secAt 1 + 4 + 4 * s.ntag)

/-- What INIT gives an instance word: the data of its record, or zero (R82). -/
def State.initValue (s : State) (w : Nat) : Word :=
  match s.initRecs.1.find? fun r => decide (r.1 ≤ w) && decide (w < r.1 + r.2.1) with
  | none => 0
  | some r => s.pimRd (r.2.2 + (w - r.1))

/-- R70 and R117 for descriptor `d`. -/
def State.instanceOk (s : State) (d : Nat) : Bool :=
  let n := s.instLen d
  let a := s.irefOf d
  if n = 0 then a == 0 else
  decide (pimInst ≤ a) && decide (a + n ≤ pimInst + s.instWords) && s.initValue a == wd (s.opcOf d) &&
    (s.opcOf d / 64 != 0x0d || (List.range (n - 1)).all fun i => s.initValue (a + 1 + i) == 0)

/-- No two descriptors have overlapping instance data. -/
def State.instancesApart (s : State) : Bool :=
  (List.range s.ndesc).all fun d => (List.range d).all fun e => !overlap (s.irefOf d, s.instLen d) (s.irefOf e, s.instLen e)

/-- No slot written addresses an instance header. -/
def State.headersSafe (s : State) : Bool :=
  let heads := ((List.range s.ndesc).filter fun d => s.instLen d != 0).map s.irefOf
  (List.range s.ndesc).all fun d => (s.slotsOf d).all fun w => !(slotOut w && heads.contains (slotRef w))

/-- Each descriptor is in one segment at most, each segment in one task (R72). -/
def State.membersOk (s : State) : Bool :=
  ((List.range s.nseg).all fun i => (List.range i).all fun j =>
    !overlap ((s.seg i).1, (s.seg i).2.1) ((s.seg j).1, (s.seg j).2.1)) &&
  ((List.range s.nseg).all fun i => (List.range 8).any fun t =>
    (s.taskRecAt t).en && decide ((s.taskRecAt t).segFirst ≤ i) && decide (i < (s.taskRecAt t).segFirst + (s.taskRecAt t).segCount)) &&
  (List.range 8).all fun t => (List.range t).all fun u =>
    !((s.taskRecAt t).en && (s.taskRecAt u).en &&
      overlap ((s.taskRecAt t).segFirst, (s.taskRecAt t).segCount) ((s.taskRecAt u).segFirst, (s.taskRecAt u).segCount))

/-- 0x3818. -/
def State.layoutOk (s : State) : Bool :=
  ((List.range s.ndesc).all s.instanceOk) && s.instancesApart && s.headersSafe && s.membersOk

/-! ## INIT (0x3819) -/

/-- A tag entry (R73). Bits [7:4] of word 2, of which the rule says nothing, must be zero (DESIGN CHOICE, log entry 62). -/
def State.tagOk (s : State) (i : Nat) : Bool :=
  let g := s.tag i
  g.id != 0 && g.id != 0xffffffff && decide (g.dtype ≤ 12) && decide (1 ≤ g.count) && fld g.info 4 4 == 0 &&
    fld g.info 10 6 == 0 && s.pimRd (s.secAt 1 + 7 + 4 * i) == 0

def State.initOk (s : State) : Bool :=
  let rs := s.initRecs
  s.pimRd (s.secAt 1 + 3) == 0 && ((List.range s.ntag).all s.tagOk) && noDup (s.tags.map fun g => g.id.toNat) && rs.2 &&
    (rs.1.all fun r => decide (1 ≤ r.2.1) && decide (pimInst ≤ r.1) && decide (r.1 + r.2.1 ≤ pimInst + s.instWords)) &&
    (List.range rs.1.length).all fun i => (List.range i).all fun j =>
      let a := rs.1.getD i (0, 0, 0)
      let b := rs.1.getD j (0, 0, 0)
      !overlap (a.1, a.2.1) (b.1, b.2.1)

/-! ## TASK (0x381a) -/

/-- The least WCPE of a task (spec/05_tasks_and_modes.md R139). -/
def State.wcpeMin (s : State) (t : Nat) : Nat :=
  ((s.taskSegs t).map fun i => 1 + ((s.segDescs i).map fun d => fld (s.descWord d 0) 24 8).sum).sum

/-- TSRC by TRIG (R83). Bit 11 for an axis trigger and bits [15:13] for a doorbell, which the rule does not list, must be zero
(DESIGN CHOICE, log entry 62). -/
def tsrcOk (trig tsrc : Nat) : Bool :=
  match trig with
  | 0 => tsrc == 0
  | 1 => decide (tsrc / 16 ≤ 11) && decide (tsrc % 16 ≤ 7)
  | 2 => true
  | _ => decide (tsrc < 32)

def State.taskOk (s : State) (t : Nat) : Bool :=
  let a := s.secAt 2 + 8 * t
  let r := s.taskRecAt t
  if !r.en then (List.range 8).all fun i => s.pimRd (a + i) == 0
  else
    r.word0 &&& 0xfff000f8 == 0 && tsrcOk r.trig r.tsrc && within 1 4 r.stretch && (decide (4 ≤ t) || r.stretch == 1) &&
      within 50 10000000 r.period && decide (r.phase < r.period) && (r.trig == 0 || r.phase == 0) && decide (r.commit ≤ r.period) &&
      decide ((s.pimRd (a + 4)).toNat < 4096) && within 1 4096 (s.pimRd (a + 5)).toNat && decide (r.segFirst + r.segCount ≤ s.nseg) &&
      s.pimRd (a + 7) == 0 && decide (s.wcpeMin t ≤ r.wcpe)

def State.segOk (s : State) (i : Nat) : Bool :=
  let a := s.secAt 2 + 72 + 4 * i
  decide ((s.pimRd a).toNat < 262144) && within 1 262144 (s.pimRd (a + 1)).toNat &&
    decide ((s.pimRd a).toNat + (s.pimRd (a + 1)).toNat ≤ s.ndesc) && s.pimRd (a + 3) == 0

def State.tasksOk (s : State) : Bool :=
  ((List.range 8).all s.taskOk) && ((List.range 7).all fun i => s.pimRd (s.secAt 2 + 65 + i) == 0) &&
    (List.range s.nseg).all s.segOk

/-! ## Preload records (R88, R89) -/

/-- A preload record: KIND, page, TARGET, the table number of a table entry, and its data words. -/
structure PreRec where
  kind   : Nat
  page   : Nat
  target : Nat
  table  : Nat
  words  : List Word
deriving DecidableEq, Repr

/-- `n` records from word `a` on; false where one runs past the section's end. -/
def State.preWalk (s : State) (fin : Nat) : Nat → Nat → List PreRec × Bool
  | 0, _ => ([], true)
  | n + 1, a =>
    let h := s.pimRd a
    let x := s.pimRd (a + 1)
    let k := fld h 24 8
    let c := if k = 2 then fld x 8 8 else 0
    if a + 2 + c ≤ fin then
      let ws := if k = 2 then s.pimRds (a + 2) c else [x]
      let rest := s.preWalk fin n (a + 2 + c)
      (⟨k, fld h 16 8, fld h 0 16, fld x 0 8, ws⟩ :: rest.1, rest.2)
    else ([], false)

/-- The records of a section. -/
def State.preSec (s : State) (k : Nat) : List PreRec × Bool :=
  if s.secLen k = 0 then ([], true) else
  let a := s.secAt k
  let fin := a + s.secLen k / 4
  let at' := if k = 2 then a + 72 + 4 * s.nseg else if k ≤ 4 then a + 1 else a
  let from' := if k = 2 then at' + 1 else if k ≤ 4 then a + 2 + 4 * (s.pimRd a).toNat else at' + 1
  if at' < fin then s.preWalk fin (s.pimRd at').toNat from' else ([], false)

/-- Every record of the image, with its section, in image order. -/
def State.preloads (s : State) : List (Nat × PreRec) :=
  [2, 3, 4, 5, 6, 7].flatMap fun k => (s.preSec k).1.map fun r => (k, r)

/-- The pages that a section may preload (R89). -/
def preloadPages (k : Nat) : List Nat :=
  match k with
  | 2 => [0x08, 0x09, 0x0a, 0x0b, 0x02, 0x03, 0x39]
  | 3 => [0x10, 0x11, 0x12, 0x13, 0x15, 0x16, 0x19]
  | 4 => [0x20, 0x21, 0x22, 0x23, 0x24, 0x28, 0x29, 0x2a, 0x2b, 0x2c, 0x2d]
  | 5 => [0x14]
  | 6 => [0x17]
  | _ => [0x18]

/-- The table that a record's page and table number name. -/
def PreRec.tableNo (r : PreRec) : Option Nat :=
  match r.page, r.table with
  | 0x22, 0 => some 0
  | 0x22, 1 => some 1
  | 0x23, 0 => some 2
  | 0x2c, 0 => some 3
  | 0x2d, 0 => some 4
  | _, _ => none

/-- How many data words a record of a table may have: 8 for process data and telegrams, and no read-only word otherwise. -/
def tableCountOk (t n : Nat) : Bool :=
  match t with
  | 0 => n == 8
  | 1 => n == 8
  | 2 => n == 8
  | 3 => within 1 2 n
  | _ => within 1 8 n

def PreRec.addr (r : PreRec) : Nat := r.page * 0x1000 + r.target

/-- The value a register record leaves in its register: the defined bits, and GATEk's fixed ones (R40, R414). -/
def State.preValue (s : State) (r : PreRec) (d : RegDef) : Word :=
  let v := r.words.getD 0 0 &&& d.mask
  if r.page = 0x02 then
    match arrayIdx 0x40 16 4 r.target with
    | some k => s.gateNew k v
    | none => v
  else v

/-- The window data words of TRD, TWP, MVB and BRG that are read-only whatever entry is selected (spec/11_train_network.md
R314, R315, spec/12_bridges.md R337, R338). -/
def winDataRo (a : Nat) : Bool := [0x2206c, 0x23050, 0x23054, 0x2c058, 0x2d050].contains a

/-- A record on its own is valid (R88, R89) and its value in range. -/
def PreRec.ok (k : Nat) (r : PreRec) : Bool :=
  (preloadPages k).contains r.page &&
    match r.kind with
    | 1 => r.target % 4 == 0 && (r.target == 8 || decide (0x20 ≤ r.target)) && decide (r.target < 0x1000) && r.addr != Reg.engCtrl &&
      (match regDef r.addr with
        | none => false
        | some d => d.acc != .ro && !winDataRo r.addr && regAlone r.addr (r.words.getD 0 0 &&& d.mask))
    | 2 => match r.tableNo with
      | none => false
      | some t => decide (r.target < tableSize t) && tableCountOk t r.words.length
    | _ => false

/-- The registers and tables after a record, without what its commands do. -/
def State.prePut (s : State) (r : PreRec) : State :=
  match r.kind with
  | 1 => match regDef r.addr with
    | none => s
    | some d => if d.acc = .ro ∨ d.acc = .wo then s else s.wr r.addr (s.preValue r d)
  | 2 => match r.tableNo with
    | none => s
    | some t => s.putEntry t r.target r.words
  | _ => s

/-- The registers and tables as they stand after all preloads. -/
def State.afterPreloads (s : State) : State := s.preloads.foldl (fun s x => s.prePut x.2) s

/-- A record agrees with the registers and tables as they stand after all preloads. -/
def State.preJoint (s : State) (r : PreRec) : Bool :=
  match r.kind with
  | 1 => s.regJoint r.addr && (r.page != 0x02 ||
    match arrayIdx 0x40 16 4 r.target with
    | some k => bit (s.rd (Reg.clkGate k)) 0 || !s.leafBusy k
    | none => true)
  | 2 => match r.tableNo with
    | none => false
    | some t => s.entryOk t r.target
  | _ => false

/-- 0x381c, for the view `s` of the image and the state `post` after its preloads. -/
def State.preloadsOk (s post : State) : Bool :=
  ([2, 3, 4, 5, 6, 7].all fun k => (s.preSec k).2 && (s.preSec k).1.all (PreRec.ok k)) &&
    (s.preloads.all fun x => post.preJoint x.2) && ((List.range 24).all post.monitorOk) && (List.range 64).all post.ruleMonitorOk

/-! ## IOMAP and NETMAP (0x381b) -/

/-- The kinds of map entries: direction, the greatest instance and item, and the SOPT bits an item defines. -/
def kindOf (kind item : Nat) : Option (Bool × Nat × Nat × Word) :=
  match kind with
  | 0x01 => some (false, 3, 2, 0)
  | 0x02 => some (false, 3, 0, 0)
  | 0x03 => some (false, 3, 5, 0)
  | 0x04 => some (true, 3, 0, 0)
  | 0x10 => some (false, 11, 3, 0)
  | 0x11 => some (false, 23, 2, 0)
  | 0x20 => some (false, 15, 3, 0)
  | 0x30 => some (false, 7, 2, 0)
  | 0x40 => some (false, 255, 2, 0x01ff0107)
  | 0x41 => some (true, 255, 0, 0x01ff0103)
  | 0x42 => some (false, 255, 2, 0x3f)
  | 0x43 => some (true, 255, 0, 0x3f)
  | 0x44 => some (false, 127, 1, if item = 0 then 0xffff010f else 0x10f)
  | 0x45 => some (true, 127, 0, 0x10f)
  | _ => none

/-- What no two entries may share: kind, instance or table entry, item and word. -/
def MapE.key (m : MapE) : Nat × Nat × Nat × Nat :=
  match m.kind with
  | 0x40 => (m.kind, m.pdEntry, m.item, fld m.sopt 16 9)
  | 0x41 => (m.kind, m.pdEntry, m.item, fld m.sopt 16 9)
  | 0x42 => (m.kind, m.inst, m.item, fld m.sopt 0 6)
  | 0x43 => (m.kind, m.inst, m.item, fld m.sopt 0 6)
  | 0x44 => (m.kind, m.inst, m.item, fld m.sopt 0 4)
  | 0x45 => (m.kind, m.inst, m.item, fld m.sopt 0 4)
  | _ => (m.kind, m.inst, m.item, 0)

/-- The word lies in the dataset or the vital data of its table entry. -/
def State.mapLenOk (s : State) (m : MapE) : Bool :=
  match m.kind with
  | 0x40 => decide (4 * fld m.sopt 16 9 + 4 ≤ fld (s.tbl 1 m.pdEntry 4) 0 11)
  | 0x41 => decide (4 * fld m.sopt 16 9 + 4 ≤ fld (s.tbl 0 m.pdEntry 4) 0 11)
  | 0x42 => decide (fld m.sopt 0 6 < s.telLen m.inst)
  | 0x43 => decide (fld m.sopt 0 6 < s.telLen m.inst)
  | _ => true

/-- One map entry, of IOMAP (`net` false) or NETMAP. -/
def State.mapEntryOk (s : State) (net : Bool) (m : MapE) : Bool :=
  match kindOf m.kind m.item with
  | none => false
  | some (out, inst, item, opt) =>
    decide (0x40 ≤ m.kind) == net && m.out == out && decide (m.inst ≤ inst) && decide (m.item ≤ item) &&
      m.sopt &&& ~~~opt == 0 && (m.kind != 4 || m.subst == 0) && (!out || popCount m.tmask == 1) && s.mapLenOk m

/-- The reserved bits of entry `i` of a section are zero. -/
def State.mapRawOk (s : State) (k i : Nat) : Bool :=
  let a := s.secAt k + 2 + 4 * i
  s.pimRd a &&& 0x00fec000 == 0 && fld (s.pimRd (a + 1)) 24 8 == 0

/-- Neither the word nor the key of an entry stands in another, and the send words of an area have one task. -/
def mapsApart : List MapE → Bool
  | [] => true
  | m :: r => (r.all fun x => x.piw != m.piw && x.key != m.key &&
      !(m.kind == 0x45 && x.kind == 0x45 && x.inst == m.inst && x.tmask != m.tmask)) && mapsApart r

/-- 0x381b, for the view `s` of the image and the state `post` after its preloads. -/
def State.mapsOk (s post : State) : Bool :=
  ([3, 4].all fun k => (s.mapSec k).all (post.mapEntryOk (k == 4)) &&
    (List.range (s.mapSec k).length).all (s.mapRawOk k)) && mapsApart s.maps

/-! ## All checks (R92) -/

/-- A register that a sealed image's load sets back before the preloads: the writable ones of safety-relevant pages, but for
ENG.CTRL and the locks (R41, R91). -/
def sealResets (a : Nat) : Bool :=
  safetyPage (a / 0x1000) && a != Reg.engCtrl && a % 0x1000 != 0x1c && match regDef a with
    | none => false
    | some d => d.acc == .rw || d.acc == .rwl || d.acc == .rws

/-- The registers and tables before the preloads: under a sealed image those of safety-relevant pages are at reset. -/
def State.sealRegs (s : State) : State :=
  if !s.imgSealed then s
  else { s with regs := s.regs.filter fun e => !sealResets e.1, tables := s.tables.filter fun e => e.1 / 0x10000 != 2 }

/-- The code of the first check that the stored image fails. -/
def State.imageCheck (s : State) (otpOk : Bool) : Option Nat :=
  if !s.headerOk then some 0x3810
  else if !s.headerCrcOk then some 0x3811
  else if !s.sectionsOk then some 0x3812
  else if !s.crcsOk then some 0x3813
  else if !s.limitsOk then some 0x3814
  else if 1 < fld (s.flashWord 0x10) 0 8 then some 0x3815
  else if !s.signOk otpOk then some 0x381d
  else
    let v := s.imageView
    let post := v.sealRegs.afterPreloads
    if !v.descsOk then some 0x3816
    else if !v.refsOk then some 0x3817
    else if !v.layoutOk then some 0x3818
    else if !v.initOk then some 0x3819
    else if !v.tasksOk then some 0x381a
    else if !v.mapsOk post then some 0x381b
    else if !v.preloadsOk post then some 0x381c
    else none

end Sys2Proof.Machine
end

