-- ==== Sys2Proof/Machine/Load.lean ====
section
/-!
DEFINITION. Loading an image into PIM: the mirror, the instance region, the preloads and the claims, with what carries over
an on-line change (spec/03_program_image.md R82, R88, R89, R91, spec/05_tasks_and_modes.md R150 to R153,
spec/09_axes_and_safe_motion.md R254, R256, spec/10_decimation.md R265, spec/11_train_network.md R296, R302, R309,
spec/13_time.md R351, R353, spec/17_start_up_and_update.md R431, R446).
-/
namespace Sys2Proof.Machine

/-! ## PIM -/

/-- The stored image is copied into the image mirror. -/
def State.mirrorCopy (s : State) : State :=
  let n := s.flashLen
  { s with
    pim := flashWalk n 0 s.cfgFlash ++ s.pim.filter fun c => decide (n ≤ c.1)
    imgRun := true
    imgSealed := bit (s.flashWord 0x0c) 0 }

/-- Every instance word takes the data of its record, or zero (R82). -/
def State.instanceInit (s : State) : State :=
  (List.range s.instWords).foldl (fun u i => u.pimWr (pimInst + i) (s.initValue (pimInst + i))) s

/-- The task status blocks are cleared (R82). -/
def State.statusClear (s : State) : State :=
  (List.range 8).foldl (fun s t => s.pimWrs (pimSysv t) (List.replicate 16 0)) s

/-- One element of a kept tag takes its old value (R153). -/
def State.carryElem (s old : State) (a b : Nat × Option Nat) : State :=
  match a.2, b.2 with
  | some i, some j => s.pimWr a.1 (setBit (s.pimRd a.1) i (bit (old.pimRd b.1) j))
  | _, _ => s.pimWr a.1 (old.pimRd b.1)

/-- The kept elements of one tag of the new image. -/
def State.carryTag (s old : State) (t : Tag) : State :=
  match old.tags.find? fun o => o.id == t.id && o.keep && o.dtype == t.dtype with
  | none => s
  | some o =>
    if t.keep && refPim t.ref && refPim o.ref then
      (List.range (min t.count o.count)).foldl (fun s e => s.carryElem old (t.elem e) (o.elem e)) s
    else s

/-- The instance data of every safety block is cleared; its header stays (R153). -/
def State.safetyClear (s : State) : State :=
  (List.range s.ndesc).foldl (fun s d =>
    let n := s.instLen d
    if s.opcOf d / 64 = 0x0d ∧ n ≠ 0 then s.pimWrs (s.irefOf d) (wd (s.opcOf d) :: List.replicate (n - 1) 0) else s) s

/-- An OPC word that the new image maps as an output again is kept; any other takes its safe value (R153). -/
def State.opcCarry (s old : State) : State :=
  s.outMaps.foldl (fun s m => if old.outMaps.any fun o => o.piw == m.piw then s
    else (s.pimWr (pimOpc + m.piw) m.subst).pimWr (pimOps + m.piw) m.subst) s

/-- The instance region, OPC and the status blocks after a load; `old` is the state before an on-line change. -/
def State.loadValues (s : State) (old : Option State) : State :=
  let s := s.instanceInit
  match old with
  | none => s.opcSafe.statusClear
  | some o =>
    let s := ((s.tags.foldl (fun u t => u.carryTag o t) s).safetyClear).opcCarry o
    (List.range 8).foldl (fun s t => (s.pimWr (pimSysv t + 1) 0).pimWr (pimSysv t + 5) 0) s

/-- No input word has had a value from its source yet. -/
def State.inputsBad (s : State) : State :=
  (s.maps.filter fun m => !m.out).foldl (fun s m => s.ipiSet m.piw m.subst stBad 0) s

/-! ## Tasks -/

/-- The task records are latched, and the counts since the load start again (R83, R157). Triggers still pending, in an on-line
change too, are dropped (DESIGN CHOICE, log entry 64). -/
def State.loadTasks (s : State) : State :=
  let recs : Vector Task 8 := Vector.ofFn fun (t : Fin 8) => { Task.idle with rec' := s.taskRecAt t }
  let s := { s with eng := { s.eng with tasks := recs, running := none, halted := none, passed := none, reports := [], telOpen := [] } }
  (List.range 8).foldl (fun s t =>
    ((((((s.wr (Reg.tskTcfg t) (s.taskRecAt t).word0).wr (Reg.tskTperiod t) 0).wr (Reg.tskTact t) 0).wr (Reg.tskTlastpe t) 0).wr
      (Reg.tskTmaxpe t) 0).wr (Reg.tskTslack t) 0xffffffff).wr (Reg.tskTdefer t) 0) s

/-! ## Pages -/

/-- Under a sealed image the safety-relevant pages hold only what it preloads; the telegram table is one of theirs. -/
def State.sealPages (s : State) : State :=
  if !s.imgSealed then s else
  let u := s.sealRegs
  (List.range 4).foldl (fun u g => u.tpFollow s g) u

/-- One preload record is written (R88, R89): a command register carries out its command, with WREFUSED where it refuses. -/
def State.preload (s : State) (r : PreRec) : State :=
  match r.kind with
  | 1 => match regDef r.addr with
    | none => s
    | some d =>
      let v := s.preValue r d
      match d.acc with
      | .ro => s
      | .wo => (s.cmdPut r.addr v).getD (s.refuse r.page)
      | .rw => s.plainPut r.addr v
      | .w1c => s.wr r.addr (s.rd r.addr &&& ~~~ v)
      | .rwl => s.plainPut r.addr v
      | .rws => s.plainPut r.addr v
  | 2 => match r.tableNo with
    | none => s
    | some t => s.putEntry t r.target r.words
  | _ => s

/-- The records that no later one overrides. -/
def lastRecs : List PreRec → List PreRec
  | [] => []
  | r :: l =>
    if l.any fun x => x.kind == r.kind && x.addr == r.addr && x.tableNo == r.tableNo then lastRecs l else r :: lastRecs l

/-! ## Claims (R254, R265, R353) -/

def State.pinModePut (s : State) (n m : Nat) : State := s.wr (Reg.tpinPincfg n) (setFld (s.rd (Reg.tpinPincfg n)) 0 3 m)

/-- Every claim is given up: slots disarm, pins go quiet, captures count again. -/
def State.claimsDrop (s : State) : State :=
  let s := { s with
    mot := { s.mot with axes := s.mot.axes.map fun x => { x with slots := Vector.replicate 8 Slot.reset } }
    dec := { s.dec with own0 := false, own1 := false } }
  (List.range 8).foldl (fun s n =>
    let s := if s.pinMode n = 4 then s.pinModePut n 0 else s
    (s.pinQuiet n).modPin n fun p => { p with owner := .none, due := none, edge := none, caps := 0, have' := false }) s

/-- The slots named by task records: the lower task owns the start, a later one is refused with CONFLICT in TSK. -/
def State.taskClaims (s : State) : State :=
  (List.range 8).foldl (fun s t =>
    let r := s.taskRecAt t
    if !(r.en && r.trig == 1) then s
    else if ((s.axis (r.tsrc / 16)).slot (r.tsrc % 16)).taskOwn then s.conflict 9
    else s.modSlot (r.tsrc / 16) (r.tsrc % 16) fun x => { x with taskOwn := true }) s

/-- The claim of pin `n` by its own MODE; a pin that a slot holds reads MODE 0b100. -/
def State.modeClaim (s : State) (n : Nat) : State :=
  match (s.pin n).owner with
  | .none => s.modPin n fun p => { p with owner := .mode }
  | .mode => s
  | .slot _ _ => ((s.pinModePut n 4).conflict 0x19).raise 0x1901 [wd n]
  | .mclk => ((s.pinModePut n 0).conflict 0x19).raise 0x1901 [wd n]

/-- The claim of pin `n` by slot `k` of axis `ax`. -/
def State.slotClaim (s : State) (ax : Fin 12) (k : Fin 8) (n : Nat) : State :=
  if (s.pin n).owner = .none then
    (((s.modPin n fun p => { p with owner := .slot ax k }).pinModePut n 4).modSlot ax k fun x => { x with pinOwn := true })
  else (s.conflict (axPage ax)).raise 0x1901 [wd n]

/-- The claim that a register record makes, at its place in the image. -/
def State.recClaim (s : State) (r : PreRec) : State :=
  let v := r.words.getD 0 0
  if r.kind ≠ 1 then s
  else if r.page = 0x19 then
    match arrayIdx 0x20 8 0x20 r.target with
    | some n => if fld v 0 3 ≠ 0 then s.modeClaim n else s
    | none => s
  else if r.page = 0x15 ∨ r.page = 0x16 then
    match (List.finRange 12).find? fun (ax : Fin 12) => axPage ax == r.page &&
        (List.range 8).any fun k => r.addr == Reg.axsSlotcfg (ax / 6) (ax % 6) k with
    | none => s
    | some ax => match (List.finRange 8).find? fun (k : Fin 8) => r.addr == Reg.axsSlotcfg (ax / 6) (ax % 6) k with
      | none => s
      | some k => if bit v 3 then s.slotClaim ax k (fld v 0 3) else s
  else s

/-- All claims, in image order: tasks, the records of IOMAP, the modulator clocks of DEC; a MODE that no record gives comes
last. The pins then take effect. -/
def State.claims (s : State) (recs : List PreRec) : State :=
  let s := s.claimsDrop.taskClaims
  let s := recs.foldl State.recClaim s
  let c := s.rd Reg.decCtrl
  let s := (s.mclkClaim 0 (bit c 8)).mclkClaim 1 (bit c 9)
  (List.range 8).foldl (fun s n =>
    let s := if s.pinMode n = 0 ∨ s.pinMode n = 4 then s else s.modeClaim n
    let s := s.modPin n fun p => { p with start := s.rd64 (Reg.tpinStartLo n) }
    (s.pinArm n).pinItems n 0) s

/-! ## What starts with a load -/

/-- A monitor starts with set 0; one whose configuration the load leaves as it was goes on with its window (R256, R258). -/
def State.smoLoad (s old : State) : State :=
  let s' := s.smosStart
  (List.range 24).foldl (fun u m =>
    if old.imgRun && old.mcfg m == s.mcfg m && old.monEn m then
      let x := old.smo m
      u.modSmo m fun y => { y with win := x.win, v := x.v, fill := x.fill, at' := x.at', winAt := x.winAt }
    else u) s'

/-- ITEM 1 of a subscription, telegram or receive area never has QUAL 0, in use or not (spec/11_train_network.md R302, R310,
spec/12_bridges.md R328). -/
def State.statesShow (s : State) : State :=
  (s.maps.filter fun m => !m.out && m.item == 1).foldl (fun s m =>
    if m.kind = 0x40 then s.ipiGood m.piw (wd (fld (s.tbl 1 m.pdEntry 6) 0 4))
    else if m.kind = 0x42 then s.ipiGood m.piw (s.tbl 2 m.inst 8)
    else if m.kind = 0x44 then s.areaItem m false else s) s

/-- Tables in use start: sequence numbers, subscriptions and telegrams, and the entries of the bridge. -/
def State.tablesStart (s : State) (recs : List PreRec) : State :=
  let s := { s with trdp := { s.trdp with since := s.now } }
  let s := (List.range 1024).foldl (fun s e => s.setTbl 0 e 7 0) s
  let s := (s.enabled 1 3).foldl State.subStart s
  let s := (List.range 256).foldl (fun s e => if s.entryEn 2 e then s.telStart e else s) s
  let s := (List.range 8).foldl (fun s k =>
    s.wr (Reg.twpTout k) (packBits 32 fun j => s.entryEn 2 (32 * k + j) && s.telTout (32 * k + j))) s
  let s := s.areasStart.statesShow
  recs.foldl (fun s r => match r.tableNo with
    | some 3 => if r.kind = 2 then s.mvbStart r.target else s
    | some 4 => if r.kind = 2 then s.routeStart r.target else s
    | _ => s) s

/-- The reflex rules: all afresh, or over an on-line change those that changed (spec/08_reflex_and_reaction.md R226, R237). -/
def State.rulesLoad (s : State) (old : Option State) : State :=
  match old with
  | none => s.rulesStart
  | some o => s.rulesKeep o

/-- The stored image is loaded: `change` for an on-line change, `was` the state before the load. -/
def State.load (s : State) (change : Bool) : State :=
  let was := s
  let old := if change then some was else none
  let s := ((s.mirrorCopy.loadValues old).sealPages).loadTasks
  let recs := s.preloads.map fun x => x.2
  let s := (recs.foldl State.preload s).inputsBad
  let s := ((s.claims (lastRecs recs)).tablesStart (lastRecs recs)).rulesLoad old
  let s := ((List.range 4).foldl (fun s g => s.fioWrite g false) (s.smoLoad was)).decStart
  ((s.opLimits.forceKeep).wr Reg.updRunid s.imgId).wr Reg.updRunrev s.imgRev

end Sys2Proof.Machine
end

