-- ==== Sys2Proof/Machine/Update.lean ====
section
/-!
DEFINITION. The loader's update protocol: requests on MB16, the configuration flash, keys and revocation, verification,
activation, on-line change, restore, restart of the loader and OTP (spec/17_start_up_and_update.md R438 to R449,
spec/05_tasks_and_modes.md R151, R152).
-/
namespace Sys2Proof.Machine

def State.modUpd (s : State) (f : Upd → Upd) : State := { s with upd := f s.upd }

/-- UPD.RESULT (R455): a code, 0 for success, and its stage. -/
def State.updResult (s : State) (code stage : Nat) : State := s.wr Reg.updResult (wd (code + 0x10000 * stage + 0x80000000))

/-- UPD.STAT.STOREOK. -/
def State.storeOk (s : State) (b : Bool) : State := s.wr Reg.updStat (setBit (s.rd Reg.updStat) 3 b)

/-! ## Requests (R442, R443) -/

/-- A request: its buffer, LENGTH and TAG, and the words of its header. -/
structure Req where
  off  : Nat
  len  : Nat
  tag  : Nat
  op   : Word
  sess : Word
  a0   : Word
  a1   : Word
  a2   : Word
deriving DecidableEq, Repr

/-- The request at the head of MB16, when the loader can take it and reply. -/
def State.updReq (s : State) : Option Req :=
  if !(s.alive && s.upd.writing.isNone && chanRoom 16 (s.chan 16).ba 2) then none else
  (s.mbHead 16 2).map fun m =>
    let o := noticeOff m.words
    let w (k : Nat) : Word := s.notice.readWord ramFill (o + k)
    ⟨o, noticeLen m.words, noticeTag m.words, w 0, w 4, w 8, w 0x0c, w 0x10⟩

/-- `n` data bytes of a request. -/
def State.reqData (s : State) (r : Req) (n : Nat) : List Byte := s.notice.readBytes ramFill (r.off + 0x20) n

/-- STATUS and INFO are written, where the header lies in the notice SRAM, the reply notice is committed, and the request is
popped. -/
def State.updReply (s : State) (r : Req) (status info : Nat) : State :=
  let n := (s.notice.writeWord ramFill (r.off + 0x14) (wd status)).writeWord ramFill (r.off + 0x18) (wd info)
  let s := if r.off + 0x20 ≤ 0x800000 then { s with notice := n } else s
  (s.mbPush 16 false [wd (r.off + 0x1000000 * 32), wd (0x10000 * r.tag)]).mbPop 16 false

/-- A request is refused: nothing else changes. -/
def State.updRefuse (s : State) (r : Req) (code stage info : Nat) : State :=
  (((s.evt 0x38 8).raise code []).updResult code stage).updReply r code info

/-- A session is open. -/
def State.updOpened (s : State) : Bool := s.upd.st == .quick || s.upd.st == .guarded

/-- The request names the open session. -/
def State.sessOk (s : State) (r : Req) : Bool := s.updOpened && r.sess == wd s.upd.session.toNat

/-- Blocks that a session of IMGLEN takes. -/
def updBlocks (n : Nat) : Nat := ceilDiv n 4096

/-- The code that refuses an OPEN. -/
def State.openRefusal (s : State) (r : Req) : Option Nat :=
  let g := bit r.a0 0
  let n := r.a1.toNat
  if r.op != 1 || s.upd.st != .idle || s.mstate == .boot || (g && s.mstate == .safe) ||
      !bit (s.rd Reg.updCtrl) (if g then 1 else 0) then some 0x3823
  else if r.len < 32 ∨ n = 0 ∨ n % 4 ≠ 0 ∨ 10485760 < n then some 0x3821
  else none

/-- UPD_OPEN; a request whose OP is none of the six is refused here (log entry 14). -/
def execUpdOpen (s : State) : Answer :=
  match s.updReq with
  | none => .next s
  | some r =>
    if within 2 6 r.op.toNat then .next s else
    match s.openRefusal r with
    | some c => .next (s.updRefuse r c 1 0)
    | none =>
      let n := s.upd.session + 1
      let st : UpdSt := if bit r.a0 0 then .guarded else .quick
      let s := s.modUpd fun u => { u with st := st, imglen := r.a1.toNat, blocks := [], sectors := [], session := n }
      .next (((s.evt 0x38 1).raise 0x3801 []).updReply r 0 n.toNat)

/-! ## The flash (R438, R443) -/

/-- The configuration flash holds 128 MiB (spec/00_scope.md R3). -/
def cfgFlashBytes : Nat := 0x8000000

/-- A sector of 64 KiB is erased. -/
def State.sectorErase (s : State) (k : Nat) : State :=
  { s with cfgFlash := s.cfgFlash.filter fun c => c.1 / 65536 != k, upd := { s.upd with erases := satNat 0xffffffff (s.upd.erases + 1) } }

/-- Bytes are programmed, none beyond the flash's end. -/
def State.flashPut (s : State) (a : Nat) (bs : List Byte) : State :=
  { s with cfgFlash := s.cfgFlash.writeBytes flashFill a (bs.take (cfgFlashBytes - a)) }

/-- The code that refuses a BLOCK. -/
def State.blockRefusal (s : State) (r : Req) : Option Nat :=
  let o := r.a0.toNat
  let n := r.a1.toNat
  if !s.sessOk r then some 0x3823
  else if o % 4096 ≠ 0 ∨ s.upd.imglen ≤ o ∨ n ≠ min 4096 (s.upd.imglen - o) ∨ r.len < 32 + n then some 0x3821
  else if s.upd.blocks.contains (o / 4096) then some 0x3822
  else if s.upd.st == .guarded && crc32 (s.reqData r n) != r.a2 then some 0x3820
  else none

/-- The journal is written and the sector erased before a block is programmed, where the session has not done so. -/
def State.blockPrepare (s : State) (o : Nat) : State :=
  let s := if s.upd.sectors.isEmpty then s.modUpd fun u => { u with journal := if u.st = .guarded then 2 else 1 } else s
  let k := o / 65536
  if s.upd.sectors.contains k then s else (s.sectorErase k).modUpd fun u => { u with sectors := k :: u.sectors }

/-- UPD_BLOCK. -/
def execUpdBlock (s : State) : Answer :=
  match s.updReq with
  | none => .next s
  | some r =>
    if r.op ≠ 2 then .next s else
    match s.blockRefusal r with
    | some c => .next (s.updRefuse r c 1 s.upd.blocks.length)
    | none =>
      let o := r.a0.toNat
      let d := s.reqData r r.a1.toNat
      .next ((s.blockPrepare o).modUpd fun u => { u with writing := some (o, d) })

/-- The block being programmed is complete in the flash. -/
def State.blockProgram (s : State) : State :=
  match s.upd.writing with
  | none => s
  | some (o, d) => (s.flashPut o d).modUpd fun u => { u with writing := none, blocks := o / 4096 :: u.blocks }

/-- UPD_BLOCK_DONE; `spare`: the sector has been replaced from the spare sectors. -/
def execUpdBlockDone (spare : Bool) (s : State) : Answer :=
  if !(s.alive && s.upd.writing.isSome && chanRoom 16 (s.chan 16).ba 2) then .next s else
  let s := s.blockProgram
  let s := if spare then s.raise 0x3824 [] else s
  match s.updReq with
  | none => .next s
  | some r => .next (s.updReply r 0 s.upd.blocks.length)

/-! ## CLOSE and ABORT (R444, R445, R447) -/

/-- The code that refuses a CLOSE. -/
def State.closeRefusal (s : State) (r : Req) : Option Nat :=
  if !s.sessOk r then some 0x3823
  else if r.len < 32 then some 0x3821
  else if s.upd.st == .guarded && (List.range (updBlocks s.upd.imglen)).any (fun b => !s.upd.blocks.contains b) then some 0x382a
  else none

/-- UPD_CLOSE. -/
def execUpdClose (s : State) : Answer :=
  match s.updReq with
  | none => .next s
  | some r =>
    if r.op ≠ 3 then .next s else
    match s.closeRefusal r with
    | some c => .next (s.updRefuse r c 2 0)
    | none =>
      let g := s.upd.st == .guarded
      let s := s.updEnd 1
      if g then .next ((s.modUpd fun u => { u with st := .verifying }).updReply r 0 0)
      else
        let s := (s.modUpd fun u => { u with st := .idle, journal := 0 }).updResult 0 2
        .next (s.updReply r 0 (updBlocks s.upd.imglen - s.upd.blocks.length))

/-- UPD_ABORT. -/
def execUpdAbort (s : State) : Answer :=
  match s.updReq with
  | none => .next s
  | some r =>
    if r.op ≠ 4 then .next s
    else if !s.sessOk r then .next (s.updRefuse r 0x3823 2 0)
    else if r.len < 32 then .next (s.updRefuse r 0x3821 2 0)
    else
      let s := if s.upd.st = .guarded then s.updAbort 2
        else (s.updEnd 2).modUpd fun u => { u with st := .idle, journal := 0 }
      .next (s.updReply r 0 0)

/-! ## Keys (R441) -/

def State.otpSlot (s : State) (k : Nat) : OtpSlot := Vec.at s.upd.otp k ⟨0, false⟩

/-- A key is written to the key block: its sector is erased and programmed again. -/
def State.keyPut (s : State) (k : Nat) (key : List Byte) : State :=
  let old := s.flashBytes 0xa00000 256
  (s.sectorErase 0xa0).flashPut 0xa00000 (old.take (64 * k) ++ key ++ old.drop (64 * k + 64))

/-- UPD_KEY. -/
def execUpdKey (s : State) : Answer :=
  match s.updReq with
  | none => .next s
  | some r =>
    if r.op ≠ 5 then .next s
    else if s.updOpened then .next (s.updRefuse r 0x3823 6 0)
    else if r.len < 96 then .next (s.updRefuse r 0x3821 6 0)
    else
      let k := fld r.a0 0 2
      let key := s.reqData r 64
      if (s.otpSlot k).hash.toNat ≠ sha256Nat key then .next (s.updRefuse r 0x3828 6 0)
      else .next ((((s.keyPut k key).evt 0x38 32).raise 0x3804 []).updResult 0 6 |>.updReply r 0 0)

/-- The slot that the stored image is signed with. -/
def State.storedSlot (s : State) : Option Nat :=
  if s.headerOk && s.headerCrcOk then some (fld (s.flashWord (s.flashSec 8).off) 0 2) else none

/-- A revocation record is carried out. -/
def State.revokeOk (s : State) (b : List Byte) : Bool :=
  let v := (b.getD 4 0).toNat % 4
  let g := (b.getD 5 0).toNat % 4
  b.take 4 == [0x52, 0x56, 0x4b, 0x45] && (b.drop 6).take 2 == [0, 0] && v != g &&
    s.signatureOk g (b.take 8) (beNat ((b.drop 8).take 32)) (beNat ((b.drop 40).take 32)) s.upd.otpOk &&
    ((List.range 4).any fun k => k != v && (s.otpSlot k).provisioned && !(s.otpSlot k).revoked) && s.storedSlot != some v

/-- UPD_REVOKE. -/
def execUpdRevoke (s : State) : Answer :=
  match s.updReq with
  | none => .next s
  | some r =>
    if r.op ≠ 6 then .next s
    else if s.updOpened then .next (s.updRefuse r 0x3823 6 0)
    else if r.len < 104 then .next (s.updRefuse r 0x3821 6 0)
    else
      let b := s.reqData r 72
      if !s.revokeOk b then .next (s.updRefuse r 0x3829 6 0)
      else
        let v := (b.getD 4 0).toNat % 4
        let s := s.modUpd fun u => { u with otp := Vec.updAt u.otp v fun o => { o with revoked := true } }
        .next (((s.evt 0x38 32).raise 0x3805 []).updResult 0 6 |>.updReply r 0 0)

/-! ## Verification (R445, R151) -/

/-- The stored image is checked: STOREID, STOREREV (from a header that passes its own
checks) and STOREOK follow, and a failure is recorded. -/
def State.storeCheck (s : State) (otpOk : Bool) : State × Option Nat :=
  let c := s.imageCheck otpOk
  let s := s.modUpd fun u => { u with otpOk := otpOk }
  let s := if c = some 0x3810 ∨ c = some 0x3811 then s
    else (s.wr Reg.updStoreid (s.flashWord 0x14)).wr Reg.updStorerev (s.flashWord 0x18)
  let s := (if otpOk then s else s.raise 0x0005 []).storeOk c.isNone
  match c with
  | none => (s, none)
  | some k => (s.raise k [], some k)

/-- An activation is refused with 0x3825, and the flash is restored. -/
def State.activationRefused (s : State) : State := ((s.raise 0x3825 []).updResult 0x3825 4).updRestore

/-- R151 refuses the on-line change. -/
def State.changeRefused (s : State) : Bool :=
  s.imgSealed || bit (s.flashWord 0x0c) 0 || s.flashWord 0x14 != s.imgId || s.eng.mode == .hold

/-- What follows when every check passes. -/
def State.verified (s : State) : State :=
  if s.safeLatch then (s.modUpd fun u => { u with st := .idle, journal := 0 }).updResult 0 3
  else if s.imgRun && bit (s.rd Reg.engChgmode) 0 then
    if s.changeRefused then (s.evt 8 0x20).activationRefused
    else { s with upd := { s.upd with st := .activating }, eng := { s.eng with change := .waiting (s.eng.mode == .run) } }
  else if s.eng.mode = .hold then s.activationRefused
  else
    let s := s.modUpd fun u => { u with st := .activating }
    if s.eng.mode = .run then (s.stopAt (nextWhole s.now 1000) none).enteredStop false else s

/-- GUARDED_VERIFY_DONE. -/
def execGuardedVerifyDone (otpOk : Bool) (s : State) : Answer :=
  if !(s.alive && s.upd.st == .verifying) then .next s else
  match s.storeCheck otpOk with
  | (s, none) => .next s.verified
  | (s, some c) => .next ((s.updResult c 3).updRestore)

/-! ## Activation and on-line change (R446, R152) -/

/-- An activation is complete. -/
def State.activated (s : State) : State :=
  (((s.modUpd fun u => { u with st := .idle, journal := 0 }).evt 0x38 4).raise 0x3803 []).updResult 0 4

/-- The module leaves BOOT, BARE or STOP as FLAGS.START gives. -/
def State.enterStart (s : State) : State :=
  let s := s.setMState .stop
  if bit s.imgFlags 1 && s.engSrc != 2 then s.enterRun s.now else s

/-- IMAGE_ACTIVATION_DONE. -/
def execImageActivationDone (s : State) : Answer :=
  if s.alive && s.upd.st == .activating && s.eng.change == .none then
    .next (((s.load false).midReset 1).activated.enterStart)
  else .next s

/-- A new task epoch after a change pause, in RUN (R131, R152). -/
def State.newEpoch (s : State) : State :=
  let e := epochAfter s.now
  let tasks := s.eng.tasks.map fun k => { k with grid := e + 1000 * k.rec'.phase, zeroDt := true }
  { s.wr64 Reg.engEpochLo e with eng := { s.eng with tasks := tasks } }

/-- No on-line change is under way any more; the pause lasted from `g` on. -/
def State.pauseOver (s : State) (g : Nat) : State :=
  ({ s with eng := { s.eng with change := Change.none } }.wr Reg.engChgpause (wd (satNat 0xffffffff ((s.now - g) / 1000)))).evt 8 0x10

/-- The engine goes on after a change, in RUN from a new epoch. -/
def State.goOn (s : State) : State := if s.eng.mode = .run then s.newEpoch else s

/-- The change pause that began at `g` ends. -/
def State.changeEnd (s : State) (g : Nat) : State := (((s.load true).pauseOver g).activated).goOn

/-- CHANGE_PAUSE_END. -/
def execChangePauseEnd (s : State) : Answer :=
  match s.eng.change with
  | .pausing g _ => if s.alive then .next (s.changeEnd g) else .next s
  | .none => .next s
  | .waiting _ => .next s

/-! ## Restore and restart (R447, R448) -/

/-- The running image goes back into the flash, sector by sector. -/
def State.restoreFlash (s : State) : State :=
  let n := (s.pimRd 2).toNat
  let s := (List.range (ceilDiv n 65536)).foldl (fun s k => s.sectorErase k) s
  s.flashPut 0 (s.pim.readBytes ramFill 0 n)

/-- A restore fails. -/
def State.restoreFail (s : State) : State :=
  (((s.modUpd fun u => { u with st := .idle }).raise 0x3827 []).updResult 0x3827 5).storeOk false

/-- RESTORE_DONE. -/
def execRestoreDone (ok : Bool) (s : State) : Answer :=
  if !(s.alive && s.upd.st == .restoring) then .next s
  else if !ok then .next s.restoreFail
  else
    let s := (s.restoreFlash.modUpd fun u => { u with st := .idle, journal := 0 }).storeOk true
    .next ((s.evt 0x38 16).raise 0x3826 [])

/-- UPD.STAT.SSTATE (R456). -/
def UpdSt.code : UpdSt → Nat
  | .idle => 0 | .quick => 1 | .guarded => 2 | .verifying => 3 | .activating => 4 | .restoring => 5

/-- A restore starts after a restart, and fails where the flash still does not answer. -/
def State.restoreAgain (s : State) (flashOk : Bool) : State :=
  let s := s.updRestore
  if flashOk ∨ s.upd.st ≠ .restoring then s else s.restoreFail

/-- LOADER_RESTART; `flashOk`: the flash answers again. -/
def execLoaderRestart (flashOk : Bool) (s : State) : Answer :=
  if !s.alive then .next s else
  let st := s.upd.st
  let s := ((s.raise 0x3807 [wd st.code]).midReset 2).semsOf 2
  let s := s.modUpd fun u => { u with writing := none }
  .next (match st with
    | .idle => s
    | .quick => (s.updEnd 5).modUpd fun u => { u with st := .idle }
    | .guarded => (s.updEnd 5).restoreAgain flashOk
    | .verifying => (s.updEnd 5).restoreAgain flashOk
    | .activating => s.enterSafe 0x3808 0 []
    | .restoring => s.restoreAgain flashOk)

/-! ## OTP (R440) -/

/-- The staged hash, bytes 4j to 4j + 3 in OTPHASHj, most significant byte first (R440). -/
def State.otpHash (s : State) : BitVec 256 :=
  BitVec.ofNat 256 (beNat ((List.range 8).flatMap fun j => (bytesLE (s.rd (Reg.updOtphash j)) 4).reverse))

/-- UPD.OTPCMD: none where the write is refused. -/
def State.otpCmd (s : State) (v : Word) : Option State :=
  let k : Fin 4 := ⟨fld v 0 2 % 4, Nat.mod_lt _ (by decide)⟩
  if fld v 8 24 ≠ 0x5a5a5a ∨ s.locked 0x38 ∨ s.upd.otp[k].hash ≠ 0 ∨ s.upd.otpBusy.isSome then none
  else some (s.modUpd fun u => { u with otpBusy := some (k, s.otpHash) })

/-- OTP_PROGRAM_DONE. -/
def execOtpProgramDone (s : State) : Answer :=
  match s.upd.otpBusy with
  | none => .next s
  | some (k, h) =>
    if !s.alive then .next s else
    let s := s.modUpd fun u => { u with otpBusy := none, otp := Vec.upd u.otp k fun o => { o with hash := h } }
    .next ((s.evt 0x38 32).raise 0x3806 [])

end Sys2Proof.Machine
end

