-- ==== Sys2Proof/Machine/Boot.lean ====
section
/-!
DEFINITION. Module resets, the supply, the phases of BOOT, chain addressing, SLUMBER and HIBERNATE, and the Dormouse
(spec/01_system_architecture.md R22 to R25, spec/15_sett_recorder.md R397, R507, spec/16_clocks_and_power.md R413, R420 to
R425, spec/17_start_up_and_update.md R431 to R437, spec/20_hardware_reference.md R497).
-/
namespace Sys2Proof.Machine

/-! ## Module reset (R23, R431) -/

/-- The bit of SYS.RSTCAUSE (R451). -/
def ResetCause.word : ResetCause → Word
  | .powerUp => 1 | .contact => 2 | .request => 4 | .slumberExit => 8 | .hibernateExit => 16

/-- The real-time clock over a module reset: it runs on, but for a power-up and a HIBERNATE, after which it restarts from the
stored time (R413). -/
def State.rtcReset (s : State) (power : Bool) : Rtc :=
  if s.rtc.hib then
    let r := rtcOf s.rtc.record
    ⟨r.1, r.2, 0, s.rtc.record, false⟩
  else if power then { Rtc.new with record := s.rtc.record }
  else { s.rtc with setAt := 0 }

/-- A module reset: BOOT starts. The queue, what has left the module, the flashes, OTP, the Dormouse and the real-time clock
stand over it, and so do the field sides, but for a power-up (spec/07_field_io.md R217). Module time is loaded from the real-time
clock, and every interval counts from there (spec/13_time.md R340). -/
def State.moduleReset (s : State) (c : ResetCause) : State :=
  let power := c == .powerUp
  let rtc := s.rtcReset power
  let keep := !power && !s.rtc.hib
  let clk : Word := if keep then s.rd Reg.clkStat &&& 0x204 else 0
  let d : Int := (rtc.time : Int) - s.now
  let fside := s.fside.map fun (x : FieldSide) => if power then FieldSide.start x.lplus rtc.time 0 else x.shift d
  let u : State := { State.reset with
    pending := s.pending
    freeCount := s.freeCount
    outbox := s.outbox
    supply := if power then .good else s.supply
    supplyBack := !power && s.supplyBack
    rstLow := s.rstLow
    cfgFlash := s.cfgFlash
    sett := { Sett.new with flash := s.sett.flash }
    rtc := rtc
    dorm := s.dorm
    upd := { Upd.new with otp := s.upd.otp, journal := s.upd.journal, session := s.upd.session, erases := s.upd.erases } }
  (({ u.timeTo rtc.time with fside := fside } : State).wr Reg.sysRstcause c.word).wr Reg.clkStat clk

/-- The recorder takes what is staged, seals the open record and writes its ring. -/
def State.settDrain (s : State) : State :=
  (s.takeAll s.sett.intake.length).settFlush

/-- A reset by contact or request is taken (R507): everything but the recorder is held, a flash page in progress ends
(R447), the open record is sealed and nothing more is staged. -/
def State.takeReset (s : State) (c : ResetCause) : State :=
  { s.blockProgram.settSeal.modSett (fun x => { x with stopped := true }) with resetting := some c }

/-- The module is in SLUMBER or HIBERNATE. -/
def State.asleep (s : State) : Bool := s.pstate == .slumber || s.pstate == .hibernate

/-- RST_N_ASSERT. In SLUMBER the contact is a wake event, and in HIBERNATE nothing is powered. -/
def execRstNAssert (s : State) : Answer :=
  let t := { s with rstLow := true }
  .next (if s.supply == .off || s.asleep || s.resetting.isSome || s.rstLow then t else t.takeReset .contact)

/-- RST_N_RELEASE: BOOT starts once the ring is written. -/
def execRstNRelease (s : State) : Answer :=
  if !s.rstLow then .next s else
  let t := { s with rstLow := false }
  .next (if s.supply != .off && s.resetting.isNone && s.mstate == .boot && s.bootPh == .clocks then
    { t.timeTo s.rtc.time with bootFrom := s.rtc.time } else t)

/-- RESET_REQUEST: SYS.RSTREQ. -/
def execResetRequest (pf : Pf) (v : Word) (s : State) : Answer :=
  if !s.booted then .next s
  else if pf = .pf1 ∨ v ≠ 0x5a5a then .next (s.refuse 0)
  else .next (s.takeReset .request)

/-- RESET_RING_WRITTEN. -/
def execResetRingWritten (s : State) : Answer :=
  match s.resetting with
  | none => .next s
  | some c => if s.supply == .off then .next s else .next (s.settDrain.moduleReset c)

/-! ## The supply (R497) -/

/-- MAIN_SUPPLY_UP: a power-up, or the supply returns while a failure runs to its end; in HIBERNATE the path is open. -/
def execMainSupplyUp (s : State) : Answer :=
  match s.supply with
  | .good => .next s
  | .failed => .next { s with supplyBack := true }
  | .off => if s.dorm.path then .next (s.moduleReset .powerUp) else .next { s with supply := .good }

/-- SUPPLY_FAIL: the open record is sealed, 0x3403 is staged, and nothing after it. -/
def execSupplyFail (s : State) : Answer :=
  if s.supply ≠ .good then .next s else
  let s := { s with supply := .failed, supplyBack := false }
  if s.asleep then .next s
  else .next ((s.settSeal.raise 0x3403 []).modSett fun x => { x with stopped := true })

/-- The outputs of every field side are off and its group switch is open (R212). -/
def State.fieldsDrop (s : State) : State := { s with fside := s.fside.map FieldSide.drop }

/-- MAIN_RAILS_FALL: the ring is in flash; a supply that has returned gives a power-up reset. -/
def execMainRailsFall (s : State) : Answer :=
  if s.supply ≠ .failed then .next s else
  let s := (if s.asleep then s else s.settDrain).fieldsDrop
  if s.supplyBack && s.dorm.path then .next (s.moduleReset .powerUp)
  else .next { s with supply := if s.supplyBack then .good else .off, supplyBack := false, resetting := none }

/-! ## BOOT (R431, R432) -/

/-- A phase of BOOT is in progress. -/
def State.inBoot (s : State) (p : BootPh) : Bool := s.alive && s.mstate == .boot && s.bootPh == p

/-- BOOT_CLOCKS_DONE: sources ready, or SAFE without a TCXO or without a PLL. -/
def execBootClocksDone (r : ClockUp) (s : State) : Answer :=
  if !s.inBoot .clocks then .next s else
  let a := r.tcxo && r.pllA
  let b := r.tcxo && r.pllB
  let src := if a then 0 else if b then 1 else 0
  let v := b2n r.tcxo + 2 + 8 * b2n a + 16 * b2n b + 32 * src + 64 * src + 256 * b2n (a || b)
  let s := s.wr Reg.clkStat (s.rd Reg.clkStat &&& 0x204 ||| wd v)
  if !r.tcxo then .next (s.enterSafe 0x0206 0 [])
  else if !(a || b) then .next (s.enterSafe 0x0204 0 [])
  else .next { s with bootPh := .tests }

/-- SELF_TEST_FAIL: every failed test is recorded, and the first takes the module to SAFE. -/
def State.testsFail (s : State) (r : SelfTest) : State :=
  let s := (List.range 3).foldl (fun s l => if bit r.lanes l then s.enterSafe 0x0001 0 [wd l] else s) s
  let s := match r.line with
    | none => s
    | some l => s.enterSafe 0x0002 0 [wd l.toNat]
  let s := if r.voter then s else s.enterSafe 0x0003 0 []
  if r.dec then s else s.enterSafe 0x1809 0 []

/-- SELF_TESTS_DONE: BISTRES, the start and the end of the resampler's calibration (spec/10_decimation.md R279), failures, links
that are not accepted. -/
def execSelfTestsDone (r : SelfTest) (s : State) : Answer :=
  if !s.inBoot .tests then .next s else
  let links := (List.range 4).foldl (fun a g => a + 2 ^ (4 + g) * b2n (s.fioG g).accepted) 0
  let v := b2n (r.lanes == 0) + 2 * b2n r.line.isNone + 4 * b2n r.voter + 8 * b2n r.dec + links + 0x80000000
  let s := s.wr Reg.diaBistres (wd v)
  let s := ((s.evt 0x18 48).raise 0x1806 []).raise 0x1807 []
  let s := (List.range 4).foldl (fun s g => if (s.fioG g).accepted then s else s.fioRaise g 0x1001 g) s
  let s := s.testsFail r
  if s.safeLatch then .next s
  else .next { s with bootPh := .addressing, chain := { s.chain with from' := s.now, last := none, agreed := none } }

/-! ## Chain addressing (R435 to R437) -/

/-- The rack position. -/
def State.pos (s : State) : Nat := fld (s.rd Reg.chnPos) 0 5

/-- The addressing phase ends: after 20 ms without an upstream module, when two trains have agreed, or after 340 ms (R436). -/
def State.addrDue (s : State) (present : Bool) : Bool :=
  let t := s.now - s.chain.from'
  if !present then decide (20000000 ≤ t) else s.chain.agreed.isSome || decide (340000000 ≤ t)

/-- ADDRESSING_DONE; `present`: CHAIN_IN has not been absent throughout. -/
def execAddressingDone (present : Bool) (s : State) : Answer :=
  if !(s.inBoot .addressing && s.addrDue present) then .next s else
  let p : Nat := if !present then 1 else match s.chain.agreed with
    | none => 0
    | some c => if c < 16 then c + 1 else 0
  let s := (s.wr Reg.chnPos (wd (p + 256 * b2n (!present)))).wr Reg.chnAddrtime (wd (satNat 0xffffffff ((s.now - s.chain.from') / 1000)))
  let s := if p = 0 then (s.evt 1 2).raise 0x0102 [] else (s.evt 1 1).raise 0x0101 [wd p]
  let s := (s.ipChain 0).ipChain 1
  .next { s with bootPh := .image, chain := { s.chain with present := present } }

/-- CHAIN_TRAIN_SEND: every 10 ms, once the position is fixed. -/
def execChainTrainSend (s : State) : Answer :=
  let due := match s.chain.sentAt with
    | none => true
    | some t => decide (t + 10000000 ≤ s.now)
  if s.alive && (s.bootPh == .image || s.bootPh == .ended) && decide (1 ≤ s.pos) && due then
    .next ({ s with chain := { s.chain with sentAt := some s.now } }.emit (.train s.pos))
  else .next s

/-- MISMATCH rises, or the disagreement shown changes. -/
def State.chainShow (s : State) (w : Word) : State :=
  if s.chain.shown = some w then s
  else ({ s with chain := { s.chain with shown := some w } }.evt 1 4).raise 0x0103 [w]

/-- Two trains in a row have agreed on `c`. -/
def State.chainAgree (s : State) (c : Nat) : State :=
  if s.bootPh = .addressing then { s with chain := { s.chain with agreed := some c } }
  else if s.bootPh ≠ .ended then s
  else if c + 1 = s.pos then { s with chain := { s.chain with shown := none } }
  else s.chainShow (wd c)

/-- CHAIN_TRAIN_RX: each lane has counted the pulses, and the median counts (spec/06_triplex_execution.md R168, R169); `valid`:
no pulse was too short or too long. -/
def execChainTrainRx (pa : Nat) (valid : Bool) (s : State) (pb pc : Nat := pa) : Answer :=
  let pulses := ((s.lanes.agree (wd pa) (wd pb) (wd pc)).1).toNat
  if !s.alive || s.bootPh == .clocks || pulses == 0 then .next s else
  let s := { s with chain := { s.chain with cnt := #v[wd pa, wd pb, wd pc] } }
  let n := fld (s.rd Reg.chnTrains) 16 16
  let s := s.wr Reg.chnTrains (wd (min pulses 16 + 0x10000 * ((n + 1) % 65536)))
  let last := s.chain.last
  let s := { s with chain := { s.chain with present := true, last := if valid then some pulses else none } }
  if valid && last == some pulses then .next (s.chainAgree pulses) else .next s

/-- CHAIN_ABSENT_TIMEOUT: 20 ms absent. -/
def execChainAbsentTimeout (s : State) : Answer :=
  if !s.alive then .next s else
  let s := { s with chain := { s.chain with present := false, last := none } }
  if s.bootPh == .ended && decide (1 < s.pos) then .next (s.chainShow 0xffffffff) else .next s

/-! ## The end of BOOT -/

/-- BOOT ends: BOOTTIME, BOOTDONE and event 0x0010. -/
def State.bootEnd (s : State) : State :=
  let t := wd (satNat 0xffffffff ((s.now - s.bootFrom) / 1000))
  ({ s.wr Reg.sysBoottime t with bootPh := .ended }.evt 0 1).raise 0x0010 [s.rd Reg.sysRstcause, t]

/-- No valid image: BARE, with the code of the check that failed. -/
def State.bootBare (s : State) (code : Nat) : State := ((s.updResult code 0).bootEnd).setMState .bare

/-- BOOTSTAT and STAT show what the journal holds. -/
def State.showJournal (s : State) : State :=
  (s.wr Reg.updBootstat (wd s.upd.journal)).wr Reg.updStat (setBit (s.rd Reg.updStat) 4 (s.upd.journal != 0))

/-- IMAGE_LOAD_DONE. -/
def execImageLoadDone (flashOk otpOk : Bool) (s : State) : Answer :=
  if !s.inBoot .image then .next s else
  let s := s.showJournal
  if !flashOk then .next ((s.raise 0x0004 []).bootBare 0x0004) else
  match s.storeCheck otpOk with
  | (s, some c) => .next (s.bootBare c)
  | (s, none) => .next (((((s.load false).midReset 1).updResult 0 0).bootEnd).enterStart)

/-! ## SLUMBER and HIBERNATE (R421, R423) -/

/-- The ticks of the alarm. -/
def State.alarm (s : State) : Nat := s.rd64 Reg.sysAlarmLo

/-- The reason that refuses a sleep request (R429). -/
def State.sleepRefusal (s : State) (hib : Bool) : Option Word :=
  let soon := s.alarm != 0 && decide (s.alarm * 1000000000 < s.rtc.ticks * 1000000000 + 20400000000 * 32768)
  if !bit (s.rd Reg.pwrCtrl) (if hib then 3 else 2) then some 1
  else if !(s.mstate == .run || s.mstate == .stop || s.mstate == .bare) || s.pow.sleep.isSome then some 2
  else if !hib && soon then some 3
  else if hib && s.dorm.low then some 4
  else if hib && fld (s.rd Reg.pwrWakecode) 0 24 == 0 then some 5
  else if s.upd.st != .idle then some 6
  else none

/-- A sleep request from PF0. -/
def State.sleepRequest (s : State) (hib : Bool) : State :=
  match s.sleepRefusal hib with
  | some r => ((s.wr Reg.pwrSlpstat r).evt 3 0x80).raise 0x0309 []
  | none =>
    let s := if s.mstate = .run then (s.stopAt (nextWhole s.now 1000) none).enteredStop false else s
    let s := (s.raise (if hib then 0x030b else 0x030a) []).settSeal
    { s with pow := { s.pow with sleep := some hib } }

def execSlumberRequest (pf : Pf) (s : State) : Answer :=
  if !s.booted then .next s else .next (if pf = .pf1 then s.refuse 0 else s.sleepRequest false)
def execHibernateRequest (pf : Pf) (s : State) : Answer :=
  if !s.booted then .next s else .next (if pf = .pf1 then s.refuse 0 else s.sleepRequest true)

/-- SLEEP_RING_WRITTEN: time and wake code are stored, the frames stop, and the rails fall. -/
def execSleepRingWritten (s : State) : Answer :=
  match s.pow.sleep with
  | none => .next s
  | some hib =>
    if !s.alive then .next s else
    let s := s.settDrain.fieldsDrop
    let code : BitVec 24 := BitVec.ofNat 24 (fld (s.rd Reg.pwrWakecode) 0 24)
    .next { s with
      pstate := if hib then .hibernate else .slumber
      pow := { s.pow with sleep := none }
      rtc := { s.rtc with record := s.now, hib := hib }
      dorm := if hib then { s.dorm with code := code, path := false } else s.dorm }

/-- A wake event of SLUMBER counts (R421). -/
def State.wakes (s : State) : WakeCause → Bool
  | .code => fld (s.rd Reg.pwrWakecode) 0 24 != 0
  | .alarm => s.alarm != 0 && decide (s.alarm ≤ s.rtc.ticks)
  | .resetContact => true
  | .can k => bit (s.rd (Reg.clkGate (8 + k))) 2

/-- SLUMBER_WAKE: in SLUMBER, or before its entry or that of HIBERNATE, which only the wake code leaves, is complete
(R423). -/
def execSlumberWake (c : WakeCause) (s : State) : Answer :=
  if s.supply == .off || !s.wakes c then .next s
  else if s.pstate = .slumber then .next (s.moduleReset .slumberExit)
  else if s.alive && s.pow.sleep == some false then .next (s.settDrain.moduleReset .slumberExit)
  else if s.alive && s.pow.sleep == some true && c == .code then .next (s.settDrain.moduleReset .hibernateExit)
  else .next s

/-! ## The Dormouse (R424) -/

/-- WAKE_FALLING_EDGE: ignored while a delay runs. -/
def execWakeFallingEdge (s : State) : Answer :=
  .next { s with dorm := { s.dorm with delay := true, low := true } }

/-- DORMOUSE_DELAY_END: a bit is shifted in; the stored code closes the supply path. -/
def execDormouseDelayEnd (low : Bool) (s : State) : Answer :=
  if !s.dorm.delay then .next s else
  let r : BitVec 24 := (s.dorm.reg <<< 1) ||| BitVec.ofNat 24 (b2n low)
  let s := { s with dorm := { s.dorm with reg := r, delay := false, low := low } }
  if s.dorm.code = 0 ∨ r ≠ s.dorm.code ∨ s.dorm.path then .next s else
  let s := { s with dorm := { s.dorm with path := true } }
  .next (if s.supply == .good && s.pstate == .hibernate then s.moduleReset .hibernateExit else s)

/-- DORMOUSE_QUIET_CLEAR: a quiet time, after which WAKE is high, or a long low; the row does not say which, so WAKE's level
after it is a free value where it stood low. -/
def execDormouseQuietClear (s : State) : Answer :=
  let low := s.dorm.low && bit s.freeDraw 0
  .next { s.drawn with dorm := { s.dorm with reg := 0, low := low } }

end Sys2Proof.Machine
end

