-- ==== Sys2Proof/Machine/Twin.lean ====
section
/-!
DEFINITION. Twin modules and the Owl referee: heartbeats, the mirror, joining, the grant, takeover, and this module as a
referee (spec/18_twin_modules.md).
-/
namespace Sys2Proof.Machine

/-! ## Frames of the TWIN link (R460) -/

/-- `n` bytes of a frame from byte `i` on, as a number. -/
def twNum (f : TwinFrame) (i n : Nat) : Nat := fld f.pay (8 * i) (8 * n)

/-- The frame that the lanes agree on: the majority of each bit, of the lanes that count (spec/06_triplex_execution.md R168,
R169). -/
def Lanes.twinMaj (l : Lanes) (f : TwinRx) : TwinFrame :=
  let one (i : Nat) : TwinFrame := if i = 0 then f.a else if i = 1 then f.b else f.c
  if l.counts 0 && l.counts 1 && l.counts 2 then
    ⟨(f.a.pay &&& f.b.pay) ||| (f.a.pay &&& f.c.pay) ||| (f.b.pay &&& f.c.pay), maj3 f.a.crcOk f.b.crcOk f.c.crcOk⟩
  else one l.lead

/-- The lanes whose bits differ from those agreed on; with a lane held, both where the two differ (R170, log entry 12). -/
def Lanes.twinDev (l : Lanes) (f : TwinRx) : BitVec 3 :=
  let m := l.twinMaj f
  let d : Nat := b2n (l.counts 0 && f.a != m) + 2 * b2n (l.counts 1 && f.b != m) + 4 * b2n (l.counts 2 && f.c != m)
  if l.held = 0 then BitVec.ofNat 3 d else if d = 0 then 0 else ~~~ l.held

/-- The block takes in a frame of a type: `k` carries it out; a frame that fails its CRC is counted. -/
def State.twinRx (s : State) (r : TwinRx) (ty : Nat) (k : TwinFrame → State → State) : State :=
  if !(s.alive && s.twnEn) then s else
  let f := s.lanes.twinMaj r
  let s := { s with lanes := { s.lanes with bitDev := s.lanes.bitDev ||| s.lanes.twinDev r } }
  if !f.crcOk then s.count Reg.twnLinkerr
  else if twNum f 0 1 ≠ ty then s
  else k f s

/-! ## Heartbeats (R460, R461, R468) -/

/-- TWIN_HB_SEND: every 50 µs, from an ACTIVE unit with RENEW. A unit in SAFE has sent its last. -/
def execTwinHbSend (s : State) : Answer :=
  let m := s.now / 50000 * 50000
  if !(s.alive && s.twnEn && !s.safeLatch && decide (s.twn.hbSent < m)) then .next s else
  let s := (s.modTwn fun x => { x with hbSent := m }).hbSend
  .next (if s.twn.role = .active then s.owlTell 1 else s)

/-- SAFE_TWIN_RELINQUISH (R468). -/
def execSafeTwinRelinquish (s : State) : Answer :=
  if s.alive && s.safeLatch && s.twn.tellSafe then .next (((s.modTwn fun x => { x with tellSafe := false }).hbSend).owlTell 6)
  else .next s

/-! ### Joining: what the ACTIVE unit sends (R465) -/

/-- The lines of the instance region, the OPC and the task status blocks, counted from the instance region's first. -/
def State.xfrLines (s : State) : List Nat :=
  List.range (ceilDiv s.instWords 8) ++ (List.range 2048).map (fun i => (pimOpc - pimInst) / 8 + i) ++
    (List.range 16).map fun i => (pimSysv 0 - pimInst) / 8 + i

/-- The byte address of quarter `q` of a line. -/
def xfrAddr (l q : Nat) : Nat := 4 * pimInst + 32 * l + 8 * q

def lineBytes (m : Memory) (l : Nat) : List Byte := m.readBytes ramFill (xfrAddr l 0) 32

/-- A line leaves as four XFR frames. -/
def State.xfrLine (s : State) (l : Nat) : State :=
  (List.range 4).foldl (fun s q =>
    s.emit (.twin (twinFrame ([6] ++ natBytesLE l 3 ++ [BitVec.ofNat 8 q] ++ s.pim.readBytes ramFill (xfrAddr l q) 8)))) s

/-- The lines written since they were sent. -/
def State.xfrMarked (s : State) : List Nat :=
  match s.twn.sentPim with
  | none => []
  | some m => s.xfrLines.filter fun l => lineBytes s.pim l != lineBytes m l

/-- Lines are read and sent; the second value says whether all were read. -/
def State.xfrSend (s : State) (ls : List Nat) : State × Bool :=
  match s.readLines 6 (ls.map fun l => pimInst / 8 + l) with
  | (s, false) => (s, false)
  | (s, true) => (ls.foldl State.xfrLine s, true)

/-- The first pass. -/
def State.xfrFirst (s : State) : State :=
  match s.xfrSend s.xfrLines with
  | (s, false) => s
  | (s, true) => s.modTwn fun x => { x with sentPim := some s.pim, pass := 0, sync := false }

/-- A further pass, or at a task boundary (spec/06_triplex_execution.md R176) with fewer than 256 marked lines the last one. -/
def State.passActive (s : State) (last : Bool) : State :=
  let ls := s.xfrMarked
  if s.twn.sentPim.isNone then s
  else if last then
    if ls.length < 256 && s.taskBoundary then
      match s.xfrSend ls with
      | (s, false) => s
      | (s, true) => s.modTwn fun x => { x with sentPim := none, pass := 0, sync := true }
    else s
  else if s.twn.pass < 16 then
    match s.xfrSend ls with
    | (s, false) => s
    | (s, true) => s.modTwn fun x => { x with sentPim := some s.pim, pass := x.pass + 1 }
  else s

/-! ### Joining: the unit that joins -/

/-- What its own sources have put into the input words so far. -/
def State.ownInputs (s : State) : List OwnIn :=
  (s.maps.filter fun m => !m.out).map fun m => ⟨m.piw, s.pimRd (pimIpi + m.piw), s.pimRd (pimIst + m.piw), s.fresh m.piw⟩

/-- A task goes on where the active unit's stands, MLAG later (R465). -/
def State.joinTask (s : State) (t : Fin 8) : State :=
  let ts := nat64 (s.pimRd (pimSysv t + 2)) (s.pimRd (pimSysv t + 3)) + s.mlag
  let ran := s.pimRd (pimSysv t + 1) != 0
  s.modTask t fun k =>
    { k with
      act := none
      trig := none
      defers := 0
      lastShad := if ran then some ts else none
      grid := if ran then ts + 1000 * k.rec'.period else k.grid
      firstLoad := !ran
      zeroDt := !ran
      afterHold := false }

/-- The last pass has ended: the unit is STANDBY and in step. -/
def State.joined (s : State) (at' : Nat) : State :=
  let s := (List.finRange 8).foldl State.joinTask { s with eng := { s.eng with running := none } }
  let own := s.ownInputs
  let s := (s.setTwnRole .standby).modTwn fun x =>
    { x with sync := true, joinAt := none, pass := 0, retryAt := none, own := own, mir := [], trgs := [], mbw := [], cmpRx := [], cmpOwn := [] }
  let ms := wd (satNat 0xffffffff ((s.now - at') / 1000000))
  ((s.wr Reg.twnJointime ms).evt 0x39 16).raise 0x3906 []

/-- JOIN_PASS_END; `last`: it was the last pass. -/
def execJoinPassEnd (last : Bool) (s : State) : Answer :=
  if !(s.alive && s.twnEn) then .next s else
  match s.twn.role, s.twn.joinAt with
  | .active, _ => .next (s.passActive last)
  | .joining, some at' =>
    .next (if last then s.joined at' else if s.twn.pass < 16 then s.modTwn fun x => { x with pass := x.pass + 1 } else s)
  | _, _ => .next s

/-- JOIN_RESTART: sixteen passes without a last one; the join starts again at the next whole second. -/
def execJoinRestart (s : State) : Answer :=
  if s.alive && s.twnEn && decide (16 ≤ s.twn.pass) && (s.twn.role == .active || s.twn.role == .joining) then
    .next (s.modTwn fun x =>
      { x with pass := 0, joinAt := none, sentPim := none, retryAt := some (nextWhole s.now 1000000000) })
  else .next s

/-- The join may start. -/
def State.joinDue (s : State) : Bool :=
  match s.twn.retryAt with
  | none => true
  | some t => decide (t ≤ s.now)

/-- A heartbeat of the ACTIVE unit reaches a JOINING one: different images, or the start of the join. -/
def State.hbJoining (s : State) (id old : Word) : State :=
  if id ≠ s.imageId then (if id = old then s else s.raise 0x3909 [])
  else if s.twn.joinAt.isNone && s.joinDue then
    (s.modTwn fun x => { x with joinAt := some s.now, pass := 0, retryAt := none }).raise 0x3905 []
  else s

/-- TWIN_XFR_RX: eight bytes of the instance region, OPC or a task status block. -/
def execTwinXfrRx (r : TwinRx) (s : State) : Answer :=
  .next (s.twinRx r 6 fun f s =>
    let l := twNum f 1 3
    let q := twNum f 4 1
    if s.twn.role == .joining && s.twn.joinAt.isSome && decide (q < 4) && s.xfrLines.contains l then
      { s with pim := s.pim.writeBytes ramFill (xfrAddr l q) (natBytesLE (twNum f 5 8) 8) }
    else s)

/-- The standby's time follows the active unit's (R461). -/
def State.hbTime (s : State) (t : Nat) : State :=
  let s := if s.sstate = 1 ∨ s.sstate = 2 then s else s.enterAcq
  s.servo ((s.now : Int) - t - 2100 - Config.twinDelay)

/-- TWIN_HB_RX. -/
def execTwinHbRx (r : TwinRx) (s : State) : Answer :=
  .next (s.twinRx r 1 fun f s =>
    let b : Nat := twNum f 1 1
    let id := wd (twNum f 12 4)
    let old := s.twn.peerId
    let active := b % 8 == 2
    let s := (s.wr Reg.twnPeer (wd b)).modTwn fun x => { x with hbOk := true, hbAt := s.now, peerId := id, lostAt := none }
    match s.twn.role with
    | .joining => if active then s.hbJoining id old else s
    | .standby =>
      if !active then s
      else if !s.twn.sync then s.twnJoin
      else if !b.testBit 4 then s.twnLose
      else s.hbTime (twNum f 4 8)
    | .active =>
      if b % 8 == 3 && id == s.imageId && s.twn.sentPim.isNone && s.joinDue then s.xfrFirst else s
    | .alone => s
    | .wait => s
    | .unfit => s)

/-! ## The mirror (R462 to R464) -/

/-- TWIN_MIR_RX: the word waits for the shadow instant it belongs to. -/
def execTwinMirRx (r : TwinRx) (s : State) : Answer :=
  .next (s.twinRx r 2 fun f s =>
    let n := twNum f 2 2
    if s.twn.role == .standby && decide (n < 16384) then
      let b : Nat := twNum f 1 1
      s.modTwn fun x => { x with mir := x.mir ++ [⟨n, wd (twNum f 4 4), b.testBit 0, b.testBit 1, wd (twNum f 8 4)⟩] }
    else s)

/-- TWIN_TRG_RX: the activation is frozen at t_s + MLAG, and the grid follows the active unit's. -/
def execTwinTrgRx (r : TwinRx) (s : State) : Answer :=
  .next (s.twinRx r 3 fun f s =>
    match (List.finRange 8).find? fun (t : Fin 8) => t.val == twNum f 1 1 with
    | none => s
    | some t =>
      if s.twn.role ≠ .standby then s else
      let ts := twNum f 2 8
      let go := ts + s.mlag
      let s := s.modTwn fun x => { x with trgs := x.trgs ++ [⟨t, ts, wd (twNum f 10 4)⟩] }
      s.modTask t fun k =>
        { k with trig := if k.trig.isSome then k.trig else some go
                 grid := if k.rec'.trig = 0 then go + 1000 * k.rec'.period else k.grid })

/-- A mirrored message is complete: it enters ENG's receive queue with its sender's epoch. -/
def State.mbwPut (s : State) (n : Nat) (e : Byte) (ws : List Word) : State :=
  match s.engReceives n with
  | none => s
  | some a => if chanRoom n ((s.chan n).txq !a) ws.length then s.mbEnter n (!a) ⟨e, ws⟩ else s

/-- TWIN_MBW_RX: words gather until the last of a message. -/
def execTwinMbwRx (r : TwinRx) (s : State) : Answer :=
  .next (s.twinRx r 4 fun f s =>
    let n := twNum f 1 1
    let i := twNum f 2 1
    let e : Byte := BitVec.ofNat 8 (twNum f 3 1)
    if !(s.twn.role == .standby && decide (n < 16)) then s else
    let before := match s.twn.mbw.find? fun m => m.1 == n with
      | none => []
      | some m => m.2.2
    let ws := before.take (i % 128) ++ [wd (twNum f 4 4)]
    let rest := s.twn.mbw.filter fun m => m.1 != n
    if i < 128 then s.modTwn fun x => { x with mbw := (n, e, ws) :: rest }
    else (s.modTwn fun x => { x with mbw := rest }).mbwPut n e ws)

/-- TWIN_CMP_RX. -/
def execTwinCmpRx (r : TwinRx) (s : State) : Answer :=
  .next (s.twinRx r 5 fun f s =>
    match (List.finRange 8).find? fun (t : Fin 8) => t.val == twNum f 1 1 with
    | none => s
    | some t =>
      if s.twn.role ≠ .standby then s else
      let n := wd (twNum f 2 4)
      let d : Dword := BitVec.ofNat 64 (twNum f 6 8)
      match s.twn.cmpOwn.find? fun e => e.1 == t && e.2.1 == n with
      | some e => (s.modTwn fun x => { x with cmpOwn := x.cmpOwn.filter fun e => e.1 != t }).cmpJudge t e.2.2 d
      | none => s.modTwn fun x => { x with cmpRx := (t, n, d) :: x.cmpRx.filter fun e => e.1 != t })

/-- MIRROR_OVERRUN: a frame has waited too long in the active unit's queue (R463). -/
def execMirrorOverrun (s : State) : Answer :=
  if s.alive && s.twnEn && s.twn.role == .active && s.twn.sync then .next s.twnLose else .next s

/-- An input word that has not been sent for REFRESH ms. -/
def State.mirDue (s : State) (m : MapE) : Bool :=
  match s.twn.mirSent.find? fun e => e.1 == m.piw with
  | none => true
  | some e => decide (e.2 + 1000000 * fld (s.rd Reg.twnRefresh) 0 7 ≤ s.now)

/-- TWIN_MIR_REFRESH: the first input word that is due is sent again. -/
def execTwinMirRefresh (s : State) : Answer :=
  if !(s.alive && s.twnEn && s.twn.role == .active) then .next s else
  match (s.maps.filter fun m => !m.out).find? s.mirDue with
  | none => .next s
  | some m => match s.readLines 6 [(pimIpi + m.piw) / 8, (pimIst + m.piw) / 8] with
    | (s, false) => .next s
    | (s, true) => .next (s.mirSend m.piw (s.pimRd (pimIpi + m.piw)) (s.pimRd (pimIst + m.piw)) (s.fresh m.piw))

/-! ## The grant (R458, R468, R470, R472) -/

/-- TWIN_GRANT_REQUEST: a unit in WAIT asks every 1 ms. -/
def execTwinGrantRequest (s : State) : Answer :=
  if s.alive && s.twnEn && s.twn.role == .wait && decide (s.twn.askAt ≤ s.now) then
    .next ((s.owlTell 3).modTwn fun x => { x with askAt := s.now + 1000000 })
  else .next s

/-- HEARTBEAT_LOST: none for 150 µs, or the last said SAFE. -/
def execHeartbeatLost (s : State) : Answer :=
  if !(s.alive && s.twnEn && s.twn.hbOk && (decide (s.twn.hbAt + 150000 ≤ s.now) || bit (s.rd Reg.twnPeer) 5)) then .next s else
  let s := s.modTwn fun x => { x with hbOk := false }
  if s.twn.role ≠ .standby then .next s else
  let s := ((s.modTwn fun x => { x with lostAt := some s.now, told308 := false }).evt 0x39 1).raise 0x3901 []
  .next (if s.twn.fit && s.twn.sync then (s.owlTell 3).modTwn fun x => { x with reqAt := some s.now } else s)

/-- REQUEST_REPEAT: every 20 µs; after 60 µs without an answer the referee counts as unreachable. -/
def execRequestRepeat (s : State) : Answer :=
  match s.twn.role, s.twn.reqAt with
  | .standby, some t =>
    if !(s.alive && s.twnEn && decide (t + 20000 ≤ s.now)) then .next s else
    let s := (s.owlTell 3).modTwn fun x => { x with reqAt := some s.now }
    let late := match s.twn.lostAt with
      | none => false
      | some l => decide (l + 60000 ≤ s.now)
    .next (if late && !s.twn.told308 then
      ((s.modTwn fun x => { x with told308 := true, refOk := false }).evt 0x39 64).raise 0x3908 [] else s)
  | _, _ => .next s

/-- The referee has answered this unit. -/
def State.refAnswer (s : State) : State := s.modTwn fun x => { x with refOk := true, ansAt := s.now + 1 }

/-- A message of the referee is for this unit. -/
def State.owlMine (s : State) (m : OwlMsg) : Bool :=
  s.alive && s.twnEn && m.crcOk && m.pair == s.pairId && m.unit == BitVec.ofBool s.twnUnit

/-- Every source restates its words (R462). -/
def State.restate (s : State) : State := s.twn.own.foldl (fun s o => s.ipiSet o.piw o.value o.st o.fresh) s

/-- Gratuitous ARP for SVCIP on a plane (R470). -/
def State.svcArp (s : State) (x : Nat) : State :=
  let ip := s.rd Reg.twnSvcip
  s.p3Send x 0 0xffffffffffff 64 (.arp ⟨false, Config.mac x, ip, ip⟩)

/-- TAKEOVER (R470). -/
def State.takeover (s : State) : State :=
  let us := match s.twn.lostAt with
    | none => 0
    | some l => (s.now - l) / 1000
  let s := ((s.restate.setTwnRole .active).evt 0x39 2).raise 0x3902 []
  let s := s.modTwn fun x =>
    { x with sync := false, reqAt := none, lostAt := none, own := [], mir := [], trgs := [], mbw := [], cmpRx := [], cmpOwn := []
             ackAt := s.now, told30b := false }
  let s := (s.count Reg.twnTakeovers).wr Reg.twnLastto (wd (satNat 0xffffffff us))
  (((s.lcrShow).svcArp 0).svcArp 1).owlTell 1

/-- REF_GRANT_RX. -/
def execRefGrantRx (m : OwlMsg) (s : State) : Answer :=
  if !(s.owlMine m && m.valid && m.holder == m.unit) then .next s else
  let s := s.refAnswer
  match s.twn.role with
  | .wait => .next (((s.setTwnRole .active).modTwn fun x => { x with ackAt := s.now, told30b := false }).lcrShow)
  | .standby => if s.twn.reqAt.isSome then .next s.takeover else .next s
  | .alone => .next s
  | .active => .next s
  | .joining => .next s
  | .unfit => .next s

/-- REF_DENY_RX. -/
def execRefDenyRx (m : OwlMsg) (s : State) : Answer :=
  if !s.owlMine m then .next s else
  let s := s.refAnswer
  match s.twn.role with
  | .wait => if m.valid && m.holder != m.unit then .next s.twnJoin else .next s
  | .standby =>
    if s.twn.reqAt.isSome then
      .next (((s.modTwn fun x => { x with sync := false, reqAt := none }).evt 0x39 32).raise 0x3907 [])
    else .next s
  | .alone => .next s
  | .active => .next s
  | .joining => .next s
  | .unfit => .next s

/-- RENEW_ACK_RX. -/
def execRenewAckRx (m : OwlMsg) (s : State) : Answer :=
  if s.owlMine m then .next (s.refAnswer.modTwn fun x => { x with ackAt := s.now, told30b := false }) else .next s

/-- RENEW_ACK_TIMEOUT: 0x390b once, and the unit stays ACTIVE. -/
def execRenewAckTimeout (s : State) : Answer :=
  if s.alive && s.twnEn && s.twn.role == .active && decide (s.twn.ackAt + 100000 ≤ s.now) && !s.twn.told30b then
    .next ((s.modTwn fun x => { x with told30b := true, refOk := false }).raise 0x390b [])
  else .next s

/-! ## This module as a referee (R467, R469) -/

/-- The pair that a message names, if this module is its referee. -/
def State.refPair (s : State) (m : OwlMsg) : Option (Fin 8) :=
  if s.alive && s.mstate != .boot && bit (s.rd Reg.twnCtrl) 2 && m.crcOk then
    (List.finRange 8).find? fun (k : Fin 8) =>
      let w := s.rd (Reg.twnRefpair k)
      bit w 31 && fld w 0 16 == m.pair.toNat
  else none

/-- The unit of a message is the one that holds or last held the grant. -/
def RefPair.heldBy (p : RefPair) (m : OwlMsg) : Bool := p.expiry != 0 && p.holder == (m.unit == 1)

/-- The grant is held and not expired. -/
def RefPair.held (p : RefPair) (now : Nat) : Bool := p.valid && decide (now < p.expiry)

/-- The answer to a message: RENEW_ACK (2), GRANT (4) or DENY (5). -/
def State.refReply (s : State) (m : OwlMsg) (k : Fin 8) (kind : Nat) : State :=
  let p := s.twn.pairs[k]
  s.owlSend kind m.pair (m.unit == 1) p.holder p.valid

def State.setPair (s : State) (k : Fin 8) (p : RefPair) : State :=
  s.modTwn fun x => { x with pairs := Vec.upd x.pairs k fun _ => p }

/-- REFEREE_RENEW_RX. -/
def execRefereeRenewRx (m : OwlMsg) (s : State) : Answer :=
  match s.refPair m with
  | none => .next s
  | some k =>
    let p := s.twn.pairs[k]
    if p.heldBy m then .next ((s.setPair k ⟨p.holder, true, s.now + 100000⟩).refReply m k 2) else .next (s.refReply m k 5)

/-- REFEREE_REQUEST_RX. -/
def execRefereeRequestRx (m : OwlMsg) (s : State) : Answer :=
  match s.refPair m with
  | none => .next s
  | some k =>
    let p := s.twn.pairs[k]
    if p.held s.now then .next (s.refReply m k (if p.heldBy m then 4 else 5))
    else .next ((s.setPair k ⟨m.unit == 1, true, s.now + 100000⟩).refReply m k 4)

/-- REFEREE_RELINQUISH_RX. -/
def execRefereeRelinquishRx (m : OwlMsg) (s : State) : Answer :=
  match s.refPair m with
  | none => .next s
  | some k =>
    let p := s.twn.pairs[k]
    if p.heldBy m then .next (s.setPair k ⟨p.holder, false, s.now⟩) else .next s

/-- REFEREE_GRANT_EXPIRY. -/
def execRefereeGrantExpiry (k : Fin 8) (s : State) : Answer :=
  let p := s.twn.pairs[k]
  if s.alive && p.valid && decide (p.expiry ≤ s.now) then .next (s.setPair k ⟨p.holder, false, p.expiry⟩) else .next s

/-! ## Supervision of the group switches (spec/19_faults_and_diagnostics.md R485, R487) -/

/-- One group's age. -/
def State.gsAge (s : State) (g : Nat) : State :=
  let h := satNat 0xffff ((s.now - (s.fioG g).gswAt) / 3600000000000)
  let was := (s.rd (Reg.diaGsage g)).toNat
  let max := fld (s.rd Reg.diaGsmax) 0 16
  let s := s.wr (Reg.diaGsage g) (wd h)
  let due := decide (was < h) && max != 0 && h / max != was / max && ((List.range 4).any fun k => s.fioOuten g k)
  if due then (s.evt 4 8).raise 0x0403 [wd g] else s

/-- GSAGE_HOUR. -/
def execGsageHour (s : State) : Answer :=
  if s.alive then .next ((List.range 4).foldl State.gsAge s) else .next s

/-- DIA.CNTCLR = 0x1. -/
def State.diaClear (s : State) : State :=
  (List.range 64).foldl (fun s p => s.wr (Reg.diaFcnt p) 0) ((s.wr Reg.diaFltcnt 0).wr Reg.diaEvtcnt 0)

end Sys2Proof.Machine
end

