-- ==== Sys2Proof/Machine/Access.lean ====
section
/-!
DEFINITION. Host writes to BAR0: the judgement by physical function, access code, lock, seal and gate, and what each register
of the 38 pages does with the value (spec/02_register_pages.md R32 to R46, spec/16_clocks_and_power.md R415,
spec/14_host_and_mailboxes.md R384, R386).
-/
namespace Sys2Proof.Machine

/-! ## Who may write (R32, R39 to R43) -/

/-- The index of an offset in an array of the MBX page. -/
def mbxIdx (off base : Nat) : Option Nat := arrayIdx base 32 4 off

/-- PF1 may write the register: those of MID 0x9 in MBX and DBL (R32, R384, R386). -/
def State.pf1Owns (s : State) (a : Nat) (v : Word) : Bool :=
  let p := a / 0x1000
  let off := a % 0x1000
  if p = 0x31 then
    ([0xa0, 0x220, 0x2a0, 0x320, 0x3a0].any fun b => match mbxIdx off b with
      | some n => (s.endOf n 9).isSome
      | none => false) ||
    (off == 0x4a0 && (s.endOf (fld v 0 5) 9).isSome)
  else if p = 0x32 then
    off == 0xb0 || off == 0xb4 || (decide (0x220 ≤ off) && decide (off < 0x240)) ||
      (decide (0x600 ≤ off) && decide (off < 0x800))
  else false

/-- The registers of DBL that belong to MID 0x9, which PF0 does not write (R386). -/
def pf1Only (a : Nat) : Bool :=
  let off := a % 0x1000
  a / 0x1000 == 0x32 &&
    (off == 0xb0 || off == 0xb4 || (decide (0x220 ≤ off) && decide (off < 0x240)) ||
      (decide (0x600 ≤ off) && decide (off < 0x800)))

/-- A window data word that its page's map calls read-only (spec/11_train_network.md R314, R315, spec/12_bridges.md R337,
R338, spec/05_tasks_and_modes.md R159). -/
def State.winRo (s : State) (a : Nat) : Bool :=
  winDataRo a || (a == 0x22068 && bit (s.rd Reg.trdWinIdx) 16) || a == 0xc03c

/-- The access code allows a write (R39, R41, R43). -/
def State.codeAllows (s : State) (p : Nat) (acc : Acc) : Bool :=
  match acc with
  | .ro => false
  | .rw => true
  | .w1c => true
  | .wo => true
  | .rwl => !s.locked p
  | .rws => s.eng.mode == .stop && !(s.imgRun && s.imgSealed)

/-- The write is refused before its value matters: by the physical function, the seal, the access code or the gate. -/
def State.writeBarred (s : State) (pf : Pf) (a : Nat) (v : Word) (acc : Acc) : Bool :=
  let p := a / 0x1000
  (match pf with
    | .pf0 => pf1Only a
    | .pf1 => !s.pf1Owns a v) ||
  s.sealRo p || !s.codeAllows p acc || s.winRo a || s.gatedOff p

/-- A refused write of either function: WREFUSED, and HOLDREF for DBG.CMD under a sealed image (spec/05_tasks_and_modes.md R160). -/
def State.refuseWrite (s : State) (a : Nat) : State :=
  let p := a / 0x1000
  if a = Reg.dbgCmd ∧ s.sealRo p then (s.refuse p).holdRef else s.refuse p

/-- The value that locks a page, and what a locked page's LOCK reads (R43). -/
def lockKey : Word := 0x4c4f434b

/-- LOCK is written: any other value is ignored. -/
def State.lockPut (s : State) (p : Nat) (v : Word) : State := if v = lockKey then s.wr (p * 0x1000 + 0x1c) 1 else s

/-! ## Pages whose registers have effects of their own: none where the write is refused with WREFUSED -/

/-- A register with a range and relations, and no more (R39 and the page's own rules). -/
def State.checkedPut (s : State) (a : Nat) (v : Word) : Option State :=
  if regAlone a v && (s.wr a v).regJoint a then some (s.plainPut a v) else none

/-- SYS (spec/17_start_up_and_update.md R451). -/
def State.sysPut (s : State) (off : Nat) (v : Word) : Option State :=
  match off with
  | 0x38 => if v = 0x5a5a then some (s.takeReset .request) else none
  | 0x3c =>
    if v = 0x5a5a5a01 then some (s.sleepRequest false) else if v = 0x5a5a5a02 then some (s.sleepRequest true) else none
  | 0x48 => oneCmd v (s.sysSnap v)
  | _ => s.checkedPut off v

/-- FRC (spec/05_tasks_and_modes.md R148, R159). -/
def State.frcPut (s : State) (off : Nat) (v : Word) : Option State :=
  match off with
  | 0x20 => s.winSelect .frc v
  | 0x24 => if v = 1 then s.forceCommit else if v = 2 then s.forceRelease else none
  | 0x40 => oneCmd v s.forceReleaseAll
  | _ => s.checkedPut (0xc000 + off) v

/-- DBG (spec/05_tasks_and_modes.md R160). -/
def State.dbgPut (s : State) (off : Nat) (v : Word) : Option State :=
  match off with
  | 0x20 =>
    if v = 1 then some (s.holdResume .pf0) else if v = 2 then some (s.holdStep .pf0 Upset.none)
    else if v = 3 then some (s.holdStop .pf0) else some ((s.refuse 13).holdRef)
  | _ => s.checkedPut (0xd000 + off) v

/-- CLK (spec/16_clocks_and_power.md R409, R415, R427). -/
def State.clkPut (s : State) (off : Nat) (v : Word) : Option State :=
  match off with
  | 0x20 => s.cmdPut Reg.clkSwcmd v
  | 0x30 => s.cmdPut Reg.clkRtcsnap v
  | _ => match arrayIdx 0x40 16 4 off with
    | some k =>
      if bit (gateMask k) 0 && !bit v 0 && s.leafBusy k then none else some (s.plainPut (0x2000 + off) v)
    | none => s.checkedPut (0x2000 + off) v

/-- DEC (spec/10_decimation.md R265, R276, R281, R283). -/
def State.decPut (s : State) (off : Nat) (v : Word) : Option State :=
  match off with
  | 0x08 => s.decCtrlWrite v
  | 0x120 => s.decTestWrite v
  | _ => match arrayIdx 0x20 16 4 off with
    | some k => s.dscfgWrite k v
    | none => s.checkedPut (0x18000 + off) v

/-- TPIN (spec/13_time.md R350 to R353, R359). -/
def State.tpinPut (s : State) (off : Nat) (v : Word) : Option State :=
  if 0x20 ≤ off then s.pinWrite ((off - 0x20) / 0x20) ((off - 0x20) % 0x20 / 4) v else s.checkedPut (0x19000 + off) v

/-- The ring registers that the host may not write while HOSTEN is 1 (spec/11_train_network.md R293). -/
def ringFixed (off : Nat) : Bool := [0x60, 0x64, 0x70, 0x74].contains off

/-- NETA and NETB (spec/11_train_network.md R291, R293, R312). -/
def State.netPut (s : State) (x off : Nat) (v : Word) : Option State :=
  let a := (0x20 + x) * 0x1000 + off
  if off = 0xc0 then s.cmdPut a v
  else if off = 0x28 ∧ bit (s.netCtrl x) 3 then none
  else if ringFixed off && s.hostEn x then none
  else s.checkedPut a v

/-- A page with a window over one table (R46). -/
def State.winPut (s : State) (w : Win) (a : Nat) (v : Word) : Option State :=
  let d := winDef w
  if a = d.idx then s.winSelect w v else if a = d.cmd then s.cmdPut a v else s.checkedPut a v

/-- PTP (spec/13_time.md R341, R357). -/
def State.ptpPut (s : State) (off : Nat) (v : Word) : Option State :=
  match off with
  | 0x30 => s.cmdPut Reg.ptpTsnap v
  | 0x54 => s.cmdPut Reg.ptpSetcmd v
  | _ => s.checkedPut (0x24000 + off) v

/-- CAN0 to CAN3: timing is refused while the channel is enabled (spec/12_bridges.md R335). -/
def State.canPut (s : State) (c off : Nat) (v : Word) : Option State :=
  let a := (0x28 + c) * 0x1000 + off
  if off = 0x2c then s.cmdPut a v
  else if [0x20, 0x24, 0x28].contains off && s.canEn c then none
  else s.checkedPut a v

/-- HIF: a semaphore takes HPF0's MID (R48). -/
def State.hifPut (s : State) (off : Nat) (v : Word) : Option State :=
  match arrayIdx 0x100 32 4 off with
  | some k => some (s.semPut k 8 v)
  | none => s.checkedPut (0x30000 + off) v

/-- MBX (spec/14_host_and_mailboxes.md R367 to R374, R384). -/
def State.mbxPut (s : State) (pf : Pf) (off : Nat) (v : Word) : Option State :=
  match mbxIdx off 0x20 with
  | some n => s.bindWrite n v
  | none => match mbxIdx off 0xa0 with
  | some n => s.cstatClear pf n v
  | none => match mbxIdx off 0x220 with
  | some n => s.txWord pf n v
  | none => match mbxIdx off 0x2a0 with
  | some n => s.txCommit pf n (fld v 0 5)
  | none => match mbxIdx off 0x320 with
  | some n => if v = 1 then s.rxPop pf n else none
  | none => match mbxIdx off 0x3a0 with
  | some n => if v = 1 then s.endRst pf n else none
  | none =>
    if off = 0x420 then some (s.rxSelect 0 v)
    else if off = 0x4a0 then some (s.rxSelect 1 v)
    else s.checkedPut (0x31000 + off) v

/-- DBL (spec/14_host_and_mailboxes.md R378, R381, R386): clearing a mask bit sends a pending message, and a rise of SBCTRL.EN
makes the next block a first one. -/
def State.dblPut (s : State) (off : Nat) (v : Word) : State :=
  let a := 0x32000 + off
  let f := if 0x600 ≤ off then 1 else 0
  let t := s.wr a v
  if 0x400 ≤ off ∧ off % 0x10 = 0xc then
    if bit (s.rd a) 0 && !bit v 0 then t.unmask f ((off - 0x400 - 0x200 * f) / 0x10) else t
  else if (off = 0x208 ∨ off = 0x228) ∧ bit v 0 ∧ !bit (s.rd a) 0 then
    t.modFn (if off = 0x228 then 1 else 0) fun x => { x with prev := none }
  else t

/-- SETT (spec/15_sett_recorder.md R396, R400, R401, R405). -/
def State.settPut (s : State) (off : Nat) (v : Word) : Option State :=
  match off with
  | 0x20 => s.settCmd v
  | 0x24 => oneCmd v (s.settSnap v)
  | 0x80 => some (s.readStart v)
  | _ => s.checkedPut (0x34000 + off) v

/-- A defined, allowed register takes its value, reserved bits left out: none where the value is refused (R39). -/
def State.regPut (s : State) (pf : Pf) (a : Nat) (v : Word) (acc : Acc) : Option State :=
  let p := a / 0x1000
  let off := a % 0x1000
  if off = 0x1c then some (s.lockPut p v)
  else if p = 0x31 ∧ 0x20 ≤ off then s.mbxPut pf off v
  else if acc = .w1c then some (s.wr a (s.rd a &&& ~~~ v))
  else if off = 0x14 then some (s.wr a v)
  else match p with
  | 0x00 => s.sysPut off v
  | 0x02 => s.clkPut off v
  | 0x04 => if off = 0x50 then oneCmd v s.diaClear else s.checkedPut a v
  | 0x08 => if off = 0x08 then some (s.engCtrlWrite pf v) else s.checkedPut a v
  | 0x0a => if off = 0x40 then s.cmdPut a v else s.checkedPut a v
  | 0x0c => s.frcPut off v
  | 0x0d => s.dbgPut off v
  | 0x10 => if off = 0x94 then s.cmdPut a v else s.checkedPut a v
  | 0x11 => if off = 0x94 then s.cmdPut a v else s.checkedPut a v
  | 0x12 => if off = 0x94 then s.cmdPut a v else s.checkedPut a v
  | 0x13 => if off = 0x94 then s.cmdPut a v else s.checkedPut a v
  | 0x18 => s.decPut off v
  | 0x19 => s.tpinPut off v
  | 0x20 => s.netPut 0 off v
  | 0x21 => s.netPut 1 off v
  | 0x22 => s.winPut .trd a v
  | 0x23 => s.winPut .twp a v
  | 0x24 => s.ptpPut off v
  | 0x28 => s.canPut 0 off v
  | 0x29 => s.canPut 1 off v
  | 0x2a => s.canPut 2 off v
  | 0x2b => s.canPut 3 off v
  | 0x2c => s.winPut .mvb a v
  | 0x2d => s.winPut .brg a v
  | 0x30 => s.hifPut off v
  | 0x32 => some (s.dblPut off v)
  | 0x34 => s.settPut off v
  | 0x38 => if off = 0x60 then s.otpCmd v else s.checkedPut a v
  | 0x39 => if off = 0x38 then s.cmdPut a v else s.checkedPut a v
  | _ => s.checkedPut a v

/-- The bits of a written value that count: the rule registers of RFX see reserved bits too (R40). -/
def keepBits (d : RegDef) (v : Word) : Word := v &&& d.mask

/-- A host write of 4 bytes to BAR0 (R32, R35, R39 to R43). -/
def State.hostWrite (s : State) (pf : Pf) (a : Nat) (v : Word) : State :=
  match regDef a with
  | none => s
  | some d =>
    if s.writeBarred pf a v d.acc then s.refuseWrite a
    else (s.regPut pf a (keepBits d v) d.acc).getD (s.refuse (a / 0x1000))

/-- A host write of any size (R42). -/
def State.hostWriteN (s : State) (pf : Pf) (a size : Nat) (v : Dword) : State :=
  if a % 4 = 0 ∧ size = 4 then s.hostWrite pf a (v.truncate 32)
  else if a % 4 = 0 ∧ size = 8 then
    let t := s.hostWrite pf a (v.truncate 32)
    if t.booted then t.hostWrite pf (a + 4) ((v >>> 32).truncate 32) else t
  else match regDef (a - a % 4) with
    | none => s
    | some _ => s.refuseWrite (a - a % 4)

/-- A host write once BOOT has ended, as a command. -/
def State.hostCmd (s : State) (pf : Pf) (a : Nat) (v : Word) : Answer :=
  if s.booted then .next (s.hostWrite pf a v) else .next s

/-! ## Commands -/

/-- REG_WRITE. -/
def execRegWrite (pf : Pf) (off : BitVec 20) (size : Nat) (v : Dword) (s : State) : Answer :=
  if s.booted then .next (s.hostWriteN pf off.toNat size v) else .next s

/-- PAGE_LOCK. -/
def execPageLock (pf : Pf) (page : Byte) (v : Word) (s : State) : Answer := s.hostCmd pf (page.toNat * 0x1000 + 0x1c) v

/-- WIN_SELECT, WIN_SELECT_DONE. -/
def execWinSelect (w : Win) (pf : Pf) (v : Word) (s : State) : Answer := s.hostCmd pf (winDef w).idx v
def execWinSelectDone (w : Win) (s : State) : Answer :=
  if s.alive && s.rd (winDef w).stat != 0 then .next (s.winShow w) else .next s

/-- The commands of the windows. -/
def execForceCommit (pf : Pf) (s : State) : Answer := s.hostCmd pf Reg.frcWinCmd 1
def execForceRelease (pf : Pf) (s : State) : Answer := s.hostCmd pf Reg.frcWinCmd 2
def execForceReleaseAll (pf : Pf) (s : State) : Answer := s.hostCmd pf Reg.frcRelall 1
def execTrdWinCommit (pf : Pf) (s : State) : Answer := s.hostCmd pf Reg.trdWinCmd 1
def execTwpWinCommit (pf : Pf) (s : State) : Answer := s.hostCmd pf Reg.twpWinCmd 1
def execBrgWinCommit (pf : Pf) (s : State) : Answer := s.hostCmd pf Reg.brgWinCmd 1
def execMvbWinCommit (pf : Pf) (s : State) : Answer := s.hostCmd pf Reg.mvbWinCmd 1

/-- VOTE.SIGSNAP. -/
def execSignatureSnapshot (pf : Pf) (s : State) : Answer := s.hostCmd pf Reg.voteSigsnap 1

/-- DEC.DSCFGk and DEC.TEST. -/
def execDscfgWrite (pf : Pf) (k : Fin 16) (v : Word) (s : State) : Answer := s.hostCmd pf (Reg.decDscfg k) v
def execDecTestStart (pf : Pf) (tmd : Byte) (s : State) : Answer := s.hostCmd pf Reg.decTest (wd (1 + 256 * tmd.toNat))
def execDecTestStop (pf : Pf) (s : State) : Answer := s.hostCmd pf Reg.decTest (s.rd Reg.decTest &&& 0xff00)

/-- NETx.HTXPROD, HRXCONS and CNTCLR. -/
def execHostTxProduce (pf : Pf) (x : Plane) (v : Word) (s : State) : Answer := s.hostCmd pf (Reg.netHtxprod (planeIdx x)) v
def execHostRxConsume (pf : Pf) (x : Plane) (v : Word) (s : State) : Answer := s.hostCmd pf (Reg.netHrxcons (planeIdx x)) v
def execNetCounterClear (pf : Pf) (x : Plane) (s : State) : Answer := s.hostCmd pf (Reg.netCntclr (planeIdx x)) 1

/-- CANx.CMD. -/
def execCanRecoveryCmd (pf : Pf) (c : Fin 4) (s : State) : Answer := s.hostCmd pf (Reg.canCmd c) 1

/-- PTP.SETCMD, PTP.TSNAP, SYS.SNAP. -/
def execTimeSetCmd (pf : Pf) (s : State) : Answer := s.hostCmd pf Reg.ptpSetcmd 1
def execTimeSnapshot (pf : Pf) (s : State) : Answer := s.hostCmd pf Reg.ptpTsnap 1
def execMtimeSnapshot (pf : Pf) (s : State) : Answer := s.hostCmd pf Reg.sysSnap 1

/-- A register of a time pin's block. -/
def execTpinConfigWrite (pf : Pf) (n : Fin 8) (reg : Fin 8) (v : Word) (s : State) : Answer :=
  s.hostCmd pf (0x19020 + 0x20 * n.val + 4 * reg.val) v

/-- The mailbox registers. -/
def execMbTxWord (pf : Pf) (n : Fin 32) (v : Word) (s : State) : Answer := s.hostCmd pf (Reg.mbxTxword n) v
def execMbTxCommit (pf : Pf) (n : Fin 32) (len : BitVec 5) (s : State) : Answer :=
  s.hostCmd pf (Reg.mbxTxcommit n) (len.zeroExtend 32)
def execMbTxDiscard (pf : Pf) (n : Fin 32) (s : State) : Answer := s.hostCmd pf (Reg.mbxTxcommit n) 0
def execMbRxSelect (pf : Pf) (v : Word) (s : State) : Answer := s.hostCmd pf (Reg.mbxRxsel (pfIdx pf)) v
def execMbRxPop (pf : Pf) (n : Fin 32) (s : State) : Answer := s.hostCmd pf (Reg.mbxRxpop n) 1
def execMbEndReset (pf : Pf) (n : Fin 32) (s : State) : Answer := s.hostCmd pf (Reg.mbxEndrst n) 1
def execMbBindWrite (pf : Pf) (n : Fin 32) (v : Word) (s : State) : Answer := s.hostCmd pf (Reg.mbxBind n) v

/-- Vector Control of an MSI-X entry. -/
def execMsixUnmask (pf : Pf) (v : Fin 32) (s : State) : Answer := s.hostCmd pf (Reg.dblMsixCtl (pfIdx pf) v) 0

/-- SETT.CMD, SETT.SNAP and RDSEQ_LO. -/
def execSettSealCmd (pf : Pf) (s : State) : Answer := s.hostCmd pf Reg.settCmd 1
def execSettRestartCmd (pf : Pf) (s : State) : Answer := s.hostCmd pf Reg.settCmd 2
def execSettProtect (pf : Pf) (k : Fin 4) (s : State) : Answer := s.hostCmd pf Reg.settCmd (wd (3 + 16 * k.val))
def execSettReleaseRange (pf : Pf) (k : Fin 4) (s : State) : Answer := s.hostCmd pf Reg.settCmd (wd (4 + 16 * k.val))
def execSettSnapshot (pf : Pf) (s : State) : Answer := s.hostCmd pf Reg.settSnap 1
def execRecordRead (pf : Pf) (lo : Word) (s : State) : Answer := s.hostCmd pf Reg.settRdseqLo lo

/-- CLK.SWCMD and CLK.RTCSNAP. -/
def execClockSwitchPllA (pf : Pf) (s : State) : Answer := s.hostCmd pf Reg.clkSwcmd 1
def execClockSwitchPllB (pf : Pf) (s : State) : Answer := s.hostCmd pf Reg.clkSwcmd 2
def execRtcSnapshot (pf : Pf) (s : State) : Answer := s.hostCmd pf Reg.clkRtcsnap 1

/-- UPD.OTPCMD, TWN.REJOIN and DIA.CNTCLR. -/
def execOtpProvision (pf : Pf) (v : Word) (s : State) : Answer := s.hostCmd pf Reg.updOtpcmd v
def execTwinRejoin (pf : Pf) (s : State) : Answer := s.hostCmd pf Reg.twnRejoin 1
def execDiaCounterClear (pf : Pf) (s : State) : Answer := s.hostCmd pf Reg.diaCntclr 1

end Sys2Proof.Machine
end

