-- ==== Sys2Proof/Machine/Dispatch.lean ====
section
/-!
DEFINITION. The one dispatch: every command of the table with its meaning, one arm each.
-/
namespace Sys2Proof.Machine

/-- The effect of a command on everything but the queue. -/
def exec (i : Instr) (s : State) : Host.Outcome State Fault Refusal :=
  match i with
  | .mainSupplyUp => Sys2Proof.Machine.execMainSupplyUp s
  | .rstNAssert => Sys2Proof.Machine.execRstNAssert s
  | .rstNRelease => Sys2Proof.Machine.execRstNRelease s
  | .resetRequest pf v => Sys2Proof.Machine.execResetRequest pf v s
  | .resetRingWritten => Sys2Proof.Machine.execResetRingWritten s
  | .supplyFail => Sys2Proof.Machine.execSupplyFail s
  | .mainRailsFall => Sys2Proof.Machine.execMainRailsFall s
  | .bootClocksDone r => Sys2Proof.Machine.execBootClocksDone r s
  | .selfTestsDone r => Sys2Proof.Machine.execSelfTestsDone r s
  | .addressingDone present => Sys2Proof.Machine.execAddressingDone present s
  | .imageLoadDone flashOk otpOk => Sys2Proof.Machine.execImageLoadDone flashOk otpOk s
  | .safeHostNotify => Sys2Proof.Machine.execSafeHostNotify s
  | .safeTwinRelinquish => Sys2Proof.Machine.execSafeTwinRelinquish s
  | .regWrite pf off size v => Sys2Proof.Machine.execRegWrite pf off size v s
  | .pageLock pf page v => Sys2Proof.Machine.execPageLock pf page v s
  | .winSelect w pf v => Sys2Proof.Machine.execWinSelect w pf v s
  | .winSelectDone w => Sys2Proof.Machine.execWinSelectDone w s
  | .forceCommit pf => Sys2Proof.Machine.execForceCommit pf s
  | .forceRelease pf => Sys2Proof.Machine.execForceRelease pf s
  | .forceReleaseAll pf => Sys2Proof.Machine.execForceReleaseAll pf s
  | .trdWinCommit pf => Sys2Proof.Machine.execTrdWinCommit pf s
  | .twpWinCommit pf => Sys2Proof.Machine.execTwpWinCommit pf s
  | .brgWinCommit pf => Sys2Proof.Machine.execBrgWinCommit pf s
  | .mvbWinCommit pf => Sys2Proof.Machine.execMvbWinCommit pf s
  | .semWrite k mid v => Sys2Proof.Machine.execSemWrite k mid v s
  | .atomicOp pf r => Sys2Proof.Machine.execAtomicOp pf r s
  | .noticeSramWrite pf off data => Sys2Proof.Machine.execNoticeSramWrite pf off data s
  | .taskPeriodicTrigger t => Sys2Proof.Machine.execTaskPeriodicTrigger t s
  | .triggerAdmit => Sys2Proof.Machine.execTriggerAdmit s
  | .shadowCopyDone t => Sys2Proof.Machine.execShadowCopyDone t s
  | .segmentCond u => Sys2Proof.Machine.execSegmentCond u s
  | .activationComplete sig => Sys2Proof.Machine.execActivationComplete sig s
  | .commit lcr tel => Sys2Proof.Machine.execCommit lcr s tel
  | .startCommand pf => Sys2Proof.Machine.execStartCommand pf s
  | .stopCommand pf => Sys2Proof.Machine.execStopCommand pf s
  | .breakpointHalt => Sys2Proof.Machine.execBreakpointHalt s
  | .holdResume pf => Sys2Proof.Machine.execHoldResume pf s
  | .holdStep pf u => Sys2Proof.Machine.execHoldStep pf u s
  | .dbgStop pf => Sys2Proof.Machine.execDbgStop pf s
  | .changePauseBegin => Sys2Proof.Machine.execChangePauseBegin s
  | .changePauseEnd => Sys2Proof.Machine.execChangePauseEnd s
  | .bAnd u => Sys2Proof.Machine.execBAnd u s
  | .bOr u => Sys2Proof.Machine.execBOr u s
  | .bXor u => Sys2Proof.Machine.execBXor u s
  | .bNot u => Sys2Proof.Machine.execBNot u s
  | .bShl u => Sys2Proof.Machine.execBShl u s
  | .bShr u => Sys2Proof.Machine.execBShr u s
  | .bRol u => Sys2Proof.Machine.execBRol u s
  | .bRor u => Sys2Proof.Machine.execBRor u s
  | .bMove u => Sys2Proof.Machine.execBMove u s
  | .bEq u => Sys2Proof.Machine.execBEq u s
  | .bNe u => Sys2Proof.Machine.execBNe u s
  | .bLt u => Sys2Proof.Machine.execBLt u s
  | .bLe u => Sys2Proof.Machine.execBLe u s
  | .bGt u => Sys2Proof.Machine.execBGt u s
  | .bGe u => Sys2Proof.Machine.execBGe u s
  | .bWin u => Sys2Proof.Machine.execBWin u s
  | .bHyst u => Sys2Proof.Machine.execBHyst u s
  | .bAdd u => Sys2Proof.Machine.execBAdd u s
  | .bSub u => Sys2Proof.Machine.execBSub u s
  | .bMul u => Sys2Proof.Machine.execBMul u s
  | .bDiv u => Sys2Proof.Machine.execBDiv u s
  | .bMod u => Sys2Proof.Machine.execBMod u s
  | .bAddS u => Sys2Proof.Machine.execBAddS u s
  | .bSubS u => Sys2Proof.Machine.execBSubS u s
  | .bMulS u => Sys2Proof.Machine.execBMulS u s
  | .bAbs u => Sys2Proof.Machine.execBAbs u s
  | .bSqrt u => Sys2Proof.Machine.execBSqrt u s
  | .bMuldiv u => Sys2Proof.Machine.execBMuldiv u s
  | .bTrunc u => Sys2Proof.Machine.execBTrunc u s
  | .bConv u => Sys2Proof.Machine.execBConv u s
  | .bSel u => Sys2Proof.Machine.execBSel u s
  | .bMux u => Sys2Proof.Machine.execBMux u s
  | .bMin u => Sys2Proof.Machine.execBMin u s
  | .bMax u => Sys2Proof.Machine.execBMax u s
  | .bLimit u => Sys2Proof.Machine.execBLimit u s
  | .bRTrig u => Sys2Proof.Machine.execBRTrig u s
  | .bFTrig u => Sys2Proof.Machine.execBFTrig u s
  | .bSr u => Sys2Proof.Machine.execBSr u s
  | .bRs u => Sys2Proof.Machine.execBRs u s
  | .bTon u => Sys2Proof.Machine.execBTon u s
  | .bTof u => Sys2Proof.Machine.execBTof u s
  | .bTp u => Sys2Proof.Machine.execBTp u s
  | .bTacc u => Sys2Proof.Machine.execBTacc u s
  | .bCtu u => Sys2Proof.Machine.execBCtu u s
  | .bCtd u => Sys2Proof.Machine.execBCtd u s
  | .bCtud u => Sys2Proof.Machine.execBCtud u s
  | .bLag1 u => Sys2Proof.Machine.execBLag1 u s
  | .bDebnc u => Sys2Proof.Machine.execBDebnc u s
  | .bMavg u => Sys2Proof.Machine.execBMavg u s
  | .bRatel u => Sys2Proof.Machine.execBRatel u s
  | .bPi u => Sys2Proof.Machine.execBPi u s
  | .bPid u => Sys2Proof.Machine.execBPid u s
  | .bLin u => Sys2Proof.Machine.execBLin u s
  | .bScale u => Sys2Proof.Machine.execBScale u s
  | .bLookup u => Sys2Proof.Machine.execBLookup u s
  | .bSeq u => Sys2Proof.Machine.execBSeq u s
  | .bSeqt u => Sys2Proof.Machine.execBSeqt u s
  | .bGuard u => Sys2Proof.Machine.execBGuard u s
  | .bReset u => Sys2Proof.Machine.execBReset u s
  | .bAntiv u => Sys2Proof.Machine.execBAntiv u s
  | .bEquiv u => Sys2Proof.Machine.execBEquiv u s
  | .bFbmon u => Sys2Proof.Machine.execBFbmon u s
  | .bSpeed u => Sys2Proof.Machine.execBSpeed u s
  | .bCmparm u => Sys2Proof.Machine.execBCmparm u s
  | .bSmosel u => Sys2Proof.Machine.execBSmosel u s
  | .bQchk u => Sys2Proof.Machine.execBQchk u s
  | .bPack u => Sys2Proof.Machine.execBPack u s
  | .bUnpack u => Sys2Proof.Machine.execBUnpack u s
  | .bBswap u => Sys2Proof.Machine.execBBswap u s
  | .bMbsend u => Sys2Proof.Machine.execBMbsend u s
  | .bMbrecv u => Sys2Proof.Machine.execBMbrecv u s
  | .bRecev u => Sys2Proof.Machine.execBRecev u s
  | .agreementEpoch u => Sys2Proof.Machine.execAgreementEpoch s u
  | .inputAgreementOdd => Sys2Proof.Machine.execInputAgreementOdd s
  | .globalSignature sig => Sys2Proof.Machine.execGlobalSignature sig s
  | .resyncStart => Sys2Proof.Machine.execResyncStart s
  | .resyncEngineLoaded differ => Sys2Proof.Machine.execResyncEngineLoaded differ s
  | .resyncK0Load differ => Sys2Proof.Machine.execResyncK0Load differ s
  | .laneRejoin sig => Sys2Proof.Machine.execLaneRejoin sig s
  | .resyncStarved => Sys2Proof.Machine.execResyncStarved s
  | .signatureSnapshot pf => Sys2Proof.Machine.execSignatureSnapshot pf s
  | .pimWriteback => Sys2Proof.Machine.execPimWriteback s
  | .pimRetryEnd o => Sys2Proof.Machine.execPimRetryEnd o s
  | .scrubLine e => Sys2Proof.Machine.execScrubLine e s
  | .downstreamFrameTx g => Sys2Proof.Machine.execDownstreamFrameTx g s
  | .fieldDownstreamRx g noise railLow => Sys2Proof.Machine.execFieldDownstreamRx g noise railLow s
  | .fieldDownstreamMissing g => Sys2Proof.Machine.execFieldDownstreamMissing g s
  | .fieldLatchClear g => Sys2Proof.Machine.execFieldLatchClear g s
  | .fieldUpstreamTx g p => Sys2Proof.Machine.execFieldUpstreamTx g p s
  | .receiverLock g e => Sys2Proof.Machine.execReceiverLock g e s
  | .upstreamFrameRx g noise => Sys2Proof.Machine.execUpstreamFrameRx g noise s
  | .upstreamFrameMissing g => Sys2Proof.Machine.execUpstreamFrameMissing g s
  | .linkLoss g => Sys2Proof.Machine.execLinkLoss g s
  | .linkAccept g => Sys2Proof.Machine.execLinkAccept g s
  | .inputFilterAccept g k => Sys2Proof.Machine.execInputFilterAccept g k s
  | .classMismatch g => Sys2Proof.Machine.execClassMismatch g s
  | .laneWordInvalid g lane => Sys2Proof.Machine.execLaneWordInvalid g lane s
  | .fieldSideReset g => Sys2Proof.Machine.execFieldSideReset g s
  | .fieldSideRestart g => Sys2Proof.Machine.execFieldSideRestart g s
  | .testSourcePulseStart g t => Sys2Proof.Machine.execTestSourcePulseStart g t s
  | .testSourcePulseEnd g t => Sys2Proof.Machine.execTestSourcePulseEnd g t s
  | .comparatorTest g failed => Sys2Proof.Machine.execComparatorTest g failed s
  | .testPulseStart g k => Sys2Proof.Machine.execTestPulseStart g k s
  | .testPulseEnd g k => Sys2Proof.Machine.execTestPulseEnd g k s
  | .testPulseRequest pf g v => Sys2Proof.Machine.execTestPulseRequest pf g v s
  | .outputStuckOn g k => Sys2Proof.Machine.execOutputStuckOn g k s
  | .outputShort g k => Sys2Proof.Machine.execOutputShort g k s
  | .openLoad g k => Sys2Proof.Machine.execOpenLoad g k s
  | .pairDiscrepancy g p => Sys2Proof.Machine.execPairDiscrepancy g p s
  | .outputTrip g k overTemp => Sys2Proof.Machine.execOutputTrip g k overTemp s
  | .supplyThresholdCross g mv => Sys2Proof.Machine.execSupplyThresholdCross g mv s
  | .supplyCutoff g => Sys2Proof.Machine.execSupplyCutoff g s
  | .supplyReady g => Sys2Proof.Machine.execSupplyReady g s
  | .reflexEvaluate u => Sys2Proof.Machine.execReflexEvaluate u s
  | .resetButtonStuck r => Sys2Proof.Machine.execResetButtonStuck r s
  | .axisEdge ax lanes pa pb => Sys2Proof.Machine.execAxisEdge ax lanes pa pb s
  | .zMark ax lanes => Sys2Proof.Machine.execZMark ax lanes s
  | .ssiFrameStart ax dataLow => Sys2Proof.Machine.execSsiFrameStart ax dataLow s
  | .ssiFrameEnd ax ra errBit complete rb rc => Sys2Proof.Machine.execSsiFrameEnd ax ra errBit complete s rb rc
  | .lineFault ax bad => Sys2Proof.Machine.execLineFault ax s bad
  | .axisFaultClear ax => Sys2Proof.Machine.execAxisFaultClear ax s
  | .slotEvaluate => Sys2Proof.Machine.execSlotEvaluate s
  | .presetApply ax => Sys2Proof.Machine.execPresetApply ax s
  | .speedWindowUpdate m => Sys2Proof.Machine.execSpeedWindowUpdate m s
  | .monitorEvaluate m => Sys2Proof.Machine.execMonitorEvaluate m s
  | .monitorItemWrite => Sys2Proof.Machine.execMonitorItemWrite s
  | .conversionRound r => Sys2Proof.Machine.execConversionRound r s
  | .dscfgWrite pf k v => Sys2Proof.Machine.execDscfgWrite pf k v s
  | .fillEnd k => Sys2Proof.Machine.execFillEnd k s
  | .dsStuck k => Sys2Proof.Machine.execDsStuck k s
  | .noclk k => Sys2Proof.Machine.execNoclk k s
  | .noclkClear k => Sys2Proof.Machine.execNoclkClear k s
  | .decTestStart pf tmd => Sys2Proof.Machine.execDecTestStart pf tmd s
  | .decTestStop pf => Sys2Proof.Machine.execDecTestStop pf s
  | .switchFrameRx x port f => Sys2Proof.Machine.execSwitchFrameRx x port f s
  | .switchFrameTx x port => Sys2Proof.Machine.execSwitchFrameTx x port s
  | .p3FrameRx x f => Sys2Proof.Machine.execP3FrameRx x f s
  | .pdPublish e => Sys2Proof.Machine.execPdPublish e s
  | .p3FrameTx x => Sys2Proof.Machine.execP3FrameTx x s
  | .pdTimeout e => Sys2Proof.Machine.execPdTimeout e s
  | .telegramSend t scUpset => Sys2Proof.Machine.execTelegramSend t scUpset s
  | .compareWindowClose t => Sys2Proof.Machine.execCompareWindowClose t s
  | .telegramTimeout t => Sys2Proof.Machine.execTelegramTimeout t s
  | .hostTxProduce pf x v => Sys2Proof.Machine.execHostTxProduce pf x v s
  | .hostTxSend x => Sys2Proof.Machine.execHostTxSend x s
  | .hostRxConsume pf x v => Sys2Proof.Machine.execHostRxConsume pf x v s
  | .ethLinkChange x port spd => Sys2Proof.Machine.execEthLinkChange x port spd s
  | .addressAgeing x mac => Sys2Proof.Machine.execAddressAgeing x mac s
  | .netCounterClear pf x => Sys2Proof.Machine.execNetCounterClear pf x s
  | .canFrameRx c f => Sys2Proof.Machine.execCanFrameRx c f s
  | .canTxStart c => Sys2Proof.Machine.execCanTxStart c s
  | .canTxDone c r => Sys2Proof.Machine.execCanTxDone c r s
  | .canBusError c e => Sys2Proof.Machine.execCanBusError c e s
  | .canBusoffRecovery c => Sys2Proof.Machine.execCanBusoffRecovery c s
  | .canRecoveryCmd pf c => Sys2Proof.Machine.execCanRecoveryCmd pf c s
  | .mvbMasterFrame fcode addr => Sys2Proof.Machine.execMvbMasterFrame fcode addr s
  | .mvbSlaveFrame line addr data => Sys2Proof.Machine.execMvbSlaveFrame line addr data s
  | .mvbLineBad line => Sys2Proof.Machine.execMvbLineBad line s
  | .mvbSinkStale e => Sys2Proof.Machine.execMvbSinkStale e s
  | .minivRelease e => Sys2Proof.Machine.execMinivRelease e s
  | .bridgePoll => Sys2Proof.Machine.execBridgePoll s
  | .ptpSyncRx h twoStep origin t2 => Sys2Proof.Machine.execPtpSyncRx h twoStep origin t2 s
  | .ptpFollowUpRx h origin => Sys2Proof.Machine.execPtpFollowUpRx h origin s
  | .ptpAnnounceRx h a => Sys2Proof.Machine.execPtpAnnounceRx h a s
  | .ptpDelayRespRx h t4 => Sys2Proof.Machine.execPtpDelayRespRx h t4 s
  | .ptpPdelayRx h kind stamp rx => Sys2Proof.Machine.execPtpPdelayRx h kind stamp rx s
  | .ptpSyncTx => Sys2Proof.Machine.execPtpSyncTx s
  | .ptpAnnounceTx => Sys2Proof.Machine.execPtpAnnounceTx s
  | .ptpDelayReqTx => Sys2Proof.Machine.execPtpDelayReqTx s
  | .ptpMasterLost => Sys2Proof.Machine.execPtpMasterLost s
  | .holdoverLong => Sys2Proof.Machine.execHoldoverLong s
  | .timeSetCmd pf => Sys2Proof.Machine.execTimeSetCmd pf s
  | .timeSnapshot pf => Sys2Proof.Machine.execTimeSnapshot pf s
  | .mtimeSnapshot pf => Sys2Proof.Machine.execMtimeSnapshot pf s
  | .tpinConfigWrite pf n reg v => Sys2Proof.Machine.execTpinConfigWrite pf n reg v s
  | .tpinPulseStart n => Sys2Proof.Machine.execTpinPulseStart n s
  | .tpinPulseEnd n => Sys2Proof.Machine.execTpinPulseEnd n s
  | .tpinCaptureEdge n rising ta tb tc => Sys2Proof.Machine.execTpinCaptureEdge n rising ta tb tc s
  | .rtcSet => Sys2Proof.Machine.execRtcSet s
  | .pcieLinkDown => Sys2Proof.Machine.execPcieLinkDown s
  | .functionLevelReset pf => Sys2Proof.Machine.execFunctionLevelReset pf s
  | .perstAssert => Sys2Proof.Machine.execPerstAssert s
  | .mbTxWord pf n v => Sys2Proof.Machine.execMbTxWord pf n v s
  | .mbTxCommit pf n len => Sys2Proof.Machine.execMbTxCommit pf n len s
  | .mbTxDiscard pf n => Sys2Proof.Machine.execMbTxDiscard pf n s
  | .mbRxSelect pf v => Sys2Proof.Machine.execMbRxSelect pf v s
  | .mbRxWindowReady pf => Sys2Proof.Machine.execMbRxWindowReady pf s
  | .mbRxPop pf n => Sys2Proof.Machine.execMbRxPop pf n s
  | .mbEndReset pf n => Sys2Proof.Machine.execMbEndReset pf n s
  | .mbBindWrite pf n v => Sys2Proof.Machine.execMbBindWrite pf n v s
  | .c0MessageSend pf => Sys2Proof.Machine.execC0MessageSend pf s
  | .privVectorSend pf v => Sys2Proof.Machine.execPrivVectorSend pf v s
  | .statusBlockWrite pf => Sys2Proof.Machine.execStatusBlockWrite pf s
  | .msixUnmask pf v => Sys2Proof.Machine.execMsixUnmask pf v s
  | .recordIntake => Sys2Proof.Machine.execRecordIntake s
  | .openRecordExpiry => Sys2Proof.Machine.execOpenRecordExpiry s
  | .settSealCmd pf => Sys2Proof.Machine.execSettSealCmd pf s
  | .settRestartCmd pf => Sys2Proof.Machine.execSettRestartCmd pf s
  | .settProtect pf k => Sys2Proof.Machine.execSettProtect pf k s
  | .settReleaseRange pf k => Sys2Proof.Machine.execSettReleaseRange pf k s
  | .settRestartDone => Sys2Proof.Machine.execSettRestartDone s
  | .settSnapshot pf => Sys2Proof.Machine.execSettSnapshot pf s
  | .flashPageWrite ok => Sys2Proof.Machine.execFlashPageWrite ok s
  | .flushTimeout => Sys2Proof.Machine.execFlushTimeout s
  | .blockErase ok => Sys2Proof.Machine.execBlockErase ok s
  | .storeScanDone discarded => Sys2Proof.Machine.execStoreScanDone discarded s
  | .recordRead pf lo => Sys2Proof.Machine.execRecordRead pf lo s
  | .recordReadDone bad => Sys2Proof.Machine.execRecordReadDone s bad
  | .extractRequest => Sys2Proof.Machine.execExtractRequest s
  | .extractDone => Sys2Proof.Machine.execExtractDone s
  | .settMb2Command => Sys2Proof.Machine.execSettMb2Command s
  | .flashControllerFault => Sys2Proof.Machine.execFlashControllerFault s
  | .pllLockLost p => Sys2Proof.Machine.execPllLockLost p s
  | .pllReady p => Sys2Proof.Machine.execPllReady p s
  | .pllOutOfTolerance => Sys2Proof.Machine.execPllOutOfTolerance s
  | .tcxoFail => Sys2Proof.Machine.execTcxoFail s
  | .rtcCrystalFail => Sys2Proof.Machine.execRtcCrystalFail s
  | .clockSwitchPllA pf => Sys2Proof.Machine.execClockSwitchPllA pf s
  | .clockSwitchPllB pf => Sys2Proof.Machine.execClockSwitchPllB pf s
  | .rtcSnapshot pf => Sys2Proof.Machine.execRtcSnapshot pf s
  | .governorTempSample base die => Sys2Proof.Machine.execGovernorTempSample base die s
  | .opPgood => Sys2Proof.Machine.execOpPgood s
  | .opDividerSwitch => Sys2Proof.Machine.execOpDividerSwitch s
  | .opResume => Sys2Proof.Machine.execOpResume s
  | .opPgoodTimeout => Sys2Proof.Machine.execOpPgoodTimeout s
  | .coreUndervoltage => Sys2Proof.Machine.execCoreUndervoltage s
  | .tokenFill inputUj => Sys2Proof.Machine.execTokenFill inputUj s
  | .powerStateExit => Sys2Proof.Machine.execPowerStateExit s
  | .powerStateEarlyExit => Sys2Proof.Machine.execPowerStateEarlyExit s
  | .slumberRequest pf => Sys2Proof.Machine.execSlumberRequest pf s
  | .hibernateRequest pf => Sys2Proof.Machine.execHibernateRequest pf s
  | .sleepRingWritten => Sys2Proof.Machine.execSleepRingWritten s
  | .slumberWake c => Sys2Proof.Machine.execSlumberWake c s
  | .wakeFallingEdge => Sys2Proof.Machine.execWakeFallingEdge s
  | .dormouseDelayEnd low => Sys2Proof.Machine.execDormouseDelayEnd low s
  | .dormouseQuietClear => Sys2Proof.Machine.execDormouseQuietClear s
  | .chainTrainSend => Sys2Proof.Machine.execChainTrainSend s
  | .chainTrainRx pa valid pb pc => Sys2Proof.Machine.execChainTrainRx pa valid s pb pc
  | .chainAbsentTimeout => Sys2Proof.Machine.execChainAbsentTimeout s
  | .updOpen => Sys2Proof.Machine.execUpdOpen s
  | .updBlock => Sys2Proof.Machine.execUpdBlock s
  | .updBlockDone spare => Sys2Proof.Machine.execUpdBlockDone spare s
  | .updClose => Sys2Proof.Machine.execUpdClose s
  | .updAbort => Sys2Proof.Machine.execUpdAbort s
  | .updKey => Sys2Proof.Machine.execUpdKey s
  | .updRevoke => Sys2Proof.Machine.execUpdRevoke s
  | .guardedVerifyDone otpOk => Sys2Proof.Machine.execGuardedVerifyDone otpOk s
  | .imageActivationDone => Sys2Proof.Machine.execImageActivationDone s
  | .restoreDone ok => Sys2Proof.Machine.execRestoreDone ok s
  | .loaderRestart flashOk => Sys2Proof.Machine.execLoaderRestart flashOk s
  | .otpProvision pf v => Sys2Proof.Machine.execOtpProvision pf v s
  | .otpProgramDone => Sys2Proof.Machine.execOtpProgramDone s
  | .twinHbSend => Sys2Proof.Machine.execTwinHbSend s
  | .twinHbRx f => Sys2Proof.Machine.execTwinHbRx f s
  | .twinMirRx f => Sys2Proof.Machine.execTwinMirRx f s
  | .twinTrgRx f => Sys2Proof.Machine.execTwinTrgRx f s
  | .twinMbwRx f => Sys2Proof.Machine.execTwinMbwRx f s
  | .twinCmpRx f => Sys2Proof.Machine.execTwinCmpRx f s
  | .twinXfrRx f => Sys2Proof.Machine.execTwinXfrRx f s
  | .joinPassEnd last => Sys2Proof.Machine.execJoinPassEnd last s
  | .joinRestart => Sys2Proof.Machine.execJoinRestart s
  | .mirrorOverrun => Sys2Proof.Machine.execMirrorOverrun s
  | .twinGrantRequest => Sys2Proof.Machine.execTwinGrantRequest s
  | .heartbeatLost => Sys2Proof.Machine.execHeartbeatLost s
  | .requestRepeat => Sys2Proof.Machine.execRequestRepeat s
  | .refGrantRx m => Sys2Proof.Machine.execRefGrantRx m s
  | .refDenyRx m => Sys2Proof.Machine.execRefDenyRx m s
  | .renewAckRx m => Sys2Proof.Machine.execRenewAckRx m s
  | .renewAckTimeout => Sys2Proof.Machine.execRenewAckTimeout s
  | .refereeRenewRx m => Sys2Proof.Machine.execRefereeRenewRx m s
  | .refereeRequestRx m => Sys2Proof.Machine.execRefereeRequestRx m s
  | .refereeRelinquishRx m => Sys2Proof.Machine.execRefereeRelinquishRx m s
  | .twinRejoin pf => Sys2Proof.Machine.execTwinRejoin pf s
  | .gsageHour => Sys2Proof.Machine.execGsageHour s
  | .diaCounterClear pf => Sys2Proof.Machine.execDiaCounterClear pf s
  | .ptpDelayReqRx h t4 => Sys2Proof.Machine.execPtpDelayReqRx h t4 s
  | .pcieLinkUp gen width => Sys2Proof.Machine.execPcieLinkUp gen width s
  | .configSpaceWrite pf bme msix => Sys2Proof.Machine.execConfigSpaceWrite pf bme msix s
  | .dsStuckClear k => Sys2Proof.Machine.execDsStuckClear k s
  | .refereeGrantExpiry k => Sys2Proof.Machine.execRefereeGrantExpiry k s
  | .twinMirRefresh => Sys2Proof.Machine.execTwinMirRefresh s
  | .rtcCrystalReady => Sys2Proof.Machine.execRtcCrystalReady s

end Sys2Proof.Machine
end

