-- ==== Sys2Proof/Machine/Idle.lean ====
section
/-!
DEFINITION. What passes while no command waits: one edge of the 250 MHz timestamp clock (spec/13_time.md R339,
spec/16_clocks_and_power.md R413; DESIGN CHOICE, log entry 8).
-/
namespace Sys2Proof.Machine

/-- The module-time advance of one edge: 4 ns and the rate correction, with 32 fractional bits (R339). -/
def timeAcc (frac : BitVec 32) (rate : Word) : Int := frac.toNat + 4 * rate.toInt

/-- One edge of the timestamp clock. -/
def State.idleEdge (s : State) : State :=
  let s := if s.supply = .off ∨ s.pstate = .hibernate then s else { s with rtc := s.rtc.tick }
  if !s.alive then s else
  let acc := timeAcc s.frac (s.rd Reg.ptpRate)
  { s with now := s.now + (4 + acc.fdiv 4294967296).toNat, frac := BitVec.ofInt 32 acc }

end Sys2Proof.Machine
end

