-- ==== Sys2Proof/Machine/View.lean ====
section
/-!
DEFINITION. What a read of BAR0 or BAR2 returns: the registers that the register file does not hold itself but shows of the
blocks' state (spec/02_register_pages.md R30, R31, R35 to R45 and the page tables of the owning chapters). A read is no
command: it changes no state (R44).
-/
namespace Sys2Proof.Machine

def bootPhCode : BootPh → Nat
  | .clocks => 0 | .tests => 1 | .addressing => 2 | .image => 3 | .ended => 4

def engModeCode : EngMode → Nat
  | .stop => 0 | .run => 1 | .hold => 2

def UpdSt.view : UpdSt → Nat
  | .idle => 0 | .quick => 1 | .guarded => 2 | .verifying => 3 | .activating => 4 | .restoring => 5

def Role.view : Role → Nat
  | .alone => 0 | .wait => 1 | .active => 2 | .joining => 3 | .standby => 4 | .unfit => 5

/-! ## STAT [29:0] (R38 and the owning chapters) -/

/-- SYS.STAT (spec/17_start_up_and_update.md R452). -/
def State.sysStat (s : State) : Word :=
  wd (mstateCode s.mstate + 16 * bootPhCode s.bootPh + 256 * b2n s.imgRun + 512 * b2n (s.imgRun && s.imgSealed))

/-- CHN.STAT (R454). -/
def State.chnStat (s : State) : Word :=
  wd (flagsN [s.rd Reg.chnPos &&& 0x1f != 0, s.chain.present, s.chain.shown.isSome, s.chain.sentAt.isSome])

/-- DIA.STAT (spec/19_faults_and_diagnostics.md R488). -/
def State.diaStat (s : State) : Word := wd (flagsN [s.safeLatch, s.degraded, s.rd Reg.diaFltcnt != 0])

/-- ENG.STAT (spec/05_tasks_and_modes.md R156). -/
def State.engStat (s : State) : Word :=
  let t := match s.eng.running with
    | none => 0
    | some t => 16 * t.val + 128
  wd (engModeCode s.eng.mode + 4 * b2n s.eng.change.isPausing + t)

/-- VOTE.STAT (spec/06_triplex_execution.md R187). -/
def State.voteStat (s : State) : Word :=
  let busy := match s.lanes.rs with
    | .idle => false
    | .reset _ => true
    | .engine _ => true
    | .k0 _ => true
    | .agreed _ _ => true
  wd (s.lanes.held.toNat + 16 * s.lanes.retired.toNat + 256 * b2n busy + 512 * b2n (s.lanes.held != 0))

/-- PIM.STAT (R188). -/
def State.pimStat (s : State) : Word :=
  wd (flagsN [s.pimc.retry.isSome, s.booted && !s.pimc.scrubOff && s.pstate != .nap])

/-- RFX registers over all rules (spec/08_reflex_and_reaction.md R241, R242). -/
def State.guardWaits (s : State) (r : Nat) : Bool := s.gtest r && !(s.rule 0 r).tested
def rfxBits (half : Nat) (p : Nat → Bool) : Word := packBits 32 fun j => p (32 * half + j)
def rfxAny (p : Nat → Bool) : Bool := (List.range 64).any p
def State.rfxStat (s : State) : Word :=
  wd (flagsN [rfxAny fun r => (s.rule 0 r).latch, rfxAny fun r => (s.rule 0 r).stuck, rfxAny s.guardWaits])
def State.rstat (s : State) (r : Nat) : Word :=
  let x := s.rule 0 r
  wd (flagsN [x.cond, x.latch, x.armed, x.stuck, x.pressed, x.tested, s.guardWaits r, x.hold != 0])

/-- AXSg.STAT (spec/09_axes_and_safe_motion.md R262). -/
def State.axsStat (s : State) (g : Nat) : Word :=
  wd (flagsN ((List.range 6).map fun k => (s.axis (6 * g + k)).fault) +
    256 * flagsN ((List.range 6).map fun k => s.axRefd (6 * g + k)))

/-- Bits of all monitors. -/
def State.smoBits (s : State) (p : Smo → Bool) : Word := packBits 32 fun m => decide (m < 24) && p (s.smo m)
def State.smoStat (s : State) : Word := wd (flagsN [s.smoBits (fun x => x.viol) != 0, s.smoBits (fun x => x.fault) != 0])

/-- DEC.STAT and RSMPSTAT (spec/10_decimation.md R283). -/
def State.decStat (s : State) : Word :=
  packBits 16 (fun k => (s.ds k).valid) |||
    wd (0x10000 * flagsN [s.dec.own0, s.dec.own1, s.rsmpOn, s.dec.engFlt, s.decTest])
def State.rsmpStat (s : State) : Word :=
  if !s.rsmpOn then 0 else
  let on := (List.range 16).filter s.dsEn
  let ph := match on with
    | [] => 0
    | k :: _ => s.rsmpPhase k s.now
  packBits 16 s.dsEn ||| wd (0x10000 * ph + 0x80000000)

/-- TPIN.STAT and PSTAT (spec/13_time.md R359). -/
def State.tpinStat (s : State) : Word :=
  packBits 8 (fun n => (s.pin n).owner != .none) ||| packBits 16 fun n => decide (8 ≤ n) && (s.pin (n - 8)).running.isSome
def State.pstat (s : State) (n : Nat) : Word :=
  let p := s.pin n
  let own := match p.owner with
    | .none => 0
    | .mode => 0
    | .slot _ _ => 2
    | .mclk => 4
  wd (p.caps % 65536 + 0x10000 * p.miss + 0x1000000 * (b2n p.late + own))

/-- Some entry in use of a table has a bit of its status word set. -/
def State.entryAny (s : State) (t en j b : Nat) : Bool := (s.enabled t en).any fun e => bit (s.tbl t e j) b

/-- TWN.STAT (spec/18_twin_modules.md R474). -/
def State.twnStat (s : State) : Word :=
  wd (s.twn.role.view + 8 * flagsN [s.twn.fit, s.twn.sync, s.twn.hbOk, s.twn.refOk])

/-- STAT [29:0] of a page. -/
def State.blockStat (s : State) (p : Nat) : Word :=
  match p with
  | 0x00 => s.sysStat
  | 0x01 => s.chnStat
  | 0x03 => setBit (s.rd Reg.pwrStat) 6 (match s.pow.opc with
    | .none => false
    | .ramp _ _ => true
    | .ready _ => true
    | .halted _ => true)
  | 0x04 => s.diaStat
  | 0x08 => s.engStat
  | 0x0a => s.voteStat
  | 0x0b => s.pimStat
  | 0x10 => s.fioStat 0
  | 0x11 => s.fioStat 1
  | 0x12 => s.fioStat 2
  | 0x13 => s.fioStat 3
  | 0x14 => s.rfxStat
  | 0x15 => s.axsStat 0
  | 0x16 => s.axsStat 1
  | 0x17 => s.smoStat
  | 0x18 => s.decStat
  | 0x19 => s.tpinStat
  | 0x20 => setFld (s.rd (Reg.netStat 0)) 6 2 (b2n (s.netUp 0) + 2 * b2n (s.ipAddr 0 != 0))
  | 0x21 => setFld (s.rd (Reg.netStat 1)) 6 2 (b2n (s.netUp 1) + 2 * b2n (s.ipAddr 1 != 0))
  | 0x22 => b2w (s.entryAny 1 3 6 0)
  | 0x23 => wd (flagsN [s.entryAny 2 0 8 0, s.entryAny 2 0 8 1, (List.range 256).any fun t => (s.tel t).stopped])
  | 0x2c => setBit (s.rd Reg.mvbStat) 2 (s.entryAny 3 0 2 16)
  | 0x2d => wd (flagsN [s.entryAny 4 0 8 0, (List.range 7).any fun k => s.rd (Reg.brgDrop k) != 0])
  | 0x34 => wd s.settStat
  | 0x38 => s.rd Reg.updStat ||| wd s.upd.st.view
  | 0x39 => s.twnStat
  | _ => s.rd (p * 0x1000 + 0xc)

/-- STAT with its common bits (R38). -/
def State.statWord (s : State) (p : Nat) : Word := setFld (s.blockStat p) 30 2 (b2n (s.sealRo p) + 2 * b2n (s.locked p))

/-! ## Registers of the pages -/

/-- FIOg (spec/07_field_io.md R222). -/
def State.fioView (s : State) (g off : Nat) : Word :=
  let f := s.fioG g
  let since (t : Nat) : Word := wd (satNat 0xffffffff ((s.now - t) / 1000000000))
  match off with
  | 0x54 =>
    let c := f.copy 0
    if f.ever then wd (f.inp.toNat + 256 * c.filt.toNat + 65536 * (f.goodBits c).toNat) else 0
  | 0x58 =>
    let on := fld (s.committedOn 0) (4 * g) 4
    let gen := bit (Vec.at s.lanes.lcr 0 0) (16 + g)
    wd (on + 16 * fld f.sent 56 4 + 256 * f.rbk.toNat + 4096 * f.gate.toNat + 65536 * flagsN [gen, (f.copy 0).en, f.latch])
  | 0x5c =>
    wd (flagsN ((List.range 4).map fun k => (f.pulse k).active.isSome) +
      256 * flagsN ((List.range 4).map fun k => (f.pulse k).failed))
  | 0x60 => since (f.pulse 0).tested
  | 0x64 => since (f.pulse 1).tested
  | 0x68 => since (f.pulse 2).tested
  | 0x6c => since (f.pulse 3).tested
  | 0x70 => (f.slot 0).zeroExtend 32
  | 0x74 => (f.slot 1).zeroExtend 32
  | 0x78 => (f.slot 2).zeroExtend 32
  | 0x7c => (f.slot 3).zeroExtend 32
  | 0x80 => wd (fld (f.slot 5) 0 10 + 65536 * fld (f.slot 6) 0 8)
  | 0x84 => wd ((f.slot 4).toNat + 65536 * (f.slot 8).toNat)
  | 0x8c => (f.slot 9).zeroExtend 32
  | 0x90 => (f.slot 10).zeroExtend 32
  | _ => s.rd ((0x10 + g) * 0x1000 + off)

/-- RFX (spec/08_reflex_and_reaction.md R241). -/
def State.rfxView (s : State) (off : Nat) : Word :=
  match off with
  | 0x20 => rfxBits 0 fun r => (s.rule 0 r).latch
  | 0x24 => rfxBits 1 fun r => (s.rule 0 r).latch
  | 0x28 => rfxBits 0 fun r => (s.rule 0 r).cond
  | 0x2c => rfxBits 1 fun r => (s.rule 0 r).cond
  | 0x30 => rfxBits 0 fun r => (s.rule 0 r).stuck
  | 0x34 => rfxBits 1 fun r => (s.rule 0 r).stuck
  | 0x38 => rfxBits 0 s.guardWaits
  | 0x3c => rfxBits 1 s.guardWaits
  | 0x44 => (s.deVec 0).zeroExtend 32
  | _ => match arrayIdx 0x10c 64 16 off with
    | some r => s.rstat r
    | none => s.rd (0x14000 + off)

/-- AXSg (spec/09_axes_and_safe_motion.md R262, R263): the axis registers, then the slots. -/
def State.axsView (s : State) (g off : Nat) : Word :=
  let k := (off - 0x100) / 0x100
  let o := (off - 0x100) % 0x100
  let ax := 6 * g + k
  let a := s.axis ax
  let j := (o - 0x20) / 0x18
  let x := Vec.at a.slots j Slot.reset
  let stat := flagsN [x.arm.armed, x.fired, x.capv, x.pinOwn, x.taskOwn] + 256 * x.fires.toNat
  if off < 0x100 then s.rd ((0x15 + g) * 0x1000 + off)
  else if o = 0x08 then s.axStat ax
  else if o = 0x0c then a.now
  else if o = 0x10 then a.zpos
  else if o = 0x14 then a.zcnt
  else if o < 0x20 ∨ (o - 0x20) % 0x18 = 0 then s.rd ((0x15 + g) * 0x1000 + off)
  else match (o - 0x20) % 0x18 with
    | 0x04 => x.arm.p
    | 0x08 => x.arm.mode
    | 0x0c => wd stat
    | 0x10 => loN x.capt
    | _ => hiN x.capt

/-- SMO (R262, R263). -/
def State.smoView (s : State) (off : Nat) : Word :=
  let m := (off - 0x100) / 0x40
  if off = 0x20 then s.smoBits fun x => x.viol
  else if off = 0x24 then s.smoBits fun x => x.fault
  else if off = 0x28 then s.smoBits fun x => x.fill
  else if off < 0x100 then s.rd (0x17000 + off)
  else match (off - 0x100) % 0x40 with
    | 0x04 => s.mstat m
    | 0x08 => wi (s.smo m).v
    | 0x0c => s.mref m
    | _ => s.rd (0x17000 + off)

/-- DEC (spec/10_decimation.md R283). -/
def State.decView (s : State) (off : Nat) : Word :=
  match arrayIdx 0xe0 16 4 off with
  | some k => s.dsstat k
  | none => match arrayIdx 0x130 18 4 off with
  | some j => (Config.firc j).signExtend 32
  | none => if off = 0x124 then s.rsmpStat else s.rd (0x18000 + off)

/-- TPIN (spec/13_time.md R359). -/
def State.tpinView (s : State) (off : Nat) : Word :=
  match arrayIdx 0x3c 8 0x20 off with
  | some n => s.pstat n
  | none => s.rd (0x19000 + off)

/-- MBX (spec/14_host_and_mailboxes.md R384, R385). -/
def State.mbxView (s : State) (off : Nat) : Word :=
  match mbxIdx off 0xa0 with
  | some n => s.cstat n
  | none => match mbxIdx off 0x120 with
  | some n => s.cepoch n
  | none => match mbxIdx off 0x1a0 with
  | some n => s.cpop n
  | none => s.rd (0x31000 + off)

/-- DBL: DBPENDm (R386). -/
def State.dblView (s : State) (off : Nat) : Word :=
  match arrayIdx 0x28 16 16 off with
  | some m => s.rd (Reg.dblDb m) &&& s.rd (Reg.dblDbmask m)
  | none => s.rd (0x32000 + off)

/-- SETT (spec/15_sett_recorder.md R405). -/
def State.settView (s : State) (off : Nat) : Word :=
  if off = 0xd0 then wd (s.sett.flash.spare + 65536 * s.sett.flash.retired)
  else if off = 0x38 then setFld (s.rd Reg.settRingcnt) 0 15 s.sett.ring.length
  else if 0x50 ≤ off ∧ off < 0x80 then s.protReg ((off - 0x50) / 12) ((off - 0x50) % 12 / 4)
  else s.rd (0x34000 + off)

/-- The keys of the key block that match their slots (spec/17_start_up_and_update.md R438, R439). -/
def State.keyMatches (s : State) (k : Nat) : Bool :=
  let o := s.otpSlot k
  o.hash != 0 && o.hash.toNat == sha256Nat (s.flashBytes (0xa00000 + 64 * k) 64)

/-- UPD.KEYSTAT (R455). -/
def State.keyStat (s : State) : Word :=
  let o (k : Nat) : OtpSlot := s.otpSlot k
  let run := if s.imgRun then fld (s.pimRd (s.secAt 8)) 0 2 else 0
  wd (flagsN ((List.range 4).map fun k => (o k).hash != 0) + 16 * flagsN ((List.range 4).map fun k => (o k).revoked) +
    256 * flagsN ((List.range 4).map s.keyMatches) + 4096 * run + 16384 * s.storedSlot.getD 0)

/-- TWN: REFTOUT and REFHOLDk (spec/18_twin_modules.md R474). -/
def State.twnView (s : State) (off : Nat) : Word :=
  if off = 0x3c then (if s.twn.ansAt = 0 then 0 else wd (satNat 0xffffffff ((s.now - (s.twn.ansAt - 1)) / 1000)))
  else match arrayIdx 0x64 8 8 off with
  | some k =>
    let p := Vec.at s.twn.pairs k ⟨false, false, 0⟩
    wd (b2n p.holder + 2 * b2n p.valid + 256 * (if p.valid then satNat 0xffffff ((p.expiry - s.now) / 1000) else 0))
  | none => s.rd (0x39000 + off)

/-- The register at an offset that its page's map defines, behind the header. -/
def State.regView (s : State) (a : Nat) : Word :=
  let p := a / 0x1000
  let off := a % 0x1000
  match p with
  | 0x00 => match off with
    | 0x24 => Config.build.zeroExtend 32
    | 0x28 => lo32 Config.serial
    | 0x2c => hi32 Config.serial
    | _ => s.rd a
  | 0x02 => if (off = 0x28 ∨ off = 0x2c) ∧ s.bootPh ≠ .clocks then Config.fmon ((off - 0x28) / 4) s.now else s.rd a
  | 0x04 => if off = 0x48 then s.degrWord else s.rd a
  | 0x08 => if off = 0x08 then b2w (s.eng.mode == .run || s.eng.mode == .hold) else s.rd a
  | 0x0d => if off = 0x2c ∧ s.eng.mode = .hold then wd (satNat 0xffffffff ((s.now - s.eng.holdAt) / 1000)) else s.rd a
  | 0x10 => s.fioView 0 off
  | 0x11 => s.fioView 1 off
  | 0x12 => s.fioView 2 off
  | 0x13 => s.fioView 3 off
  | 0x14 => s.rfxView off
  | 0x15 => s.axsView 0 off
  | 0x16 => s.axsView 1 off
  | 0x17 => s.smoView off
  | 0x18 => s.decView off
  | 0x19 => s.tpinView off
  | 0x20 => if off = 0x20 then wd (Config.mac 0).toNat else if off = 0x24 then wd ((Config.mac 0).toNat / 2 ^ 32) else s.rd a
  | 0x21 => if off = 0x20 then wd (Config.mac 1).toNat else if off = 0x24 then wd ((Config.mac 1).toNat / 2 ^ 32) else s.rd a
  | 0x31 => s.mbxView off
  | 0x32 => s.dblView off
  | 0x34 => s.settView off
  | 0x38 => match off with
    | 0x24 => wd (s.upd.session.toNat + 65536 * s.upd.blocks.length)
    | 0x38 => s.keyStat
    | 0x64 => wd s.upd.erases
    | _ => s.rd a
  | 0x39 => s.twnView off
  | _ => s.rd a

/-- What a read of a whole register returns (R35, R36, R37, R39, spec/16_clocks_and_power.md R415). -/
def State.readReg (s : State) (a : Nat) : Word :=
  match pageOf a with
  | none => 0
  | some p => match regDef a with
    | none => 0
    | some d =>
      let off := a % 0x1000
      if off = 0 then wd (p.code.toNat * 65536 + p.inst * 256 + 1)
      else if s.gatedOff p.page then regReset a
      else if off = 0x0c then s.statWord p.page
      else if off = 0x18 then s.evtPend p.page
      else if d.acc = .wo then 0
      else s.regView a

/-- A read of BAR0: the addressed bytes (R42). -/
def State.readBar0 (s : State) (a n : Nat) : List Byte :=
  (List.range n).map fun i => (bytesLE (s.readReg ((a + i) - (a + i) % 4)) 4).getD ((a + i) % 4) 0

/-- A word of a function's configuration space: BAR4 is not implemented and reads zero (R30); bit 2 of the command register is
Bus Master Enable (spec/14_host_and_mailboxes.md R362); the rest is free (PRESUMED positions, log entry 60). -/
def State.readConfig (s : State) (pf : Pf) (off : Nat) : Word :=
  let w := Config.cfgSpace (pfIdx pf) off
  if off = 0x20 ∨ off = 0x24 then 0
  else if off = 0x04 then setBit w 2 (bit (s.rd Reg.hifStat) (8 + pfIdx pf))
  else w

/-- A read of BAR2: the secure partition reads zero for PF1 (R30, R31). -/
def State.readBar2 (s : State) (pf : Pf) (a n : Nat) : List Byte :=
  (List.range n).map fun i =>
    let b := a + i
    if 0x800000 ≤ b ∨ (pf = .pf1 ∧ b < 0x200000) then 0 else (s.notice.read ramFill b)

end Sys2Proof.Machine
end

