-- ==== Sys2Proof/Safety.lean ====
section
/-!
DEFINITION. What a safe run is, in the terms the statements use: the canonical form of every store of the state, and a
module that nothing powers.
-/
namespace Sys2Proof.Machine

/-- The register file, the table windows and the memories are in their canonical form: strictly rising addresses, and no
entry equal to what an unlisted address reads as. -/
abbrev State.canonical (s : State) : Prop :=
  Store.wf regReset s.regs = true ∧ Store.wf tableReset s.tables = true ∧ Memory.wf ramFill s.pim = true ∧
    Memory.wf ramFill s.notice = true ∧ Memory.wf flashFill s.cfgFlash = true ∧ Store.wf (fun _ => 0) s.freshAt = true ∧
    Store.wf (fun _ => 0) s.pimc.flips = true

/-- The canonical form of the register file. -/
abbrev State.regsOk (s : State) : Prop := Store.wf regReset s.regs = true

/-- The module is unpowered, and no waiting command brings its supply up. -/
abbrev State.dark (s : State) : Prop := s.supply = .off ∧ Instr.mainSupplyUp ∉ s.pending

/-- The outputs that a field side drives are off, and its group switch is open (spec/07_field_io.md R212). -/
abbrev FieldSide.isOff (x : FieldSide) : Prop := x.on = 0 ∧ x.gsw = false

/-- A lane commands nothing on: no output bit and no group enable stand in its committed register
(spec/06_triplex_execution.md R166). -/
abbrev State.commandsOff (s : State) : Prop := ∀ l : Fin 3, s.lanes.lcr[l] = 0

/-- Every lane counts and nothing disturbs PIM: no lane is held, none is being resynchronised, no SAFE latch is set, and no
stored bit has flipped (spec/06_triplex_execution.md R165, R175, R177, R181). -/
abbrev State.quiet (s : State) : Prop :=
  s.lanes.held = 0 ∧ s.lanes.rs = .idle ∧ s.safeLatch = false ∧ s.pimc.flips = []

/-- The copies of the three lanes hold the same: rules, committed lane output words and field input copies
(spec/06_triplex_execution.md R163, R167). -/
abbrev State.copiesAlike (s : State) : Prop :=
  (∀ l : Fin 3, s.rfx.rules[l] = s.rfx.rules[0] ∧ s.lanes.lcr[l] = s.lanes.lcr[0]) ∧
    ∀ (g : Fin 4) (l : Fin 3), (s.fioG g).cp[l] = (s.fioG g).cp[0]

/-- The activation `a` of task `k` runs in the lanes and stands at the block of descriptor `d`, on which no breakpoint
stands; the opcode of that block is `opc` (spec/03_program_image.md R65, spec/05_tasks_and_modes.md R134, R145). -/
abbrev State.atBlock (s : State) (k : Fin 8) (a : Act) (d opc : Nat) : Prop :=
  s.engineRuns .run = true ∧ s.nextBlock = some (k, a, d) ∧ s.isBp d = false ∧ fld (s.pimRd (s.descAt d)) 0 12 = opc

/-- A host write of `v` to the register at `a` has the register's effect: BOOT has ended, the register is defined, and
neither the function, the access code, the lock, the seal nor the gate bars it (spec/02_register_pages.md R32, R39 to R43,
spec/16_clocks_and_power.md R415). -/
def State.allowsWrite (s : State) (pf : Pf) (a : Nat) (v : Word) : Bool :=
  s.booted && match regDef a with
    | none => false
    | some d => !s.writeBarred pf a v d.acc

/-- The table, the entry and the staged words of a window (spec/02_register_pages.md R46). -/
def State.winT (s : State) (w : Win) : Nat := winTable w (s.rd (winDef w).idx)
def State.winE (s : State) (w : Win) : Nat := winEntry w (s.rd (winDef w).idx)
def State.winWords (s : State) (w : Win) : List Word :=
  (List.range (winDef w).n).map fun j => s.rd ((winDef w).data + 4 * j)

/-- The state with the staged entry of a table window in place of the entry it selects. -/
def State.staged (s : State) (w : Win) : State := s.putEntry (s.winT w) (s.winE w) (s.winWords w)

/-- The force that the force window stages. -/
def State.stagedForce (s : State) : Force :=
  ⟨s.rd (Reg.frcWinData 0), fld (s.rd (Reg.frcWinData 1)) 0 16, bit (s.rd (Reg.frcWinData 1)) 16, s.rd (Reg.frcWinData 2), 0⟩

/-- The host commands of the table that are writes of one register: function, offset and value. -/
def State.hostTarget (s : State) : Instr → Option (Pf × Nat × Word)
  | .pageLock pf p v => some (pf, p.toNat * 0x1000 + 0x1c, v)
  | .winSelect w pf v => some (pf, (winDef w).idx, v)
  | .forceCommit pf => some (pf, Reg.frcWinCmd, 1)
  | .forceRelease pf => some (pf, Reg.frcWinCmd, 2)
  | .forceReleaseAll pf => some (pf, Reg.frcRelall, 1)
  | .trdWinCommit pf => some (pf, Reg.trdWinCmd, 1)
  | .twpWinCommit pf => some (pf, Reg.twpWinCmd, 1)
  | .brgWinCommit pf => some (pf, Reg.brgWinCmd, 1)
  | .mvbWinCommit pf => some (pf, Reg.mvbWinCmd, 1)
  | .signatureSnapshot pf => some (pf, Reg.voteSigsnap, 1)
  | .dscfgWrite pf k v => some (pf, Reg.decDscfg k, v)
  | .decTestStart pf tmd => some (pf, Reg.decTest, wd (1 + 256 * tmd.toNat))
  | .decTestStop pf => some (pf, Reg.decTest, s.rd Reg.decTest &&& 0xff00)
  | .hostTxProduce pf x v => some (pf, Reg.netHtxprod (planeIdx x), v)
  | .hostRxConsume pf x v => some (pf, Reg.netHrxcons (planeIdx x), v)
  | .netCounterClear pf x => some (pf, Reg.netCntclr (planeIdx x), 1)
  | .canRecoveryCmd pf c => some (pf, Reg.canCmd c, 1)
  | .timeSetCmd pf => some (pf, Reg.ptpSetcmd, 1)
  | .timeSnapshot pf => some (pf, Reg.ptpTsnap, 1)
  | .mtimeSnapshot pf => some (pf, Reg.sysSnap, 1)
  | .tpinConfigWrite pf n reg v => some (pf, 0x19020 + 0x20 * n.val + 4 * reg.val, v)
  | .mbTxWord pf n v => some (pf, Reg.mbxTxword n, v)
  | .mbTxCommit pf n len => some (pf, Reg.mbxTxcommit n, len.zeroExtend 32)
  | .mbTxDiscard pf n => some (pf, Reg.mbxTxcommit n, 0)
  | .mbRxSelect pf v => some (pf, Reg.mbxRxsel (pfIdx pf), v)
  | .mbRxPop pf n => some (pf, Reg.mbxRxpop n, 1)
  | .mbEndReset pf n => some (pf, Reg.mbxEndrst n, 1)
  | .mbBindWrite pf n v => some (pf, Reg.mbxBind n, v)
  | .msixUnmask pf v => some (pf, Reg.dblMsixCtl (pfIdx pf) v, 0)
  | .settSealCmd pf => some (pf, Reg.settCmd, 1)
  | .settRestartCmd pf => some (pf, Reg.settCmd, 2)
  | .settProtect pf k => some (pf, Reg.settCmd, wd (3 + 16 * k.val))
  | .settReleaseRange pf k => some (pf, Reg.settCmd, wd (4 + 16 * k.val))
  | .settSnapshot pf => some (pf, Reg.settSnap, 1)
  | .recordRead pf lo => some (pf, Reg.settRdseqLo, lo)
  | .clockSwitchPllA pf => some (pf, Reg.clkSwcmd, 1)
  | .clockSwitchPllB pf => some (pf, Reg.clkSwcmd, 2)
  | .rtcSnapshot pf => some (pf, Reg.clkRtcsnap, 1)
  | .otpProvision pf v => some (pf, Reg.updOtpcmd, v)
  | .twinRejoin pf => some (pf, Reg.twnRejoin, 1)
  | .diaCounterClear pf => some (pf, Reg.diaCntclr, 1)
  | _ => none

/-- The requests of a block are carried out in their order, none after one that leads to SAFE. -/
def State.doAll (s : State) (k : Fin 8) (a : Act) : List WriteReq → State
  | [] => s
  | r :: rs => if s.safeLatch then s else (s.doReq k a r Through.clean Tri.none).doAll k a rs

/-- What lanes that agree make of block `b` at descriptor `d` of activation `a` of task `k`: all operands are read before
any is written; then the requests in their order (operands, instance words, OVF, staged effects); then the signature, the
pipes, the next position, and the PEs grown by the cost of the descriptor (spec/04_block_library.md R94 to R96,
spec/05_tasks_and_modes.md R134, R139, spec/06_triplex_execution.md R163, R171). -/
def State.ranBlock (s : State) (b : BlockDef) (k : Fin 8) (a : Act) (d : Nat) : State :=
  let x := s.blockIn b k a d []
  let rs := s.blockReqs b d (b.sem x)
  let t := s.doAll k a rs
  if t.safeLatch then t
  else t.blockEnd k (s.blockSigWords d x rs) Upset.none (fld (s.pimRd (s.descAt d)) 24 8)

/-- The block commands with their blocks, but for CONV, whose block depends on the opcode (spec/04_block_library.md R93). -/
def blockCmds : List ((Upset → Instr) × BlockDef) :=
  [(Instr.bAnd, blkAnd), (Instr.bOr, blkOr), (Instr.bXor, blkXor), (Instr.bNot, blkNot), (Instr.bShl, blkShl),
   (Instr.bShr, blkShr), (Instr.bRol, blkRol), (Instr.bRor, blkRor), (Instr.bMove, blkMove), (Instr.bEq, blkEq),
   (Instr.bNe, blkNe), (Instr.bLt, blkLt), (Instr.bLe, blkLe), (Instr.bGt, blkGt), (Instr.bGe, blkGe),
   (Instr.bWin, blkWin), (Instr.bHyst, blkHyst), (Instr.bAdd, blkAdd), (Instr.bSub, blkSub), (Instr.bMul, blkMul),
   (Instr.bDiv, blkDiv), (Instr.bMod, blkMod), (Instr.bAddS, blkAddS), (Instr.bSubS, blkSubS),
   (Instr.bMulS, blkMulS), (Instr.bAbs, blkAbs), (Instr.bSqrt, blkSqrt), (Instr.bMuldiv, blkMuldiv),
   (Instr.bTrunc, blkTrunc), (Instr.bSel, blkSel), (Instr.bMux, blkMux), (Instr.bMin, blkMin),
   (Instr.bMax, blkMax), (Instr.bLimit, blkLimit), (Instr.bRTrig, blkRTrig), (Instr.bFTrig, blkFTrig),
   (Instr.bSr, blkSr), (Instr.bRs, blkRs), (Instr.bTon, blkTon), (Instr.bTof, blkTof), (Instr.bTp, blkTp),
   (Instr.bTacc, blkTacc), (Instr.bCtu, blkCtu), (Instr.bCtd, blkCtd), (Instr.bCtud, blkCtud),
   (Instr.bLag1, blkLag1), (Instr.bDebnc, blkDebnc), (Instr.bMavg, blkMavg), (Instr.bRatel, blkRatel),
   (Instr.bPi, blkPi), (Instr.bPid, blkPid), (Instr.bLin, blkLin), (Instr.bScale, blkScale),
   (Instr.bLookup, blkLookup), (Instr.bSeq, blkSeq), (Instr.bSeqt, blkSeqt), (Instr.bGuard, blkGuard),
   (Instr.bReset, blkReset), (Instr.bAntiv, blkAntiv), (Instr.bEquiv, blkEquiv), (Instr.bFbmon, blkFbmon),
   (Instr.bSpeed, blkSpeed), (Instr.bCmparm, blkCmparm), (Instr.bSmosel, blkSmosel), (Instr.bQchk, blkQchk),
   (Instr.bPack, blkPack), (Instr.bUnpack, blkUnpack), (Instr.bBswap, blkBswap), (Instr.bMbsend, blkMbsend),
   (Instr.bMbrecv, blkMbrecv), (Instr.bRecev, blkRecev)]

/-- A recorder that takes events has the report of `code` behind those already waiting (spec/15_sett_recorder.md R391,
spec/19_faults_and_diagnostics.md R483). -/
abbrev State.reports (s t : State) (code : Nat) (pay : List Word) : Prop :=
  s.sett.stopped = false → s.sett.restart = false → s.sett.intake.length < 1024 →
    t.sett.intake = s.sett.intake ++
      [.event ⟨mkSource (code / 0x100) (pageInst (code / 0x100)) s.synced, BitVec.ofNat 16 code, pay8 pay, s.now, none⟩]

end Sys2Proof.Machine
end

