-- ==== Sys2Proof/Certificates/Slice0/Obligations.lean ====
section
/-!
DEFINITION. The statements for the provers, family by family of spec/opcode_table.json: where every command completes and what
it leaves, the numbered rules stated word for word, and the whole-machine rules. A statement whose docstring names a log entry
rests on the model's own choice there.
-/
open Sys2Proof Sys2Proof.Machine

/-- Supply and reset commands (R23, R431, R497, R498, R507): where each has its effect. -/
def Obligations.SupplyAndResetCommandsComplete : Prop :=
  (∀ (s : State), s.supply = .off → s.dorm.path = true → ∃ t, exec .mainSupplyUp s = .next t ∧ t.supply = .good ∧
    t.mstate = .boot ∧ t.bootPh = .clocks ∧ t.rd Reg.sysRstcause = 1) ∧
  (∀ (s : State), s.supply = .off → s.dorm.path = false →
    exec .mainSupplyUp s = .next ({ s with supply := .good })) ∧
  (∀ (s : State), s.supply ≠ .off →
    exec .mainSupplyUp s = .next (if s.supply = .failed then { s with supplyBack := true } else s)) ∧
  (∀ (s : State), s.supply ≠ .off → s.asleep = false → s.resetting = none → s.rstLow = false →
    ∃ t, exec .rstNAssert s = .next t ∧ t.resetting = some .contact ∧ t.sett.stopped = true) ∧
  (∀ (s : State), (s.supply = .off ∨ s.asleep = true ∨ s.resetting ≠ none ∨ s.rstLow = true) →
    exec .rstNAssert s = .next ({ s with rstLow := true })) ∧
  (∀ (s : State), s.supply ≠ .off → s.rstLow = true → s.resetting = none → s.mstate = .boot → s.bootPh = .clocks →
    ∃ t, exec .rstNRelease s = .next t ∧ t.rstLow = false ∧ t.mstate = .boot ∧ t.now = s.rtc.time) ∧
  (∀ (s : State), (s.resetting ≠ none ∨ s.supply = .off ∨ s.rstLow = false) →
    exec .rstNRelease s = .next ({ s with rstLow := false })) ∧
  (∀ (s : State), s.booted = true → ∃ t, exec (.resetRequest .pf0 0x5a5a) s = .next t ∧ t.resetting = some .request ∧
    t.sett.stopped = true) ∧
  (∀ (s : State) (pf : Pf) (v : Word), s.booted = true → (pf = .pf1 ∨ v ≠ 0x5a5a) →
    exec (.resetRequest pf v) s = .next (s.refuse 0)) ∧
  (∀ (s : State) (pf : Pf) (v : Word), s.booted = false → exec (.resetRequest pf v) s = .next (s)) ∧
  (∀ (s : State) (k : ResetCause), s.resetting = some k → s.supply ≠ .off → ∃ t, exec .resetRingWritten s = .next t ∧
    t.mstate = .boot ∧ t.bootPh = .clocks ∧ t.resetting = none ∧ t.rd Reg.sysRstcause = k.word) ∧
  (∀ (s : State), (s.resetting = none ∨ s.supply = .off) → exec .resetRingWritten s = .next (s)) ∧
  (∀ (s : State), s.supply = .good → s.asleep = false → ∃ t, exec .supplyFail s = .next t ∧ t.supply = .failed ∧
    t.sett.stopped = true) ∧
  (∀ (s : State), s.supply = .good → s.asleep = true →
    exec .supplyFail s = .next ({ s with supply := .failed, supplyBack := false })) ∧
  (∀ (s : State), s.supply ≠ .good → exec .supplyFail s = .next (s)) ∧
  (∀ (s : State), s.supply = .failed → s.supplyBack = false → ∃ t, exec .mainRailsFall s = .next t ∧
    t.supply = .off ∧ t.resetting = none ∧ (∀ g : Fin 4, (t.fside[g]).isOff)) ∧
  (∀ (s : State), s.supply = .failed → s.supplyBack = true → s.dorm.path = true → s.asleep = true →
    ∃ t, exec .mainRailsFall s = .next t ∧ t.supply = .good ∧ t.mstate = .boot ∧ t.rd Reg.sysRstcause = 1) ∧
  (∀ (s : State), s.supply ≠ .failed → exec .mainRailsFall s = .next (s))

/-- A module reset (R23, R431): BOOT starts from the reset state and shows its cause; PIM and the notice SRAM hold nothing
(log entry 4); the configuration flash, the OTP slots, the update journal, the recorder's flash and the Dormouse stand over it,
and so does the queue. -/
def Obligations.ModuleResetState : Prop :=
  ∀ (s : State) (c : ResetCause),
    (s.moduleReset c).mstate = .boot ∧ (s.moduleReset c).bootPh = .clocks ∧ (s.moduleReset c).pstate = .run ∧
    (s.moduleReset c).safeLatch = false ∧ (s.moduleReset c).imgRun = false ∧
    (s.moduleReset c).rd Reg.sysRstcause = c.word ∧
    (∀ a, a ≠ Reg.sysRstcause → a ≠ Reg.clkStat → (s.moduleReset c).rd a = regReset a) ∧
    (s.moduleReset c).pim = [] ∧ (s.moduleReset c).notice = [] ∧
    (s.moduleReset c).now = (s.rtcReset (c == .powerUp)).time ∧
    (s.moduleReset c).eng = Eng.reset.shift (s.rtcReset (c == .powerUp)).time ∧
    (s.moduleReset c).lanes = { Lanes.reset.shift (s.rtcReset (c == .powerUp)).time with
      gsMs := (s.rtcReset (c == .powerUp)).time / 1000000 } ∧
    (s.moduleReset c).host = HostIf.reset.shift (s.rtcReset (c == .powerUp)).time (s.rtcReset (c == .powerUp)).time ∧
    (s.moduleReset c).sett = { Sett.new with flash := s.sett.flash } ∧
    (s.moduleReset c).cfgFlash = s.cfgFlash ∧ (s.moduleReset c).upd.otp = s.upd.otp ∧
    (s.moduleReset c).upd.journal = s.upd.journal ∧ (s.moduleReset c).dorm = s.dorm ∧
    (s.moduleReset c).pending = s.pending

/-- The phases of BOOT (R431, R432, R436): each ends with the next one; addressing fixes the position and records it; a module
whose flash does not answer enters BARE. -/
def Obligations.BootPhasesComplete : Prop :=
  (∀ (s : State) (r : ClockUp), s.inBoot .clocks = true → r.tcxo = true → (r.pllA || r.pllB) = true → s.regsOk →
    ∃ t, exec (.bootClocksDone r) s = .next t ∧ t.bootPh = .tests ∧ t.mstate = .boot ∧
    bit (t.rd Reg.clkStat) 8 = true ∧ bit (t.rd Reg.clkStat) 0 = true) ∧
  (∀ (s : State) (r : ClockUp), s.inBoot .clocks = true → (r.tcxo = false ∨ (r.pllA = false ∧ r.pllB = false)) →
    ∃ t, exec (.bootClocksDone r) s = .next t ∧ t.safeLatch = true) ∧
  (∀ (s : State) (r : ClockUp), s.inBoot .clocks = false → exec (.bootClocksDone r) s = .next (s)) ∧
  (∀ (s : State), s.inBoot .tests = true → s.safeLatch = false →
    ∃ t, exec (.selfTestsDone ⟨0, none, true, true⟩) s = .next t ∧ t.bootPh = .addressing ∧ t.chain.from' = s.now) ∧
  (∀ (s : State) (r : SelfTest), s.inBoot .tests = true →
    (r.lanes ≠ 0 ∨ r.line ≠ none ∨ r.voter = false ∨ r.dec = false) → ∃ t, exec (.selfTestsDone r) s = .next t ∧
    t.safeLatch = true) ∧
  (∀ (s : State) (r : SelfTest), s.inBoot .tests = false → exec (.selfTestsDone r) s = .next (s)) ∧
  (∀ (s : State) (c : Nat), s.inBoot .addressing = true → s.chain.agreed = some c → c < 16 → s.regsOk →
    ∃ t, exec (.addressingDone true) s = .next t ∧ t.bootPh = .image ∧ t.pos = c + 1) ∧
  (∀ (s : State), s.inBoot .addressing = true → s.addrDue false = true → s.regsOk →
    ∃ t, exec (.addressingDone false) s = .next t ∧ t.bootPh = .image ∧ t.pos = 1 ∧ bit (t.rd Reg.chnPos) 8 = true) ∧
  (∀ (s : State), s.inBoot .addressing = true → s.addrDue true = true → (∀ c, s.chain.agreed = some c → 16 ≤ c) →
    s.regsOk → ∃ t, exec (.addressingDone true) s = .next t ∧ t.bootPh = .image ∧ t.pos = 0) ∧
  (∀ (s : State) (present : Bool), (s.inBoot .addressing = false ∨ s.addrDue present = false) →
    exec (.addressingDone present) s = .next (s)) ∧
  (∀ (s : State) (flashOk otpOk : Bool), s.inBoot .image = false →
    exec (.imageLoadDone flashOk otpOk) s = .next (s)) ∧
  (∀ (s : State) (otpOk : Bool), s.inBoot .image = true → ∃ t, exec (.imageLoadDone false otpOk) s = .next t ∧
    t.mstate = .bare ∧ t.bootPh = .ended) ∧
  (∀ (s u : State) (otpOk : Bool) (r : Option Nat), s.inBoot .image = true →
    s.showJournal.storeCheck otpOk = (u, r) →
    exec (.imageLoadDone true otpOk) s = .next (r.elim ((((u.load false).midReset 1).updResult 0 0).bootEnd).enterStart
      u.bootBare))

/-- Chain trains (R435 to R437): a module with a position sends a train of as many pulses; a train received is counted; two
trains in a row that agree on another count than POS − 1, and an absent CHAIN_IN, show a disagreement. -/
def Obligations.ChainTrainsComplete : Prop :=
  (∀ (s : State), s.alive = true → (s.bootPh = .image ∨ s.bootPh = .ended) → 1 ≤ s.pos →
    (∀ t, s.chain.sentAt = some t → t + 10000000 ≤ s.now) → ∃ t, exec .chainTrainSend s = .next t ∧
    t.outbox = s.outbox ++ [.train s.pos] ∧ t.chain.sentAt = some s.now) ∧
  (∀ (s : State), (s.alive = false ∨ s.pos = 0 ∨ (∃ t, s.chain.sentAt = some t ∧ s.now < t + 10000000) ∨ (s.bootPh ≠
      .image ∧ s.bootPh ≠ .ended)) → exec .chainTrainSend s = .next (s)) ∧
  (∀ (s : State) (pa pb pc n : Nat) (valid : Bool), s.alive = true → s.bootPh ≠ .clocks →
    ((s.lanes.agree (wd pa) (wd pb) (wd pc)).1).toNat = n → n ≠ 0 → s.regsOk →
    ∃ t, exec (.chainTrainRx pa valid pb pc) s = .next t ∧ t.chain.present = true ∧
    (t.chain.last = if valid then some n else none) ∧
    t.rd Reg.chnTrains = wd (min n 16 + 0x10000 * ((fld (s.rd Reg.chnTrains) 16 16 + 1) % 65536))) ∧
  (∀ (s : State) (pa pb pc n : Nat), s.alive = true → s.bootPh = .ended →
    ((s.lanes.agree (wd pa) (wd pb) (wd pc)).1).toNat = n → 1 ≤ n → s.chain.last = some n → n + 1 ≠ s.pos →
    ∃ t, exec (.chainTrainRx pa true pb pc) s = .next t ∧ t.chain.shown = some (wd n)) ∧
  (∀ (s : State) (pa pb pc n : Nat), s.alive = true → s.bootPh = .ended →
    ((s.lanes.agree (wd pa) (wd pb) (wd pc)).1).toNat = n → 1 ≤ n → s.chain.last = some n → n + 1 = s.pos → s.regsOk →
    ∃ t, exec (.chainTrainRx pa true pb pc) s = .next t ∧ t.chain.shown = none) ∧
  (∀ (s : State) (pa pb pc n : Nat), s.alive = true → s.bootPh = .addressing →
    ((s.lanes.agree (wd pa) (wd pb) (wd pc)).1).toNat = n → 1 ≤ n → s.chain.last = some n →
    ∃ t, exec (.chainTrainRx pa true pb pc) s = .next t ∧ t.chain.agreed = some n) ∧
  (∀ (s : State) (pa pb pc : Nat) (valid : Bool), (s.alive = false ∨ s.bootPh = .clocks ∨ ((s.lanes.agree (wd pa) (wd
      pb) (wd pc)).1).toNat = 0) → exec (.chainTrainRx pa valid pb pc) s = .next (s)) ∧
  (∀ (s : State), s.alive = true → s.bootPh = .ended → 1 < s.pos → s.chain.shown ≠ some 0xffffffff → s.regsOk →
    ∃ t, exec .chainAbsentTimeout s = .next t ∧ t.chain.shown = some 0xffffffff ∧ t.chain.present = false ∧
    t.rd Reg.chnEvtRaw = s.rd Reg.chnEvtRaw ||| 4) ∧
  (∀ (s : State), s.alive = true → (s.bootPh ≠ .ended ∨ s.pos ≤ 1) →
    exec .chainAbsentTimeout s = .next ({ s with chain := { s.chain with present := false, last := none } })) ∧
  (∀ (s : State), s.alive = false → exec .chainAbsentTimeout s = .next (s))

/-- SLUMBER, HIBERNATE and the Dormouse (R413, R420 to R425): a request that nothing refuses begins the entry, the entry ends
with the rails down, a wake event starts BOOT, and the Dormouse shifts the code in and closes the supply path. -/
def Obligations.SleepAndDormouseComplete : Prop :=
  (∀ (s : State), s.booted = true → s.sleepRefusal false = none → ∃ t, exec (.slumberRequest .pf0) s = .next t ∧
    t.pow.sleep = some false) ∧
  (∀ (s : State) (r : Word), s.booted = true → s.sleepRefusal false = some r → s.regsOk →
    ∃ t, exec (.slumberRequest .pf0) s = .next t ∧ t.rd Reg.pwrSlpstat = r ∧ t.pow = s.pow ∧ t.pstate = s.pstate) ∧
  (∀ (s : State) (pf : Pf), (s.booted = false ∨ pf = .pf1) →
    exec (.slumberRequest pf) s = .next (if s.booted then s.refuse 0 else s)) ∧
  (∀ (s : State) (r : Word), s.booted = true → s.sleepRefusal true = some r → s.regsOk →
    ∃ t, exec (.hibernateRequest .pf0) s = .next t ∧ t.rd Reg.pwrSlpstat = r ∧ t.pow = s.pow ∧ t.pstate = s.pstate) ∧
  (∀ (s : State) (pf : Pf), (s.booted = false ∨ pf = .pf1) →
    exec (.hibernateRequest pf) s = .next (if s.booted then s.refuse 0 else s)) ∧
  (∀ (s : State), s.booted = true → s.sleepRefusal true = none → ∃ t, exec (.hibernateRequest .pf0) s = .next t ∧
    t.pow.sleep = some true) ∧
  (∀ (s : State) (hib : Bool), s.alive = true → s.pow.sleep = some hib → ∃ t, exec .sleepRingWritten s = .next t ∧
    t.pstate = (if hib then PowerState.hibernate else PowerState.slumber) ∧ t.pow.sleep = none ∧ t.rtc.hib = hib ∧
    (∀ g : Fin 4, (t.fside[g]).isOff)) ∧
  (∀ (s : State), (s.alive = false ∨ s.pow.sleep = none) → exec .sleepRingWritten s = .next (s)) ∧
  (∀ (s : State) (k : WakeCause), s.wakes k = true → s.alive = true → s.pow.sleep = some false →
    ∃ t, exec (.slumberWake k) s = .next t ∧ t.mstate = .boot ∧ t.rd Reg.sysRstcause = 8) ∧
  (∀ (s : State), s.wakes .code = true → s.alive = true → s.pow.sleep = some true →
    ∃ t, exec (.slumberWake .code) s = .next t ∧ t.mstate = .boot ∧ t.rd Reg.sysRstcause = 16) ∧
  (∀ (s : State) (k : WakeCause), (s.supply = .off ∨ s.wakes k = false ∨ (s.pstate ≠ .slumber ∧ (s.alive = false ∨
      s.pow.sleep = none ∨ (s.pow.sleep = some true ∧ k ≠ .code)))) → exec (.slumberWake k) s = .next (s)) ∧
  (∀ (s : State) (k : WakeCause), s.supply ≠ .off → s.wakes k = true → s.pstate = .slumber →
    ∃ t, exec (.slumberWake k) s = .next t ∧ t.mstate = .boot ∧ t.rd Reg.sysRstcause = 8) ∧
  (∀ (s : State), ∃ t, exec .wakeFallingEdge s = .next t ∧ t.dorm.delay = true ∧ t.dorm.low = true ∧
    t.dorm.reg = s.dorm.reg) ∧
  (∀ (s : State) (low : Bool), s.dorm.delay = true → s.dorm.code ≠ 0 →
    (s.dorm.reg <<< 1) ||| BitVec.ofNat 24 (b2n low) = s.dorm.code → s.dorm.path = false → s.supply = .good →
    s.pstate = .hibernate → ∃ t, exec (.dormouseDelayEnd low) s = .next t ∧ t.mstate = .boot ∧
    t.rd Reg.sysRstcause = 16 ∧ t.dorm.path = true ∧ t.dorm.reg = s.dorm.code) ∧
  (∀ (s : State) (low : Bool), s.dorm.delay = true → s.dorm.path = true →
    ∃ t, exec (.dormouseDelayEnd low) s = .next t ∧
    t =
      { s with dorm := { s.dorm with reg := (s.dorm.reg <<< 1) ||| BitVec.ofNat 24 (b2n low), delay := false, low := low } })
      ∧
  (∀ (s : State) (low : Bool), s.dorm.delay = true →
    (s.dorm.code = 0 ∨ (s.dorm.reg <<< 1) ||| BitVec.ofNat 24 (b2n low) ≠ s.dorm.code) →
    ∃ t, exec (.dormouseDelayEnd low) s = .next t ∧
    t =
      { s with dorm := { s.dorm with reg := (s.dorm.reg <<< 1) ||| BitVec.ofNat 24 (b2n low), delay := false, low := low } })
      ∧
  (∀ (s : State) (low : Bool), s.dorm.delay = true → s.dorm.code ≠ 0 →
    (s.dorm.reg <<< 1) ||| BitVec.ofNat 24 (b2n low) = s.dorm.code → s.dorm.path = false →
    (s.supply ≠ .good ∨ s.pstate ≠ .hibernate) → ∃ t, exec (.dormouseDelayEnd low) s = .next t ∧
    t = { s with dorm := { s.dorm with reg := s.dorm.code, delay := false, low := low, path := true } }) ∧
  (∀ (s : State) (low : Bool), s.dorm.delay = false → exec (.dormouseDelayEnd low) s = .next (s)) ∧
  (∀ (s : State), ∃ t, exec .dormouseQuietClear s = .next t ∧ t.dorm.reg = 0 ∧ t.dorm.code = s.dorm.code ∧
    t.dorm.path = s.dorm.path)

/-- Host writes to BAR0 (R35, R36, R39, R42, R43): a barred write sets WREFUSED and no more; an undefined offset and a partial
write change no register; EVT_RAW clears the bits written as 1; EVT_MASK holds its defined bits; LOCK takes its key alone. -/
def Obligations.HostWritesToRegisters : Prop :=
  (∀ (s : State) (pf : Pf) (a : BitVec 20) (v : Word) (d : RegDef), s.booted = true → a.toNat % 4 = 0 →
    regDef a.toNat = some d → s.writeBarred pf a.toNat v d.acc = true →
    ∃ t, exec (.regWrite pf a 4 (v.zeroExtend 64)) s = .next t ∧
    (t = if a.toNat = Reg.dbgCmd ∧ s.sealRo 13 = true then (s.refuse 13).holdRef else s.refuse (a.toNat / 0x1000))) ∧
  (∀ (s : State) (pf : Pf) (a : BitVec 20) (v : Dword) (size : Nat), s.booted = true → a.toNat % 4 = 0 → size = 4 →
    regDef a.toNat = none → ∃ t, exec (.regWrite pf a size v) s = .next t ∧ t = s) ∧
  (∀ (s : State) (pf : Pf) (a : BitVec 20) (v : Dword) (size : Nat) (d : RegDef), s.booted = true → size < 4 →
    regDef (a.toNat - a.toNat % 4) = some d → ∃ t, exec (.regWrite pf a size v) s = .next t ∧
    t = s.refuseWrite (a.toNat - a.toNat % 4)) ∧
  (∀ (s : State) (a : BitVec 20) (v : Word) (d : RegDef), a.toNat % 0x1000 = 0x10 → regDef a.toNat = some d →
    d.acc = .w1c → s.allowsWrite .pf0 a.toNat v = true → s.regsOk →
    ∃ t, exec (.regWrite .pf0 a 4 (v.zeroExtend 64)) s = .next t ∧ t.rd a.toNat = s.rd a.toNat &&& ~~~(v &&& d.mask) ∧
    (∀ b, b ≠ a.toNat → t.rd b = s.rd b)) ∧
  (∀ (s : State) (a : BitVec 20) (v : Word) (d : RegDef), a.toNat % 0x1000 = 0x14 → a.toNat / 0x1000 ≠ 0x31 →
    regDef a.toNat = some d → d.acc = .rw → s.allowsWrite .pf0 a.toNat v = true → s.regsOk →
    ∃ t, exec (.regWrite .pf0 a 4 (v.zeroExtend 64)) s = .next t ∧ t.rd a.toNat = v &&& d.mask ∧
    (∀ b, b ≠ a.toNat → t.rd b = s.rd b)) ∧
  (∀ (s : State) (pf : Pf) (a : BitVec 20) (v : Dword) (size : Nat), s.booted = false →
    exec (.regWrite pf a size v) s = .next (s)) ∧
  (∀ (s : State) (i : Instr) (pf : Pf) (a : Nat) (v : Word), s.hostTarget i = some (pf, a, v) →
    exec i s = .next (if s.booted then s.hostWrite pf a v else s)) ∧
  (∀ (s : State) (i : Instr) (pf : Pf) (a : Nat) (v : Word) (d : RegDef), s.hostTarget i = some (pf, a, v) →
    s.booted = true → regDef a = some d → s.writeBarred pf a v d.acc = true → exec i s = .next (s.refuseWrite a)) ∧
  (∀ (s : State) (p : Byte) (d : RegDef), regDef (p.toNat * 0x1000 + 0x1c) = some d → d.mask = 0xffffffff →
    s.allowsWrite .pf0 (p.toNat * 0x1000 + 0x1c) 0x4c4f434b = true → s.regsOk →
    ∃ t, exec (.pageLock .pf0 p 0x4c4f434b) s = .next t ∧ t.locked p.toNat = true) ∧
  (∀ (s : State) (p : Byte) (v : Word) (d : RegDef), regDef (p.toNat * 0x1000 + 0x1c) = some d →
    d.mask = 0xffffffff → s.allowsWrite .pf0 (p.toNat * 0x1000 + 0x1c) v = true → v ≠ 0x4c4f434b →
    ∃ t, exec (.pageLock .pf0 p v) s = .next t ∧ t = s)

/-- Table windows, semaphores, AtomicOps and the notice SRAM (R46, R48, R158 to R160 of the force window, R364, R365): a
selection makes the window busy and shows the entry; a commit stores what the table takes; a free semaphore takes its writer; an
AtomicOp answers the old value; a write to the notice SRAM reaches no byte outside it. -/
def Obligations.WindowAndSharedMemoryCommands : Prop :=
  (∀ (s : State) (w : Win) (pf : Pf) (v : Word) (d : RegDef), regDef (winDef w).idx = some d → v &&& d.mask = v →
    s.allowsWrite pf (winDef w).idx v = true → (winTable w v = 5 ∨ winEntry w v < tableSize (winTable w v)) →
    s.regsOk → ∃ t, exec (.winSelect w pf v) s = .next t ∧ t.rd (winDef w).idx = v ∧ t.rd (winDef w).stat = 1 ∧
    (∀ a, a ≠ (winDef w).idx → a ≠ (winDef w).stat → t.rd a = s.rd a)) ∧
  (∀ (s : State) (w : Win) (pf : Pf) (v : Word) (d : RegDef), regDef (winDef w).idx = some d → v &&& d.mask = v →
    s.allowsWrite pf (winDef w).idx v = true → winTable w v ≠ 5 → tableSize (winTable w v) ≤ winEntry w v →
    exec (.winSelect w pf v) s = .next (s.refuse (winDef w).page)) ∧
  (∀ (s : State) (w : Win), s.alive = true → s.rd (winDef w).stat ≠ 0 → s.regsOk →
    ∃ t, exec (.winSelectDone w) s = .next t ∧ t = s.winShow w ∧ t.rd (winDef w).stat = 0 ∧
    (∀ j < (winDef w).n, t.rd ((winDef w).data + 4 * j) = s.entryWord (s.winT w) (s.winE w) j)) ∧
  (∀ (s : State) (w : Win), (s.alive = false ∨ s.rd (winDef w).stat = 0) → exec (.winSelectDone w) s = .next (s)) ∧
  (∀ (s : State), s.allowsWrite .pf0 Reg.frcWinCmd 1 = true → s.rd Reg.frcWinStat = 0 →
    (s.stagedForce.en = true → s.forceRefused (s.winE .frc) s.stagedForce = false) → Memory.wf ramFill s.pim = true →
    ∃ t, exec (.forceCommit .pf0) s = .next t ∧ t.pimRd (pimForce + 4 * s.winE .frc) = s.rd (Reg.frcWinData 0) ∧
    t.pimRd (pimForce + 4 * s.winE .frc + 1) = s.rd (Reg.frcWinData 1) &&& 0x1ffff ∧
    t.pimRd (pimForce + 4 * s.winE .frc + 2) = s.rd (Reg.frcWinData 2) ∧
    t.pimRd (pimForce + 4 * s.winE .frc + 3) = b2w (s.stagedForce.en && s.forceActs s.stagedForce)) ∧
  (∀ (s : State), s.allowsWrite .pf0 Reg.frcWinCmd 1 = true → s.rd Reg.frcWinStat = 0 → s.stagedForce.en = true →
    s.forceRefused (s.winE .frc) s.stagedForce = true → ∃ t, exec (.forceCommit .pf0) s = .next t ∧ t = s.evt 0x0c 2) ∧
  (∀ (s : State), s.allowsWrite .pf0 Reg.frcWinCmd 1 = true → s.rd Reg.frcWinStat ≠ 0 →
    exec (.forceCommit .pf0) s = .next (s.refuse 0x0c)) ∧
  (∀ (s : State), s.allowsWrite .pf0 Reg.frcWinCmd 2 = true → s.rd Reg.frcWinStat = 0 →
    Memory.wf ramFill s.pim = true → ∃ t, exec (.forceRelease .pf0) s = .next t ∧
    (∀ j < 4, t.pimRd (pimForce + 4 * s.winE .frc + j) = 0)) ∧
  (∀ (s : State), s.allowsWrite .pf0 Reg.frcWinCmd 2 = true → s.rd Reg.frcWinStat ≠ 0 →
    exec (.forceRelease .pf0) s = .next (s.refuse 0x0c)) ∧
  (∀ (s : State), s.allowsWrite .pf0 Reg.frcRelall 1 = true → Memory.wf ramFill s.pim = true →
    ∃ t, exec (.forceReleaseAll .pf0) s = .next t ∧ (∀ j < 1024, t.pimRd (pimForce + j) = 0)) ∧
  (∀ (s : State), s.allowsWrite .pf0 Reg.trdWinCmd 1 = true → s.rd Reg.trdWinStat = 0 →
    (s.staged .trd).entryOk (s.winT .trd) (s.winE .trd) = true → Store.wf tableReset s.tables = true →
    ∃ t, exec (.trdWinCommit .pf0) s = .next t ∧ t = (s.staged .trd).entryStart (s.winT .trd) (s.winE .trd) ∧
    (∀ j < 6, t.tbl (s.winT .trd) (s.winE .trd) j = s.rd (Reg.trdWinData j) &&& tableMask (s.winT .trd) j)) ∧
  (∀ (s : State), s.allowsWrite .pf0 Reg.trdWinCmd 1 = true →
    (s.rd Reg.trdWinStat ≠ 0 ∨ (s.staged .trd).entryOk (s.winT .trd) (s.winE .trd) = false) →
    exec (.trdWinCommit .pf0) s = .next (s.refuse 0x22)) ∧
  (∀ (s : State), s.allowsWrite .pf0 Reg.twpWinCmd 1 = true → s.rd Reg.twpWinStat = 0 →
    (s.staged .twp).entryOk (s.winT .twp) (s.winE .twp) = true → Store.wf tableReset s.tables = true →
    ∃ t, exec (.twpWinCommit .pf0) s = .next t ∧ t = (s.staged .twp).entryStart (s.winT .twp) (s.winE .twp) ∧
    (∀ j < 8, t.tbl (s.winT .twp) (s.winE .twp) j = s.rd (Reg.twpWinData j) &&& tableMask (s.winT .twp) j)) ∧
  (∀ (s : State), s.allowsWrite .pf0 Reg.twpWinCmd 1 = true →
    (s.rd Reg.twpWinStat ≠ 0 ∨ (s.staged .twp).entryOk (s.winT .twp) (s.winE .twp) = false) →
    exec (.twpWinCommit .pf0) s = .next (s.refuse 0x23)) ∧
  (∀ (s : State), s.allowsWrite .pf0 Reg.brgWinCmd 1 = true → s.rd Reg.brgWinStat = 0 →
    (s.staged .brg).entryOk (s.winT .brg) (s.winE .brg) = true → Store.wf tableReset s.tables = true →
    ∃ t, exec (.brgWinCommit .pf0) s = .next t ∧ t = (s.staged .brg).entryStart (s.winT .brg) (s.winE .brg) ∧
    (∀ j < 8, t.tbl (s.winT .brg) (s.winE .brg) j = s.rd (Reg.brgWinData j) &&& tableMask (s.winT .brg) j)) ∧
  (∀ (s : State), s.allowsWrite .pf0 Reg.brgWinCmd 1 = true →
    (s.rd Reg.brgWinStat ≠ 0 ∨ (s.staged .brg).entryOk (s.winT .brg) (s.winE .brg) = false) →
    exec (.brgWinCommit .pf0) s = .next (s.refuse 0x2d)) ∧
  (∀ (s : State), s.allowsWrite .pf0 Reg.mvbWinCmd 1 = true → s.rd Reg.mvbWinStat = 0 →
    (s.staged .mvb).entryOk (s.winT .mvb) (s.winE .mvb) = true → Store.wf tableReset s.tables = true →
    ∃ t, exec (.mvbWinCommit .pf0) s = .next t ∧ t = (s.staged .mvb).entryStart (s.winT .mvb) (s.winE .mvb) ∧
    (∀ j < 2, t.tbl (s.winT .mvb) (s.winE .mvb) j = s.rd (Reg.mvbWinData j) &&& tableMask (s.winT .mvb) j)) ∧
  (∀ (s : State), s.allowsWrite .pf0 Reg.mvbWinCmd 1 = true →
    (s.rd Reg.mvbWinStat ≠ 0 ∨ (s.staged .mvb).entryOk (s.winT .mvb) (s.winE .mvb) = false) →
    exec (.mvbWinCommit .pf0) s = .next (s.refuse 0x2c)) ∧
  (∀ (s : State) (k : Fin 32) (m : BitVec 4) (v : Word), s.booted = true → m.toNat ∈ [1, 2, 3, 4, 5, 6, 8] →
    s.rd (Reg.hifSem k) = 0 → v &&& 0xf = m.zeroExtend 32 → s.regsOk → ∃ t, exec (.semWrite k m v) s = .next t ∧
    t.rd (Reg.hifSem k) = m.zeroExtend 32 ∧ (∀ b, b ≠ Reg.hifSem k → t.rd b = s.rd b)) ∧
  (∀ (s : State) (k : Fin 32) (m : BitVec 4) (v : Word), s.booted = true → m.toNat ∈ [1, 2, 3, 4, 5, 6, 8] →
    s.rd (Reg.hifSem k) ≠ 0 → s.rd (Reg.hifSem k) ≠ m.zeroExtend 32 → ∃ t, exec (.semWrite k m v) s = .next t ∧
    t = s) ∧
  (∀ (s : State) (k : Fin 32) (m : BitVec 4) (v : Word), s.booted = true → m.toNat ∈ [1, 2, 3, 4, 5, 6, 8] →
    s.rd (Reg.hifSem k) = m.zeroExtend 32 → v &&& 0xf = 0 → s.regsOk → ∃ t, exec (.semWrite k m v) s = .next t ∧
    t.rd (Reg.hifSem k) = 0 ∧ (∀ b, b ≠ Reg.hifSem k → t.rd b = s.rd b)) ∧
  (∀ (s : State) (k : Fin 32) (m : BitVec 4) (v : Word), s.booted = true → m.toNat ∈ [1, 2, 3, 4, 5, 6, 8] →
    ((s.rd (Reg.hifSem k) = 0 ∧ v &&& 0xf ≠ m.zeroExtend 32) ∨ (s.rd (Reg.hifSem k) = m.zeroExtend 32 ∧ v &&& 0xf ≠ 0))
      → exec (.semWrite k m v) s = .next (s)) ∧
  (∀ (s : State) (k : Fin 32) (v : Word), s.booted = true → exec (.semWrite k 9 v) s = .next (s.refuse 0x30)) ∧
  (∀ (s : State) (pf : Pf) (r : AtomicReq), s.booted = true → r.bar2 = true → (r.width = 4 ∨ r.width = 8) →
    r.off.toNat % r.width = 0 → r.off.toNat + r.width ≤ 0x800000 → (pf = .pf0 ∨ 0x200000 ≤ r.off.toNat) →
    ∃ t, exec (.atomicOp pf r) s = .next t ∧
    t.outbox = s.outbox ++ [.atomic pf false (BitVec.ofNat 64 (leNat (s.notice.readBytes ramFill r.off.toNat
      r.width)))] ∧
    t.notice = s.notice.writeBytes ramFill r.off.toNat (bytesLE (atomicResult r (BitVec.ofNat 64 (leNat
      (s.notice.readBytes ramFill r.off.toNat r.width)))) r.width)) ∧
  (∀ (s : State) (pf : Pf) (r : AtomicReq), s.booted = true →
    (r.bar2 = false ∨ (r.width ≠ 4 ∧ r.width ≠ 8) ∨ r.off.toNat % r.width ≠ 0 ∨ 0x800000 < r.off.toNat + r.width ∨ (pf
      = .pf1 ∧ r.off.toNat < 0x200000)) → ∃ t, exec (.atomicOp pf r) s = .next t ∧
    t.outbox = s.outbox ++ [.atomic pf true 0] ∧ t.notice = s.notice) ∧
  (∀ (s : State) (pf : Pf) (off : BitVec 24) (data : List Byte), s.booted = true →
    Memory.wf ramFill s.notice = true → ∃ t, exec (.noticeSramWrite pf off data) s = .next t ∧
    (∀ a, t.notice.read ramFill a = if off.toNat ≤ a ∧ a < off.toNat + data.length ∧ a < 0x800000 ∧ (pf = .pf0 ∨
      0x200000 ≤ a) then data.getD (a - off.toNat) 0 else s.notice.read ramFill a)) ∧
  (∀ (s : State) (pf : Pf) (off : BitVec 24) (data : List Byte), s.booted = false →
    exec (.noticeSramWrite pf off data) s = .next (s))

/-- Triggers, activations and their shadow images (R131, R134, R136, R137, R140, spec/16_clocks_and_power.md R419): a grid
instant becomes the pending trigger; an admitted trigger starts an activation at its instant, which commits COMMIT later; a
deferrable one that its tokens do not cover is deferred; a completed copy makes the task run; a COND decides its segment at 1 PE;
the end of the last block completes the activation (log entry 54). -/
def Obligations.TriggersAndShadowsComplete : Prop :=
  (∀ (s : State) (k : Fin 8), s.twn.role ≠ .standby → s.alive = true → s.eng.mode = .run → s.eng.change = .none →
    (s.task k).rec'.en = true → (s.task k).rec'.trig = 0 → (s.task k).trig = none → (s.task k).grid ≤ s.now →
    ∃ t, exec (.taskPeriodicTrigger k) s = .next t ∧ (t.task k).trig = some (s.task k).grid ∧
    (t.task k).grid = (s.task k).grid + 1000 * (s.task k).rec'.period ∧ (∀ j, j ≠ k → t.task j = s.task j)) ∧
  (∀ (s : State) (k : Fin 8), (s.twn.role = .standby ∨ s.alive = false ∨ s.eng.mode ≠ .run ∨ s.eng.change ≠ .none ∨
      (s.task k).rec'.en = false ∨ (s.task k).rec'.trig ≠ 0 ∨ (s.task k).trig ≠ none ∨ s.now < (s.task k).grid) →
    exec (.taskPeriodicTrigger k) s = .next (s)) ∧
  (∀ (s : State) (k : Fin 8) (ts : Nat), s.admitAt = some ts → k.val < 4 → s.twn.role ≠ .standby →
    (s.task k).trig = some ts → (s.task k).act = none → (∀ j, j ≠ k → (s.task j).trig ≠ some ts) →
    ∃ t, exec .triggerAdmit s = .next t ∧
    (∃ a, (t.task k).act = some a ∧ a.ts = ts ∧ a.tc = ts + (s.task k).rec'.commitNs ∧ a.stage = .copying) ∧
    (t.task k).trig = none ∧ (t.task k).lastShad = some ts) ∧
  (∀ (s : State) (k : Fin 8) (ts c : Nat), s.admitAt = some ts → 4 ≤ k.val → s.twn.role ≠ .standby →
    (s.task k).trig = some ts → (s.task k).act = none → (∀ j, j ≠ k → (s.task j).trig ≠ some ts) →
    c = s.peCost (if (s.task k).firstLoad then (s.task k).rec'.wcpe else (s.pimRd (pimSysv k + 5)).toNat) →
    (c : Int) ≤ s.tokBal → ∃ t, exec .triggerAdmit s = .next t ∧
    (∃ a, (t.task k).act = some a ∧ a.ts = ts ∧ a.tc = ts + (s.task k).rec'.commitNs ∧ a.stage = .copying ∧ a.est =
      some c) ∧ (t.task k).trig = none) ∧
  (∀ (s : State) (k : Fin 8) (ts c : Nat), s.admitAt = some ts → 4 ≤ k.val → s.twn.role ≠ .standby →
    (s.task k).trig = some ts → (s.task k).act = none → (∀ j, j ≠ k → (s.task j).trig ≠ some ts) →
    c = s.peCost (if (s.task k).firstLoad then (s.task k).rec'.wcpe else (s.pimRd (pimSysv k + 5)).toNat) →
    s.tokBal < c → (s.task k).defers + 1 < (s.task k).rec'.stretch → ∃ t, exec .triggerAdmit s = .next t ∧
    (t.task k).act = none ∧
    ((t.task k).trig = if (s.task k).rec'.trig = 0 then none else some (ts + 1000 * (s.task k).rec'.period)) ∧
    (t.task k).defers = (s.task k).defers + 1) ∧
  (∀ (s : State), s.admitAt = none → exec .triggerAdmit s = .next (s)) ∧
  (∀ (s : State) (k : Fin 8) (a : Act), s.alive = true → s.eng.mode = .run → s.eng.running = none →
    s.opHalts = false → s.pimc.retry = none → s.pimc.flips = [] → (s.task k).act = some a → a.stage = .copying →
    (∀ j, j ≠ k → (s.task j).act = none) → ∃ t, exec (.shadowCopyDone k) s = .next t ∧ t.eng.running = some k ∧
    (∃ b, (t.task k).act = some b ∧ b.stage = .running ∧ b.pos = a.pos ∧ b.saved = [])) ∧
  (∀ (s : State) (k : Fin 8), (s.alive = false ∨ s.eng.mode = .stop ∨ s.pimc.retry ≠ none ∨ ∀ a, (s.task k).act =
      some a → a.stage ≠ .copying) → exec (.shadowCopyDone k) s = .next (s)) ∧
  (∀ (s : State) (k : Fin 8) (a : Act) (i : Nat), s.quiet → s.engineRuns .run = true → s.runAct = some (k, a) →
    a.pos = .cond i → (i = 0 → a.frc = []) → a.pe + 1 ≤ (s.task k).rec'.wcpe →
    ∃ t, exec (.segmentCond Upset.none) s = .next t ∧
    (∃ b, (t.task k).act = some b ∧ b.pe = a.pe + 1 ∧ b.staged = a.staged ∧ b.pos = s.afterCond k i ((s.condAt k i).1
      == 0 || bit (s.readSlot k a (s.condAt k i).1 tBOOL 0) 0))) ∧
  (∀ (s : State) (u : Upset), (s.engineRuns .run = false ∨ ∀ k a i, s.runAct = some (k, a) → a.pos ≠ .cond i) →
    exec (.segmentCond u) s = .next (s)) ∧
  (∀ (s : State) (k : Fin 8) (a : Act), s.quiet → s.engineRuns .run = true → s.runAct = some (k, a) → a.pos = .done →
    a.sigDev = Tri.none → (∀ l : Fin 3, s.lanes.pipe[l].dev = []) →
    ∃ t, exec (.activationComplete Tri.none) s = .next t ∧
    (∃ b, (t.task k).act = some b ∧ b.stage = .complete ∧ b.staged = a.staged ∧ b.tc = a.tc)) ∧
  (∀ (s : State) (sig : Tri), (s.engineRuns .run = false ∨ ∀ k a, s.runAct = some (k, a) → a.pos ≠ .done) →
    exec (.activationComplete sig) s = .next (s))

/-- The commit instant (R134 to R136, R141, spec/16_clocks_and_power.md R411): when every activation due has completed, each
commits in task order and the outputs follow; when one has not, the engine stops with 0x0801. -/
def Obligations.CommitAndOverrun : Prop :=
  (∀ (s : State) (lcr : Tri) (tel : List WriteUpset) (tc : Nat), s.alive = true → s.eng.mode = .run →
    s.eng.change.isPausing = false → s.pimc.retry = none → s.pimc.flips = [] → s.firstCommit = some tc → tc ≤ s.now →
    s.engSrc ≠ 2 → (∀ k ∈ s.dueAt tc, ∃ a, (s.task k).act = some a ∧ a.stage = .complete) →
    ∃ t, exec (.commit lcr tel) s = .next t ∧
    t = ((((s.dueAt tc).foldl (fun s k => s.commitAct k) s).afterCommits (s.dueAt tc) tc tel).lcrCheck lcr)) ∧
  (∀ (s : State) (k : Fin 8), ((s.commitAct k).task k).act = none) ∧
  (∀ (s : State) (k : Fin 8) (a : Act) (w : Nat) (v : Word), (s.task k).act = some a → a.staged = [.out w v] →
    s.forces = [] → w < 0x4000 → Memory.wf ramFill s.pim = true → (s.commitAct k).pimRd (pimOpc + w) = v) ∧
  (∀ (s : State) (lcr : Tri) (tel : List WriteUpset) (tc : Nat) (k : Fin 8) (a : Act), s.alive = true →
    s.eng.mode = .run → s.eng.change.isPausing = false → s.firstCommit = some tc → tc ≤ s.now → s.engSrc ≠ 2 →
    k ∈ s.dueAt tc → (s.task k).act = some a → a.stage ≠ .complete → s.regsOk →
    ∃ t, exec (.commit lcr tel) s = .next t ∧ t.eng.mode = .stop ∧ t.rd64 Reg.engOvrtLo = tc % 2 ^ 64) ∧
  (∀ (s : State) (lcr : Tri) (tel : List WriteUpset) (tc : Nat), s.alive = true → s.eng.mode = .run →
    s.eng.change.isPausing = false → s.firstCommit = some tc → tc ≤ s.now → s.engSrc = 2 → s.regsOk →
    ∃ t, exec (.commit lcr tel) s = .next t ∧ t.eng.mode = .stop ∧ t.rd64 Reg.engOvrtLo = tc % 2 ^ 64) ∧
  (∀ (s : State) (lcr : Tri) (tel : List WriteUpset), (s.alive = false ∨ s.eng.mode ≠ .run ∨ s.eng.change.isPausing =
      true ∨ (s.pimc.retry ≠ none ∧ s.engSrc ≠ 2 ∧ ∀ tc, s.firstCommit = some tc → ∀ k ∈ s.dueAt tc, ∃ a, (s.task
      k).act = some a ∧ a.stage = .complete) ∨ ∀ tc, s.firstCommit = some tc → s.now < tc) →
    exec (.commit lcr tel) s = .next (s))

/-- Start, stop, breakpoints and HOLD (R131, R142 to R146, R152): a start command that the state allows enters RUN with the task
epoch; a stop command stops the engine; a breakpoint halts the lanes before its block; resume, step and stop leave HOLD as their
rules say; the change pause begins with the last commit. -/
def Obligations.StartStopAndHoldComplete : Prop :=
  (∀ (s : State), s.booted = true → s.sealRo 8 = false → s.mstate = .stop → s.eng.change = .none →
    s.startAllowed = true → s.regsOk → ∃ t, exec (.startCommand .pf0) s = .next t ∧ t.eng.mode = .run ∧
    t.mstate = .run ∧ t.rd64 Reg.engEpochLo = epochAfter (nextWhole s.now 1000) % 2 ^ 64) ∧
  (∀ (s : State), s.booted = true → s.sealRo 8 = false →
    (s.mstate ≠ .stop ∨ s.eng.change ≠ .none ∨ s.startAllowed = false) → ∃ t, exec (.startCommand .pf0) s = .next t ∧
    t = s.evt 8 8) ∧
  (∀ (s : State) (pf : Pf), (pf = .pf1 ∨ s.sealRo 8 = true) →
    exec (.startCommand pf) s = .next (if s.booted then s.refuse 8 else s)) ∧
  (∀ (s : State), s.booted = true → s.sealRo 8 = false → s.mstate = .run → s.regsOk →
    ∃ t, exec (.stopCommand .pf0) s = .next t ∧ t.eng.mode = .stop ∧ t.mstate = .stop ∧ t.eng.running = none ∧
    (∀ k : Fin 8, (t.task k).act = none) ∧ t.rd64 Reg.engOvrtLo = nextWhole s.now 1000 % 2 ^ 64) ∧
  (∀ (s : State), s.booted = true → s.sealRo 8 = false → s.mstate ≠ .run →
    exec (.stopCommand .pf0) s = .next (s.evt 8 8)) ∧
  (∀ (s : State) (pf : Pf), (pf = .pf1 ∨ s.sealRo 8 = true) →
    exec (.stopCommand pf) s = .next (if s.booted then s.refuse 8 else s)) ∧
  (∀ (s : State) (k : Fin 8) (a : Act) (d : Nat), s.engineRuns .run = true → s.nextBlock = some (k, a, d) →
    s.isBp d = true → s.eng.passed ≠ some (k, d) → s.imgSealed = false → ∃ t, exec .breakpointHalt s = .next t ∧
    t.eng.mode = .hold ∧ t.mstate = .hold ∧ t.eng.halted = some (k, d) ∧ t.task k = s.task k) ∧
  (∀ (s : State) (k : Fin 8) (a : Act) (d : Nat), s.engineRuns .run = true → s.nextBlock = some (k, a, d) →
    s.isBp d = true → s.eng.passed ≠ some (k, d) → s.imgSealed = true → exec .breakpointHalt s = .next (s.evt 13 2)) ∧
  (∀ (s : State), (s.engineRuns .run = false ∨ ∀ k a d, s.nextBlock = some (k, a, d) → s.isBp d = false ∨
      s.eng.passed = some (k, d)) → exec .breakpointHalt s = .next (s)) ∧
  (∀ (s : State) (pf : Pf), s.booted = true → (pf = .pf1 ∨ s.sealRo 13 = true ∨ s.eng.mode ≠ .hold) →
    ∃ t, exec (.holdResume pf) s = .next t ∧
    (t = if pf = .pf1 then s.refuse 13 else if s.sealRo 13 = true then (s.refuse 13).holdRef else s.holdRef)) ∧
  (∀ (s : State) (pf : Pf) (u : Upset), s.booted = true → s.pimc.retry = none →
    (pf = .pf1 ∨ s.sealRo 13 = true ∨ s.eng.mode ≠ .hold) → ∃ t, exec (.holdStep pf u) s = .next t ∧
    (t = if pf = .pf1 then s.refuse 13 else if s.sealRo 13 = true then (s.refuse 13).holdRef else s.holdRef)) ∧
  (∀ (s : State) (pf : Pf), s.booted = true → (pf = .pf1 ∨ s.sealRo 13 = true ∨ s.eng.mode ≠ .hold) →
    ∃ t, exec (.dbgStop pf) s = .next t ∧
    (t = if pf = .pf1 then s.refuse 13 else if s.sealRo 13 = true then (s.refuse 13).holdRef else s.holdRef)) ∧
  (∀ (s : State), s.booted = true → s.sealRo 13 = false → s.eng.mode = .hold →
    ∃ t, exec (.holdResume .pf0) s = .next t ∧ t.eng.mode = .run ∧ t.mstate = .run ∧ t.eng.halted = none ∧
    (∀ k : Fin 8, (t.task k).grid = (s.task k).grid + (nextWhole s.now 1000 - s.eng.holdAt))) ∧
  (∀ (s : State) (u : Upset) (k : Fin 8) (d : Nat), s.booted = true → s.pimc.retry = none → s.sealRo 13 = false →
    s.eng.mode = .hold → s.eng.halted = some (k, d) → ∃ t, exec (.holdStep .pf0 u) s = .next t ∧ t = s.stepBlock k u) ∧
  (∀ (s : State) (u : Upset), s.booted = true → s.pimc.retry = none → s.sealRo 13 = false → s.eng.mode = .hold →
    s.eng.halted = none → ∃ t, exec (.holdStep .pf0 u) s = .next t ∧
    t = (s.nextReady).elim s.holdRef (fun k => (s.startRun k).stepBlock k u)) ∧
  (∀ (s : State), s.booted = true → s.sealRo 13 = false → s.eng.mode = .hold →
    ∃ t, exec (.dbgStop .pf0) s = .next t ∧ t.eng.mode = .stop ∧ t.mstate = .stop ∧ t.eng.halted = none) ∧
  (∀ (s : State) (w : Bool), s.eng.change = .waiting w → s.alive = true → (∀ k : Fin 8, (s.task k).act = none) →
    ∃ t, exec .changePauseBegin s = .next t ∧ t.eng.change = .pausing s.now w) ∧
  (∀ (s : State), (s.alive = false ∨ (∃ k : Fin 8, (s.task k).act ≠ none) ∨ ∀ w, s.eng.change ≠ .waiting w) →
    exec .changePauseBegin s = .next (s)) ∧
  (∀ (s : State), (s.alive = false ∨ ∀ g w, s.eng.change ≠ .pausing g w) → exec .changePauseEnd s = .next (s)) ∧
  (∀ (s : State) (g : Nat) (w : Bool), s.eng.change = .pausing g w → s.alive = true →
    ∃ t, exec .changePauseEnd s = .next t ∧ t = s.changeEnd g ∧ t.eng.change = .none)

/-- Every block command (`blockCmds` lists all but CONV, which has a clause of its own), standing at its block in lanes that
agree, executes it: it answers the state in which the block has read its operands and then written its outputs in operand order,
its instance words and OVF, staged its effects, advanced, and added its PE cost (R94 to R96). A wrong instance header is fault
0x0803 and SAFE instead (R71). -/
def Obligations.BlocksComplete : Prop :=
  (∀ p ∈ blockCmds, ∀ (s : State) (k : Fin 8) (a : Act) (d opc : Nat), s.atBlock k a d opc → p.2.opc opc = true → s.quiet →
      if 0 < p.2.words ∧ s.pimRd (s.irefAt d) ≠ wd opc then
        exec (p.1 Upset.none) s = .next (s.enterSafe 0x0803 k [wd d, wd (s.irefAt d), s.pimRd (s.irefAt d)])
      else exec (p.1 Upset.none) s = .next (s.ranBlock p.2 k a d)) ∧
  (∀ p ∈ blockCmds, ∀ (s : State) (u : Upset),
    (∀ (k : Fin 8) (a : Act) (d opc : Nat), s.atBlock k a d opc → p.2.opc opc = true →
      exec (p.1 u) s = .next (s.runBlock p.2 k a d u)) ∧
    (s.engineRuns .run = false ∨ s.nextBlock = none → exec (p.1 u) s = .next s)) ∧
  (∀ (s : State) (k : Fin 8) (a : Act) (d src : Nat), src ≤ 12 → s.atBlock k a d (0x110 + src) → s.quiet →
    exec (.bConv Upset.none) s = .next (s.ranBlock (blkConvOf src) k a d))

/-- The integer blocks on the type of their descriptor (R97, R98, and the wrapping operations of R96). -/
def Obligations.IntegerArithmeticBlocks : Prop :=
  ∀ x : BIn, tyINT x.dty = true →
    (∀ p ∈ [(blkAdd, x.v 0 + x.v 1), (blkSub, x.v 0 - x.v 1), (blkMul, x.v 0 * x.v 1)],
      ∃ q, p.1.sem x = ⟨[some q], [], decide (p.2 < tyMin x.dty ∨ tyMax x.dty < p.2), []⟩ ∧ tyExt x.dty q = q ∧
        (tyVal x.dty q - p.2) % 2 ^ tyWidth x.dty = 0) ∧
    (∀ p ∈ [(blkAddS, x.v 0 + x.v 1), (blkSubS, x.v 0 - x.v 1), (blkMulS, x.v 0 * x.v 1)],
      ∃ q, p.1.sem x = ⟨[some q], [], false, []⟩ ∧ tyExt x.dty q = q ∧
        tyVal x.dty q = max (tyMin x.dty) (min (tyMax x.dty) p.2)) ∧
    (∃ q, blkDiv.sem x =
        ⟨[some q, some (b2w (x.v 1 == 0 || (tySI x.dty && x.v 0 == tyMin x.dty && x.v 1 == -1)))], [], false, []⟩ ∧
      tyVal x.dty q = (if x.v 1 = 0 then 0
        else if tySI x.dty = true ∧ x.v 0 = tyMin x.dty ∧ x.v 1 = -1 then tyMax x.dty
        else Int.tdiv (x.v 0) (x.v 1))) ∧
    ∃ q, blkMod.sem x = ⟨[some q, some (b2w (x.v 1 == 0))], [], false, []⟩ ∧
      tyVal x.dty q = if x.v 1 = 0 then 0 else x.v 0 - x.v 1 * Int.tdiv (x.v 0) (x.v 1)

/-- The logic, shift, compare, edge and latch blocks, bit by bit and value by value (R100, R102, R105). -/
def Obligations.LogicCompareAndLatchBlocks : Prop :=
  ∀ x : BIn,
    (∃ q, blkAnd.sem x = ⟨[some q], [], false, []⟩ ∧ ∀ i < 32, bit q i = x.ins.all fun w => bit w i) ∧
    (∃ q, blkOr.sem x = ⟨[some q], [], false, []⟩ ∧ ∀ i < 32, bit q i = x.ins.any fun w => bit w i) ∧
    (∃ q, blkXor.sem x = ⟨[some q], [], false, []⟩ ∧
      ∀ i < 32, bit q i = decide ((x.ins.filter fun w => bit w i).length % 2 = 1)) ∧
    (tyBIT x.dty = true → ∃ q, blkNot.sem x = ⟨[some q], [], false, []⟩ ∧
      ∀ i < 32, bit q i = (decide (i < tyWidth x.dty) && !bit (x.w 0) i)) ∧
    (tyBS x.dty = true → tyExt x.dty (x.w 0) = x.w 0 →
      (∃ q, blkShl.sem x = ⟨[some q], [], false, []⟩ ∧ ∀ i < 32,
        bit q i = (decide (i < tyWidth x.dty) && decide ((x.w 1).toNat ≤ i) && bit (x.w 0) (i - (x.w 1).toNat))) ∧
      (∃ q, blkShr.sem x = ⟨[some q], [], false, []⟩ ∧ ∀ i < 32, bit q i = bit (x.w 0) (i + (x.w 1).toNat)) ∧
      (∃ q, blkRol.sem x = ⟨[some q], [], false, []⟩ ∧ ∀ i < 32,
        bit q ((i + (x.w 1).toNat) % tyWidth x.dty) = bit (x.w 0) (i % tyWidth x.dty)) ∧
      ∃ q, blkRor.sem x = ⟨[some q], [], false, []⟩ ∧ ∀ i < 32,
        bit q (i % tyWidth x.dty) = bit (x.w 0) ((i + (x.w 1).toNat) % tyWidth x.dty)) ∧
    (tyINT x.dty = true →
      blkLt.sem x = ⟨[some (b2w (decide (x.v 0 < x.v 1)))], [], false, []⟩ ∧
      blkLe.sem x = ⟨[some (b2w (decide (x.v 0 ≤ x.v 1)))], [], false, []⟩ ∧
      blkGt.sem x = ⟨[some (b2w (decide (x.v 0 > x.v 1)))], [], false, []⟩ ∧
      blkGe.sem x = ⟨[some (b2w (decide (x.v 0 ≥ x.v 1)))], [], false, []⟩ ∧
      blkWin.sem x = ⟨[some (b2w (decide (x.v 0 ≤ x.v 1 ∧ x.v 1 ≤ x.v 2)))], [], false, []⟩ ∧
      (tyExt x.dty (x.w 0) = x.w 0 → tyExt x.dty (x.w 1) = x.w 1 →
        blkEq.sem x = ⟨[some (b2w (decide (x.v 0 = x.v 1)))], [], false, []⟩ ∧
        blkNe.sem x = ⟨[some (b2w (decide (x.v 0 ≠ x.v 1)))], [], false, []⟩)) ∧
    (∀ m, bit (x.iw 1) 0 = m →
      blkRTrig.sem x = ⟨[some (b2w (x.b 0 && !m))], [b2w (x.b 0)], false, []⟩ ∧
      blkFTrig.sem x = ⟨[some (b2w (m && !x.b 0))], [b2w (x.b 0)], false, []⟩ ∧
      blkSr.sem x = ⟨[some (b2w (x.b 0 || (m && !x.b 1)))], [b2w (x.b 0 || (m && !x.b 1))], false, []⟩ ∧
      blkRs.sem x = ⟨[some (b2w (!x.b 1 && (x.b 0 || m)))], [b2w (!x.b 1 && (x.b 0 || m))], false, []⟩)

/-- The timers (R107, R108) and the counters (R109, R110), over every time step and every stored instance word. -/
def Obligations.TimerAndCounterBlocks : Prop :=
  ∀ x : BIn, 0 ≤ x.dt →
    (∀ p ∈ [(blkTon, 1), (blkTof, 1), (blkTp, 1), (blkTacc, 2)], 0 ≤ x.et → x.et ≤ max (x.time p.2) 0 →
      ∃ q et w2, p.1.sem x = ⟨[some (b2w q), some (wi et)], [wi et, w2], false, []⟩ ∧ 0 ≤ et ∧ et ≤ max (x.time p.2) 0 ∧
        bit w2 0 = x.b 0 ∧ bit w2 2 = q ∧ et ≤ x.et + x.dt) ∧
    (x.b 0 = true → x.m = true → 0 ≤ x.et → x.et ≤ max (x.time 1) 0 →
      ∃ et, (blkTon.sem x).outs = [some (b2w (decide (max (x.time 1) 0 ≤ x.et + x.dt))), some (wi et)] ∧
        et = min (x.et + x.dt) (max (x.time 1) 0)) ∧
    (x.b 0 = false → ∃ q, (blkTon.sem x).outs = [some 0, some 0] ∧ (blkTacc.sem x).inst.length = 2 ∧
      (blkTof.sem x).outs = [some (b2w q), some (wi (if x.m then 0 else min (x.et + x.dt) (max (x.time 1) 0)))] ∧
      q = decide ((if x.m then 0 else min (x.et + x.dt) (max (x.time 1) 0)) < max (x.time 1) 0)) ∧
    (x.b 0 = true → (blkTof.sem x).outs = [some 1, some 0]) ∧
    (tyINT x.dty = true → ∀ cv, tyVal x.dty (x.iw 1) = cv →
      (∃ n, (blkCtu.sem x).outs = [some (b2w (decide (x.v 2 ≤ tyVal x.dty n))), some n] ∧
        (blkCtu.sem x).inst = [n, b2w (x.b 0)] ∧
        tyVal x.dty n = (if x.b 1 then 0
          else if x.b 0 ∧ bit (x.iw 2) 0 = false then min (cv + 1) (tyMax x.dty) else cv)) ∧
      ∃ n, (blkCtd.sem x).outs = [some (b2w (decide (tyVal x.dty n ≤ 0))), some n] ∧
        (blkCtd.sem x).inst = [n, b2w (x.b 0) <<< 1] ∧
        tyVal x.dty n = (if x.b 1 then x.v 2
          else if x.b 0 ∧ bit (x.iw 2) 1 = false then max (cv - 1) (tyMin x.dty) else cv))

/-- The sequence block (R115) and the safety blocks (R118 to R121), for every input and every stored instance word. -/
def Obligations.SequenceAndSafetyBlocks : Prop :=
  ∀ x : BIn, 0 ≤ x.dt →
    (∀ n, (x.w 2).toNat = n → 1 ≤ n → n ≤ 32 → ∃ sno ts, sno < n ∧
      blkSeq.sem x = ⟨[some (wd sno), some (wd (2 ^ sno)), some (wi ts)], [wd sno, wi ts], false, []⟩ ∧
      (x.b 0 = true → sno = 0 ∧ ts = 0) ∧
      (x.b 0 = false → (x.iw 1).toNat < n →
        (bit (x.w 1) (x.iw 1).toNat = true → sno = ((x.iw 1).toNat + 1) % n ∧ ts = 0) ∧
        (bit (x.w 1) (x.iw 1).toNat = false →
          sno = (x.iw 1).toNat ∧ ts = min (sfld (x.iw 2) 0 32 + x.dt) 2147483647)) ∧
      (x.b 0 = false → n ≤ (x.iw 1).toNat → bit (x.w 1) 0 = false → sno = 0 ∧ ts = min x.dt 2147483647)) ∧
    (∃ ok tp tested, blkGuard.sem x = ⟨[some (b2w ok), some (b2w tp)], [b2w tested], false, []⟩ ∧
      tested = (bit (x.iw 1) 0 || (!x.b 0 && x.b 1)) ∧ tp = (x.b 2 && !tested) ∧
      (ok = true ↔ x.b 0 = true ∧ x.b 1 = true ∧ tp = false)) ∧
    (∃ ack st w1 w2 e, blkReset.sem x = ⟨[some (b2w ack), some (b2w st)], [w1, w2], false, e⟩ ∧
      (ack = true ↔ x.b 0 = true ∧ x.b 1 = true ∧ bit (x.iw 2) 0 = true ∧ bit (x.iw 2) 1 = false) ∧
      bit w2 1 = (x.b 0 && x.b 1) ∧ bit w2 2 = st ∧
      (x.b 1 = false → w1 = 0 ∧ bit w2 0 = false ∧ e = []) ∧
      (x.b 1 = true → x.b 0 = false → w1 = 0 ∧ bit w2 0 = true ∧ st = false ∧ e = []) ∧
      (st = true → bit (x.iw 2) 2 = false → e = [x.fault 0x0881]) ∧ (bit (x.iw 2) 2 = true → e = [])) ∧
    (∀ p ∈ [(blkAntiv, true, false), (blkEquiv, true, true)],
      ∃ ok disc w1 w2 e, p.1.sem x = ⟨[some (b2w ok), some (b2w disc)], [w1, w2], false, e⟩ ∧ bit w2 0 = disc ∧
        (ok = true ↔ x.b 2 = true ∧ x.b 0 = p.2.1 ∧ x.b 1 = p.2.2 ∧ disc = false) ∧
        e = if disc && !bit (x.iw 2) 0 then [x.fault 0x0882] else []) ∧
    ∃ q flt w1 w2 e, blkFbmon.sem x = ⟨[some (b2w q), some (b2w flt)], [w1, w2], false, e⟩ ∧
      (q = true ↔ x.b 0 = true ∧ flt = false) ∧ bit w2 0 = flt ∧ bit w2 1 = x.b 0 ∧
      (flt = true → bit (x.iw 2) 0 = false → e = [x.fault 0x0883]) ∧ (bit (x.iw 2) 0 = true → e = [])

/-- The comparison of R165 and R167 over every set of held lanes and all three requests. -/
def Obligations.VotedValueIsTheMajority : Prop :=
  (∀ (l : Lanes) (x : Tri) (y : Dword) (o : Option (Fin 3)), l.compare x = .value y o →
    (∃ i : Fin 3, l.counts i = true ∧ triLane x i = y) ∧
    (∀ j : Fin 3, l.counts j = true → triLane x j ≠ y → o = some j) ∧
    (∀ j : Fin 3, o = some j → l.counts j = true ∧ triLane x j ≠ y)) ∧
  (∀ (l : Lanes) (x : Tri), l.compare x = .noMajority →
    (∀ i j : Fin 3, i ≠ j → l.counts i = true → l.counts j = true → triLane x i ≠ triLane x j ∨ ∃ m : Fin 3, m ≠ i ∧ m
      ≠ j ∧ l.counts m = true) ∧ (∀ i j : Fin 3, l.held = 0 → i ≠ j → triLane x i ≠ triLane x j)) ∧
  (∀ (s : State) (c w1 : Nat) (y : Dword), s.quiet → s.vote c w1 ⟨y, y, y⟩ = (s, some y)) ∧
  (∀ (s : State) (c w1 : Nat) (x : Tri), s.lanes.compare x = .noMajority → (s.vote c w1 x).2 = none ∧
    (s.vote c w1 x).1 = s.enterSafe 0x0a08 0 (lanePay 3 c w1 s.runTask))

/-- Holding and resynchronising a lane (R172 to R178, R185, R186). -/
def Obligations.LaneHeldAndResynchronised : Prop :=
  (∀ (s : State) (l : Fin 3) (c w1 : Nat), s.lanes.held &&& ~~~ BitVec.ofNat 3 (2 ^ l.val) = 0 →
    (s.lanes.oddLog.filter fun e => e.1 == l).length < 2 → c < 8 → s.regsOk →
    (s.laneOdd l c w1).lanes.held = s.lanes.held ||| BitVec.ofNat 3 (2 ^ l.val) ∧
    (s.laneOdd l c w1).lanes.retired = s.lanes.retired ∧ (s.laneOdd l c w1).lanes.rs = .idle ∧
    (s.laneOdd l c w1).rd Reg.voteLastodd = wd (l.val + c * 16 + 0x80000000) ∧
    fld ((s.laneOdd l c w1).rd (Reg.voteOddcnt l)) 16 3 = c ∧ (s.laneOdd l c w1).mstate = s.mstate ∧
    (s.laneOdd l c w1).pim = s.pim) ∧
  (∀ (s : State) (sig : Tri), s.booted = true → s.quiet → s.lanes.gsMs < s.now / 1000000 → s.pstate ≠ .nap →
    s.pimc.retry = none → (∀ i j : Fin 3, (s.ownUpset sig).globalSig i = (s.ownUpset sig).globalSig j) →
    ∃ t, exec (.globalSignature sig) s = .next t ∧ t.lanes.gsMs = s.now / 1000000 ∧ t.lanes.held = 0 ∧
    (s.engineIdle = false → t.regs = s.regs) ∧ t.pim = s.pim) ∧
  (∀ (s : State) (sig : Tri), s.booted = true → s.quiet → s.lanes.gsMs < s.now / 1000000 → s.pstate ≠ .nap →
    s.pimc.retry = none → (s.ownUpset sig).globalSig 0 = (s.ownUpset sig).globalSig 1 →
    (s.ownUpset sig).globalSig 0 ≠ (s.ownUpset sig).globalSig 2 → s.lanes.oddLog = [] →
    ∃ t, exec (.globalSignature sig) s = .next t ∧ t.lanes.gsMs = s.now / 1000000 ∧ t.lanes.held = 4) ∧
  (∀ (s : State) (sig : Tri), (s.booted = false ∨ s.safeLatch = true ∨ s.now / 1000000 ≤ s.lanes.gsMs ∨ s.pstate =
      .nap ∨ s.pimc.retry ≠ none) → exec (.globalSignature sig) s = .next (s)) ∧
  (∀ (s : State) (l : Fin 3), s.booted = true → s.safeLatch = false → s.lanes.rs = .idle → s.lanes.oddLane = some l →
    s.taskBoundary = true → ∃ t, exec .resyncStart s = .next t ∧ t.lanes = { s.lanes with rs := .reset s.now } ∧
    t.regs = s.regs ∧ t.pim = s.pim ∧ t.eng = s.eng) ∧
  (∀ (s : State), (s.booted = false ∨ s.safeLatch = true ∨ s.lanes.rs ≠ .idle ∨ s.lanes.oddLane = none ∨
      s.taskBoundary = false) → exec .resyncStart s = .next (s)) ∧
  (∀ (s : State) (g : Nat) (l m n : Fin 3), s.booted = true → s.lanes.rs = .reset g → s.lanes.oddLane = some l →
    s.lanes.senders = (m, n) → s.lanes.own[m] = s.lanes.own[n] → s.lanes.lcrS[m] = s.lanes.lcrS[n] →
    ∃ t, exec (.resyncEngineLoaded false) s = .next t ∧
    t.lanes =
      { s.lanes with rs := .engine g, own := s.lanes.own.set l s.lanes.own[m], lcrS := s.lanes.lcrS.set l s.lanes.lcrS[m], pipe := s.lanes.pipe.set l Pipe.zero }
      ∧ t.regs = s.regs ∧ t.pim = s.pim) ∧
  (∀ (s : State) (differ : Bool) (g : Nat) (l m n : Fin 3), s.booted = true → s.lanes.rs = .reset g →
    s.lanes.oddLane = some l → s.lanes.senders = (m, n) →
    (differ = true ∨ s.lanes.own[m] ≠ s.lanes.own[n] ∨ s.lanes.lcrS[m] ≠ s.lanes.lcrS[n]) →
    ∃ t, exec (.resyncEngineLoaded differ) s = .next t ∧ t = s.enterSafe 0x0a0c 0 (lanePay l 0 0 s.runTask)) ∧
  (∀ (s : State) (differ : Bool), (s.booted = false ∨ s.lanes.oddLane = none ∨ ∀ g, s.lanes.rs ≠ .reset g) →
    exec (.resyncEngineLoaded differ) s = .next (s)) ∧
  (∀ (s : State) (g : Nat) (l m n : Fin 3), s.booted = true → s.lanes.rs = .engine g → s.lanes.oddLane = some l →
    s.lanes.senders = (m, n) → s.k0Differ m n = false → ∃ t, exec (.resyncK0Load false) s = .next t ∧
    t.lanes.rs = .k0 s.now ∧ t.lanes.lcr[l] = s.lanes.lcr[m] ∧ t.rfx.rules[l] = s.rfx.rules[m] ∧
    (∀ g : Fin 4, (t.fio[g]).cp[l].en = (s.fio[g]).cp[m].en) ∧ t.lanes.held = s.lanes.held ∧ t.regs = s.regs) ∧
  (∀ (s : State) (differ : Bool) (g : Nat) (l m n : Fin 3), s.booted = true → s.lanes.rs = .engine g →
    s.lanes.oddLane = some l → s.lanes.senders = (m, n) → (differ = true ∨ s.k0Differ m n = true) →
    ∃ t, exec (.resyncK0Load differ) s = .next t ∧ t = s.enterSafe 0x0a0c 0 (lanePay l 0 0 s.runTask)) ∧
  (∀ (s : State) (differ : Bool), (s.booted = false ∨ s.lanes.oddLane = none ∨ ∀ g, s.lanes.rs ≠ .engine g) →
    exec (.resyncK0Load differ) s = .next (s)) ∧
  (∀ (s : State) (sig : Tri) (g e : Nat) (l : Fin 3), s.booted = true → s.lanes.rs = .agreed g e →
    s.lanes.held = BitVec.ofNat 3 (2 ^ l.val) → bit s.lanes.retired l = false → s.safeLatch = false → e + 200 ≤ s.now →
    s.lanes.oddAt ≤ s.now ∧ s.now - s.lanes.oddAt < 0x100000000 → s.regsOk →
    (∀ i j : Fin 3, (s.ownUpset sig).globalSig i = (s.ownUpset sig).globalSig j) →
    ∃ t, exec (.laneRejoin sig) s = .next t ∧ t.lanes.held = 0 ∧ t.lanes.rs = .idle ∧
    t.rd Reg.voteLasthold = wd (s.now - s.lanes.oddAt) ∧ bit (t.rd 0x0a010) 1 = true ∧ t.mstate = s.mstate ∧
    s.reports t 0x0a09 (lanePay l (fld (s.rd (Reg.voteOddcnt l)) 16 3) 0 s.runTask)) ∧
  (∀ (s : State) (sig : Tri) (g e : Nat) (l : Fin 3), s.booted = true → s.lanes.rs = .agreed g e →
    s.lanes.held = BitVec.ofNat 3 (2 ^ l.val) → bit s.lanes.retired l = false → s.safeLatch = false → e + 200 ≤ s.now →
    (∀ i j : Fin 3, i ≠ l → j ≠ l → (s.ownUpset sig).globalSig i = (s.ownUpset sig).globalSig j) →
    (∀ i : Fin 3, i ≠ l → (s.ownUpset sig).globalSig i ≠ (s.ownUpset sig).globalSig l) →
    ∃ t, exec (.laneRejoin sig) s = .next t ∧ t.lanes.held = s.lanes.held ∧ t.lanes.rs = .idle) ∧
  (∀ (s : State) (sig : Tri), (s.booted = false ∨ s.lanes.oddLane = none ∨ ∀ g e, s.lanes.rs = .agreed g e → s.now <
      e + 200) → exec (.laneRejoin sig) s = .next (s)) ∧
  (∀ (s : State), (s.booted = false ∨ s.safeLatch = true ∨ s.lanes.rs ≠ .idle ∨ s.lanes.oddLane = none ∨
      s.lanes.starved = true ∨ s.now < s.lanes.oddAt + 1000000 * fld (s.rd Reg.voteStarve) 0 14) →
    exec .resyncStarved s = .next (s)) ∧
  (∀ (s : State) (l : Fin 3), s.booted = true → s.safeLatch = false → s.lanes.rs = .idle → s.lanes.oddLane = some l →
    s.lanes.starved = false → s.lanes.oddAt + 1000000 * fld (s.rd Reg.voteStarve) 0 14 ≤ s.now → s.regsOk →
    ∃ t, exec .resyncStarved s = .next t ∧ t.lanes = { s.lanes with starved := true } ∧ bit (t.rd 0x0a010) 3 = true ∧
    s.reports t 0x0a0b (lanePay l (fld (s.rd (Reg.voteOddcnt l)) 16 3) 0 s.runTask)) ∧
  (∀ (s : State), s.allowsWrite .pf0 Reg.voteSigsnap 1 = true → s.regsOk →
    ∃ t, exec (.signatureSnapshot .pf0) s = .next t ∧ t.rd (Reg.voteSig 0) = lo32 s.lanes.sig.a ∧
    t.rd (Reg.voteSig 1) = hi32 s.lanes.sig.a ∧ t.rd (Reg.voteSig 2) = lo32 s.lanes.sig.b ∧
    t.rd (Reg.voteSig 3) = hi32 s.lanes.sig.b ∧ t.rd (Reg.voteSig 4) = lo32 s.lanes.sig.c ∧
    t.rd (Reg.voteSig 5) = hi32 s.lanes.sig.c ∧ t.lanes = s.lanes)

/-- The PIM controller (R180 to R184, R188). -/
def Obligations.PimErrorsAreCorrectedOrFatal : Prop :=
  (∀ (s : State) (n : Nat) (r : List Nat), s.alive = true → s.pimc.retry = none → s.pimc.writeback = n :: r →
    ∃ t, exec .pimWriteback s = .next t ∧ t.pimc = s.pimc.wrote n ∧ n ∉ t.pimc.writeback ∧ t.pim = s.pim ∧
    t.regs = s.regs) ∧
  (∀ (s : State), (s.alive = false ∨ s.pimc.retry ≠ none ∨ s.pimc.writeback = []) →
    exec .pimWriteback s = .next (s)) ∧
  (∀ (s : State) (n m : Nat), s.alive = true → s.pimc.retry = some (n, m, false) → s.lineFails n = false → s.regsOk →
    ∃ t, exec (.pimRetryEnd .good) s = .next t ∧ t.pimc = { s.pimc with retry := none } ∧ bit (t.rd 0x0b010) 1 = true ∧
    t.mstate = s.mstate ∧ t.pim = s.pim ∧ s.reports t 0x0b02 [0, wd (8 * n), wd s.runTask]) ∧
  (∀ (s : State) (n m : Nat) (b : Bool) (o : RetryOut), s.alive = true → s.pimc.retry = some (n, m, b) →
    (o ≠ .good ∨ b = true ∨ s.lineFails n = true) → ∃ t, exec (.pimRetryEnd o) s = .next t ∧
    t = ({ s with pimc := { s.pimc with retry := none } } : State).pimFatal (if o = .addrClass ∨ b = true then 0x0b03
      else 0x0b04) n m (if o = .addrClass ∨ b = true then 1 else 2) (8 * n) ∧ t.safeLatch = true) ∧
  (∀ (s : State) (o : RetryOut), (s.alive = false ∨ s.pimc.retry = none) → exec (.pimRetryEnd o) s = .next (s)) ∧
  (∀ (s : State) (l : BitVec 3), s.booted = true → s.pimc.scrubOff = false → s.pstate ≠ .nap → s.pimc.retry = none →
    s.pimc.flips = [] → s.pimc.scrubPos + 1 < 786432 → s.regsOk → ∃ t, exec (.scrubLine ⟨[], 0, l⟩) s = .next t ∧
    t.pimc = { s.pimc with scrubPos := s.pimc.scrubPos + 1 } ∧ t.rd Reg.pimScrubpos = wd (s.pimc.scrubPos + 1) ∧
    (∀ a, a ≠ Reg.pimScrubpos → t.rd a = s.rd a) ∧ t.pim = s.pim) ∧
  (∀ (s : State) (l : BitVec 3), s.booted = true → s.pimc.scrubOff = false → s.pstate ≠ .nap → s.pimc.retry = none →
    s.pimc.flips = [] → s.pimc.scrubPos + 1 = 786432 → s.regsOk → ∃ t, exec (.scrubLine ⟨[], 0, l⟩) s = .next t ∧
    t.pimc.scrubPos = 0 ∧ t.pimc.scrubFrom = s.now ∧ t.rd Reg.pimScrubpos = 0 ∧ t.pim = s.pim) ∧
  (∀ (s : State) (cw : BitVec 2) (b : Fin 72), s.booted = true → s.pimc.scrubOff = false → s.pstate ≠ .nap →
    s.pimc.retry = none → s.pimc.flips = [] → s.pimc.scrubPos + 1 < 786432 → s.regsOk →
    ∃ t, exec (.scrubLine ⟨[⟨BitVec.ofNat 20 s.pimc.scrubPos, cw, 1 <<< b.val⟩], 0, 0⟩) s = .next t ∧
    t.pimc.scrubPos = s.pimc.scrubPos + 1 ∧
    t.pimc.writeback = (s.pimc.writeback.filter fun n => n != s.pimc.scrubPos) ++ [s.pimc.scrubPos] ∧
    t.pimc.retry = none ∧ t.rd Reg.pimCecnt = satInc (s.rd Reg.pimCecnt) 0xffffffff ∧
    t.rd Reg.pimCeaddr = wd (s.pimc.scrubPos + cw.toNat * 0x100000 + b.val * 0x400000 + 0x80000000) ∧
    bit (t.rd 0x0b010) 0 = true ∧ t.pim = s.pim ∧ s.reports t 0x0b01 [0, wd (8 * s.pimc.scrubPos), wd s.runTask]) ∧
  (∀ (s : State) (cw : BitVec 2) (b c : Fin 72), s.booted = true → s.pimc.scrubOff = false → s.pstate ≠ .nap →
    s.pimc.retry = none → s.pimc.flips = [] → s.pimc.scrubPos + 1 < 786432 → b ≠ c →
    ∃ t, exec (.scrubLine ⟨[⟨BitVec.ofNat 20 s.pimc.scrubPos, cw, 1 <<< b.val ||| 1 <<< c.val⟩], 0, 0⟩) s = .next t ∧
    (∃ second, t.pimc.retry = some (s.pimc.scrubPos, 0, second)) ∧ t.pimc.lastRetry = some s.now ∧ t.pim = s.pim) ∧
  (∀ (s : State) (e : PimErr), s.booted = true → s.pimc.scrubOff = false → s.pstate ≠ .nap → s.pimc.retry = none →
    s.pimc.scrubPos + 1 < 786432 → (popCount e.addr = 1 ∨ popCount e.addr = 2) → ∃ t, exec (.scrubLine e) s = .next t ∧
    (∃ second, t.pimc.retry = some (s.pimc.scrubPos, 0, second)) ∧ t.pim = s.pim) ∧
  (∀ (s : State) (e : PimErr), (s.booted = false ∨ s.pimc.scrubOff = true ∨ s.pstate = .nap ∨ s.pimc.retry ≠ none) →
    exec (.scrubLine e) s = .next (s))

/-- The downstream link and the field side (R166, R197, R204 to R208, R212, R216). Where its conditions do not hold, a command
changes nothing. -/
def Obligations.FieldSideActsOnVotedFrames : Prop :=
  (∀ (s : State) (g : Fin 4), s.linksOn = true → ∃ t, exec (.downstreamFrameTx g) s = .next t ∧
    (t.fioG g).down = some (s.downFrame g) ∧ (t.fioG g).sent = s.downFrame g ∧
    (t.fioG g).downSeq = (s.fioG g).downSeq + 1 ∧
    (∀ k : Fin 4, (t.fioG g).tp[k].req = ((s.fioG g).tp[k].req && s.outOn g k)) ∧
    (∀ f : Fin 4, f ≠ g → t.fioG f = s.fioG f) ∧ t.fside = s.fside ∧ t.regs = s.regs) ∧
  (∀ (s : State) (g : Fin 4), s.linksOn = false → exec (.downstreamFrameTx g) s = .next (s)) ∧
  (∀ (s : State) (g : Fin 4) (x n : BitVec 96) (low : Bool), s.supply ≠ .off → (s.fsideG g).running = true →
    (s.fsideG g).locked = true → (s.fioG g).down = some x → downGood (x ^^^ n) = true →
    ∃ t, exec (.fieldDownstreamRx g n low) s = .next t ∧ (∀ k < 4, bit (t.fsideG g).on k = downVote (x ^^^ n) k) ∧
    (t.fsideG g).gen = downVote (x ^^^ n) 4 ∧ (t.fsideG g).missing = 0 ∧
    ((t.fsideG g).genZero = if downVote (x ^^^ n) 4 = true then 0 else min 16 ((s.fsideG g).genZero + 1)) ∧
    (downVote (x ^^^ n) 4 = false → (t.fsideG g).gsw = false) ∧
    ((s.fsideG g).latch = true → (t.fsideG g).gsw = false) ∧
    (downVote (x ^^^ n) 4 = true → (s.fsideG g).latch = false → (s.fsideG g).gsw = false → (s.fsideG g).gswFlt = false
      → (t.fsideG g).gsw = low) ∧ (t.fsideG g).latch = (s.fsideG g).latch ∧ (t.fioG g).down = none ∧ t.regs = s.regs) ∧
  (∀ (s : State) (g : Fin 4) (x n : BitVec 96) (low : Bool), s.supply ≠ .off → (s.fsideG g).running = true →
    (s.fsideG g).locked = true → (s.fioG g).down = some x → downGood (x ^^^ n) = false → (s.fsideG g).missing = 1 →
    ∃ t, exec (.fieldDownstreamRx g n low) s = .next t ∧ (t.fsideG g).isOff ∧ (t.fsideG g).latch = true ∧
    (t.fsideG g).locked = false ∧ (t.fioG g).down = none) ∧
  (∀ (s : State) (g : Fin 4) (x n : BitVec 96) (low : Bool), s.supply ≠ .off → (s.fsideG g).running = true →
    (s.fsideG g).locked = true → (s.fioG g).down = some x → downGood (x ^^^ n) = false → (s.fsideG g).missing = 0 →
    ∃ t, exec (.fieldDownstreamRx g n low) s = .next t ∧ (t.fsideG g).missing = 1 ∧
    (t.fsideG g).bad = min 255 ((s.fsideG g).bad + 1) ∧ (t.fsideG g).on = (s.fsideG g).on ∧
    (t.fsideG g).gsw = (s.fsideG g).gsw ∧ (t.fsideG g).latch = (s.fsideG g).latch ∧ (t.fsideG g).locked = true ∧
    (t.fioG g).down = none) ∧
  (∀ (s : State) (g : Fin 4) (x n : BitVec 96) (low : Bool), s.supply ≠ .off → (s.fsideG g).running = true →
    (s.fsideG g).locked = false → (s.fioG g).down = some x → ∃ t, exec (.fieldDownstreamRx g n low) s = .next t ∧
    t.fsideG g =
      { s.fsideG g with lockRun := if downGood (x ^^^ n) = true then min 8 ((s.fsideG g).lockRun + 1) else 0 } ∧
    (t.fioG g).down = none) ∧
  (∀ (s : State) (g : Fin 4) (n : BitVec 96) (low : Bool), (s.supply = .off ∨ (s.fsideG g).running = false ∨ (s.fioG
      g).down = none) → exec (.fieldDownstreamRx g n low) s = .next (s)) ∧
  (∀ (s : State) (g : Fin 4), s.supply ≠ .off → (s.fsideG g).running = true → (s.fsideG g).locked = true →
    (s.fioG g).down = none → ∃ t, exec (.fieldDownstreamMissing g) s = .next t ∧ (t.fsideG g).isOff ∧
    (t.fsideG g).latch = true ∧ (t.fsideG g).locked = false ∧ (∀ f : Fin 4, f ≠ g → t.fsideG f = s.fsideG f) ∧
    t.fio = s.fio) ∧
  (∀ (s : State) (g : Fin 4), s.supply ≠ .off → (s.fsideG g).running = true → (s.fsideG g).locked = false →
    (s.fioG g).down = none → ∃ t, exec (.fieldDownstreamMissing g) s = .next t ∧
    t.fsideG g = { s.fsideG g with lockRun := 0 } ∧ t.fio = s.fio) ∧
  (∀ (s : State) (g : Fin 4), (s.supply = .off ∨ (s.fsideG g).running = false ∨ (s.fioG g).down ≠ none) →
    exec (.fieldDownstreamMissing g) s = .next (s)) ∧
  (∀ (s : State) (g : Fin 4), s.supply ≠ .off → (s.fsideG g).running = true → (s.fsideG g).rdy = true →
    16 ≤ (s.fsideG g).genZero → ∃ t, exec (.fieldLatchClear g) s = .next t ∧
    (t.fsideG g) = { s.fsideG g with latch := false, rst := false } ∧ t.fio = s.fio) ∧
  (∀ (s : State) (g : Fin 4), (s.supply = .off ∨ (s.fsideG g).running = false ∨ (s.fsideG g).rdy = false ∨ (s.fsideG
      g).genZero < 16) → exec (.fieldLatchClear g) s = .next (s)) ∧
  (∀ (s : State) (g : Fin 4) (p : FieldPins), s.supply ≠ .off → (s.fsideG g).running = true →
    ∃ t, exec (.fieldUpstreamTx g p) s = .next t ∧ (t.fioG g).up = some ((s.fsideG g).frame g p) ∧
    (t.fsideG g).upSeq = (s.fsideG g).upSeq + 1 ∧ upGood ((s.fsideG g).frame g p) = true ∧
    fld ((s.fsideG g).frame g p) 80 8 = (s.fsideG g).inp p ∧ t.regs = s.regs) ∧
  (∀ (s : State) (g : Fin 4) (p : FieldPins), (s.supply = .off ∨ (s.fsideG g).running = false) →
    exec (.fieldUpstreamTx g p) s = .next (s)) ∧
  (∀ (s : State) (g : Fin 4), s.linksOn = true → 8 ≤ (s.fioG g).lockRun →
    ∃ t, exec (.receiverLock g .logic) s = .next t ∧ t.fioG g = { s.fioG g with locked := true } ∧ t.fside = s.fside) ∧
  (∀ (s : State) (g : Fin 4), s.supply ≠ .off → (s.fsideG g).running = true → 8 ≤ (s.fsideG g).lockRun →
    ∃ t, exec (.receiverLock g .field) s = .next t ∧ t.fsideG g = { s.fsideG g with locked := true, missing := 0 } ∧
    t.fio = s.fio) ∧
  (∀ (s : State) (g : Fin 4) (e : LinkEnd), ((e = .logic ∧ (s.linksOn = false ∨ (s.fioG g).lockRun < 8)) ∨ (e =
      .field ∧ (s.supply = .off ∨ (s.fsideG g).running = false ∨ (s.fsideG g).lockRun < 8))) →
    exec (.receiverLock g e) s = .next (s))

/-- The upstream link on the logic side (R190, R192, R193, R204, R209, R211, R215). Where its conditions do not hold, a command
changes nothing; a frame that arrives while the links are off is only consumed. -/
def Obligations.UpstreamFramesAndLinkState : Prop :=
  (∀ (s : State) (g : Fin 4) (x n : BitVec 96) (c : FioCopy), s.linksOn = true → s.supply ≠ .off → s.quiet →
    (s.fioG g).cp = Vector.replicate 3 c → (s.fioG g).up = some x → upGood (x ^^^ n) = true →
    (s.fioG g).seqOk (x ^^^ n) = true → ((s.fioG g).accepted = false ∨ (s.fioG g).badRun < 2) →
    ∃ t, exec (.upstreamFrameRx g n) s = .next t ∧ (t.fioG g).up = none ∧ (t.fioG g).frame = x ^^^ n ∧
    (t.fioG g).badRun = 0 ∧ (t.fioG g).slots = 0 ∧ (t.fioG g).goodRun = min 64 ((s.fioG g).goodRun + 1) ∧
    (t.fioG g).lockRun = min 8 ((s.fioG g).lockRun + 1) ∧ (t.fioG g).accepted = (s.fioG g).accepted ∧
    Vec.at (t.fioG g).detail (fld (x ^^^ n) 88 4) 0 = BitVec.ofNat 16 (fld (x ^^^ n) 16 16)) ∧
  (∀ (s : State) (g : Fin 4) (x n : BitVec 96) (c : FioCopy), s.linksOn = true → s.supply ≠ .off → s.quiet →
    (s.fioG g).cp = Vector.replicate 3 c → (s.fioG g).up = some x → upGood (x ^^^ n) = true →
    (s.fioG g).seqOk (x ^^^ n) = true → (s.fioG g).accepted = true → 2 ≤ (s.fioG g).badRun →
    ∃ t, exec (.upstreamFrameRx g n) s = .next t ∧ (t.fioG g).up = none ∧ (t.fioG g).frame = x ^^^ n ∧
    (t.fioG g).accepted = false ∧ (t.fioG g).goodRun = 1 ∧ (t.fioG g).lockRun = 1 ∧
    (∀ l : Fin 3, (t.fioG g).cp[l].en = false)) ∧
  (∀ (s : State) (g : Fin 4) (x n : BitVec 96), s.linksOn = true → s.supply ≠ .off → (s.fioG g).up = some x →
    (upGood (x ^^^ n) && (s.fioG g).seqOk (x ^^^ n)) = false → ∃ t, exec (.upstreamFrameRx g n) s = .next t ∧
    (t.fioG g).up = none ∧ (t.fioG g).frame = (s.fioG g).frame ∧ (t.fioG g).cp = (s.fioG g).cp ∧
    (t.fioG g).goodRun = 0 ∧ (t.fioG g).badRun = min 2 ((s.fioG g).badRun + 1) ∧
    ((t.fioG g).lockRun = if upGood (x ^^^ n) = true then min 8 ((s.fioG g).lockRun + 1) else 0) ∧ t.pim = s.pim) ∧
  (∀ (s : State) (g : Fin 4) (n : BitVec 96), s.supply ≠ .off → s.linksOn = false → (s.fioG g).up ≠ none →
    exec (.upstreamFrameRx g n) s = .next (s.modFio g fun x => { x with up := none })) ∧
  (∀ (s : State) (g : Fin 4) (n : BitVec 96), (s.supply = .off ∨ (s.fioG g).up = none) →
    exec (.upstreamFrameRx g n) s = .next (s)) ∧
  (∀ (s : State) (g : Fin 4), s.linksOn = true → (s.fioG g).up = none → s.regsOk →
    ∃ t, exec (.upstreamFrameMissing g) s = .next t ∧ (t.fioG g).frame = (s.fioG g).frame ∧ (t.fioG g).goodRun = 0 ∧
    (t.fioG g).lockRun = 0 ∧ (t.fioG g).badRun = min 2 ((s.fioG g).badRun + 1) ∧
    (t.fioG g).slots = ((s.fioG g).slots + 1) % 16 ∧
    ((s.fioG g).locked = true ∨ (s.fioG g).accepted = true → t.rd (Reg.fioLinkcnt g) = satIncFld (s.rd (Reg.fioLinkcnt
      g)) 0 16) ∧ ((s.fioG g).locked = false → (s.fioG g).accepted = false → t.regs = s.regs) ∧
    (∀ a, a ≠ Reg.fioLinkcnt g → t.rd a = s.rd a) ∧ t.pim = s.pim) ∧
  (∀ (s : State) (g : Fin 4), (s.linksOn = false ∨ (s.fioG g).up ≠ none) →
    exec (.upstreamFrameMissing g) s = .next (s)) ∧
  (∀ (s : State) (g : Fin 4), s.linksOn = true → (s.fioG g).accepted = true → 2 ≤ (s.fioG g).badRun → s.regsOk →
    ∃ t, exec (.linkLoss g) s = .next t ∧ (t.fioG g).accepted = false ∧ (t.fioG g).locked = false ∧
    (∀ l : Fin 3, (t.fioG g).cp[l].en = false) ∧ t.rd (Reg.fioLinkcnt g) = satIncFld (s.rd (Reg.fioLinkcnt g)) 16 16 ∧
    bit (t.rd (0x10010 + 0x1000 * g)) 0 = true ∧ s.reports t (0x1001 + 0x100 * g) [0] ∧
    (∀ f : Fin 4, f ≠ g → t.fioG f = s.fioG f)) ∧
  (∀ (s : State) (g : Fin 4), (s.linksOn = false ∨ (s.fioG g).accepted = false ∨ (s.fioG g).badRun < 2) →
    exec (.linkLoss g) s = .next (s)) ∧
  (∀ (s : State) (g : Fin 4), s.linksOn = true → (s.fioG g).accepted = false → (s.fioG g).locked = true →
    64 ≤ (s.fioG g).goodRun → s.regsOk → ∃ t, exec (.linkAccept g) s = .next t ∧ (t.fioG g).accepted = true ∧
    (t.fioG g).ever = true ∧ (t.fioG g).cp = (s.fioG g).cp ∧ bit (t.rd (0x10010 + 0x1000 * g)) 1 = true ∧
    (∀ f : Fin 4, f ≠ g → t.fioG f = s.fioG f)) ∧
  (∀ (s : State) (g : Fin 4), (s.linksOn = false ∨ (s.fioG g).accepted = true ∨ (s.fioG g).locked = false ∨ (s.fioG
      g).goodRun < 64) → exec (.linkAccept g) s = .next (s)) ∧
  (∀ (s : State) (g : Fin 4) (k : Fin 8) (c : FioCopy), s.linksOn = true → s.quiet →
    (s.fioG g).cp = Vector.replicate 3 c → 0 < s.filtFrames g k → s.filtFrames g k ≤ c.fcnt[k] →
    s.filtHeld g k = false → ∃ t, exec (.inputFilterAccept g k) s = .next t ∧
    (t.fioG g).cp = Vector.replicate 3 { c with filt := setBit c.filt k (!bit c.filt k), fcnt := c.fcnt.set k 0 } ∧
    t.regs = s.regs ∧ t.mstate = s.mstate) ∧
  (∀ (s : State) (g : Fin 4) (k : Fin 8), (s.linksOn = false ∨ s.filtFrames g k = 0 ∨ s.filtHeld g k = true ∨ ∀ l :
      Fin 3, (s.fioG g).cp[l].fcnt[k] < s.filtFrames g k) → exec (.inputFilterAccept g k) s = .next (s)) ∧
  (∀ (s : State) (g : Fin 4), s.linksOn = true → (s.fioG g).accepted = true → (s.fioG g).clsRun = 32 → s.regsOk →
    ∃ t, exec (.classMismatch g) s = .next t ∧ (∀ l : Fin 3, (t.fioG g).cp[l].en = false) ∧
    (t.fioG g).latchFlt = true ∧ (t.fioG g).clsRun = 33 ∧ bit (t.rd (0x10010 + 0x1000 * g)) 9 = true ∧
    s.reports t (0x1009 + 0x100 * g) [0]) ∧
  (∀ (s : State) (g : Fin 4), (s.linksOn = false ∨ (s.fioG g).accepted = false ∨ (s.fioG g).clsRun ≠ 32) →
    exec (.classMismatch g) s = .next (s)) ∧
  (∀ (s : State) (g : Fin 4) (l : Fin 3), s.linksOn = true → (s.fioG g).accepted = true → (s.fioG g).vwRun[l] = 16 →
    s.safeLatch = false → s.lanes.counts l = true → ∃ t, exec (.laneWordInvalid g l) s = .next t ∧
    (t.fioG g).vwRun[l] = 17 ∧ s.reports t (0x100e + 0x100 * g) [wd l] ∧ t.fside = s.fside ∧ t.pim = s.pim) ∧
  (∀ (s : State) (g : Fin 4) (l : Fin 3), (s.linksOn = false ∨ (s.fioG g).accepted = false ∨ (s.fioG g).vwRun[l] ≠ 16
      ∨ s.lanes.counts l = false ∨ s.safeLatch = true) → exec (.laneWordInvalid g l) s = .next (s))

/-- Test sources (R194, R195) and output test pulses (R200 to R203). Where its conditions do not hold, a command changes nothing. -/
def Obligations.TestPulsesAndSources : Prop :=
  (∀ (s : State) (g : Fin 4) (j : Fin 2), s.linksOn = true → s.mstate ≠ .safe →
    bit (s.rd (Reg.fioTscfg g)) (30 + j) = true → (∀ i : Fin 2, (s.fioG g).ts[i].active = none) →
    (s.fioG g).ts[j].next ≤ s.now → ∃ t, exec (.testSourcePulseStart g j) s = .next t ∧
    (t.fioG g).ts[j].active = some s.now ∧ (s.now < (t.fioG g).ts[j].next ∨ s.tsInt g = 0) ∧
    (j = 0 → (t.fioG g).ts[1].next = s.now + s.tsInt g / 2) ∧ (∀ l : Fin 3, bit (t.fioG g).cp[l].tsSeen j = false) ∧
    t.regs = s.regs ∧ t.pim = s.pim) ∧
  (∀ (s : State) (g : Fin 4) (j : Fin 2), (s.linksOn = false ∨ s.mstate = .safe ∨ bit (s.rd (Reg.fioTscfg g)) (30 +
      j) = false ∨ (∃ i : Fin 2, (s.fioG g).ts[i].active ≠ none) ∨ s.now < (s.fioG g).ts[j].next) →
    exec (.testSourcePulseStart g j) s = .next (s)) ∧
  (∀ (s : State) (g : Fin 4) (j : Fin 2) (u : Nat) (c : FioCopy), s.linksOn = true → s.quiet →
    (s.fioG g).cp = Vector.replicate 3 c → (s.fioG g).ts[j].active = some u → u + s.tsWidth g ≤ s.now →
    ∃ t, exec (.testSourcePulseEnd g j) s = .next t ∧ (t.fioG g).ts[j].active = none ∧
    (t.fioG g).ts[j].hold = s.now + 20000 ∧
    (∀ l : Fin 3, ∀ k : Fin 8, s.inSrc g k ≠ j.val + 1 → bit (t.fioG g).cp[l].good k = bit c.good k) ∧
    (∀ l : Fin 3, ∀ k : Fin 8, s.inSrc g k = j.val + 1 → (s.fioG g).accepted = true → bit c.tsSeen j = true → bit
      c.tsZero k = false → bit (t.fioG g).cp[l].good k = false) ∧
    (∀ l : Fin 3, ∀ k : Fin 8, bit c.tsZero k = true → bit c.good k = true → bit (t.fioG g).cp[l].good k = true)) ∧
  (∀ (s : State) (g : Fin 4) (j : Fin 2), (s.linksOn = false ∨ (s.fioG g).ts[j].active = none ∨ ∀ u, (s.fioG
      g).ts[j].active = some u → s.now < u + s.tsWidth g) → exec (.testSourcePulseEnd g j) s = .next (s)) ∧
  (∀ (s : State) (g : Fin 4) (f : Byte), s.supply ≠ .off → (s.fsideG g).running = true →
    ∃ t, exec (.comparatorTest g f) s = .next t ∧ t.fsideG g = { s.fsideG g with cmp := f } ∧ t.fio = s.fio) ∧
  (∀ (s : State) (g : Fin 4) (f : Byte), (s.supply = .off ∨ (s.fsideG g).running = false) →
    exec (.comparatorTest g f) s = .next (s)) ∧
  (∀ (s : State) (g k : Fin 4), s.reflexOn = true → (s.tpDue g k = true ∨ (s.fioG g).tp[k].req = true) →
    s.fioOuten g k = true → (s.fioG g).tp[k].active = none → s.outOn g k = true → s.tpTurn g k = true →
    ∃ t, exec (.testPulseStart g k) s = .next t ∧
    (t.fioG g).tp[k].active = some (s.now, s.now + ceilDiv (s.tpWidth g k) 160 * 160) ∧ (t.fioG g).tp[k].req = false ∧
    (∀ j : Fin 4, j.val = k.val + 1 → k.val % 2 = 0 → s.fioPair g (k / 2) = true → (t.fioG g).tp[j].next = s.now +
      s.tpInt g k / 2) ∧ t.regs = s.regs ∧ t.lanes = s.lanes) ∧
  (∀ (s : State) (g k : Fin 4), (s.reflexOn = false ∨ (s.tpDue g k = false ∧ (s.fioG g).tp[k].req = false) ∨
      s.fioOuten g k = false ∨ (s.fioG g).tp[k].active ≠ none ∨ s.outOn g k = false ∨ s.tpTurn g k = false) →
    exec (.testPulseStart g k) s = .next (s)) ∧
  (∀ (s : State) (g k : Fin 4) (a b : Nat), s.linksOn = true → (s.fioG g).tp[k].active = some (a, b) → b ≤ s.now →
    (s.fioG g).accepted = true → (s.fioG g).tp[k].passed = true → ∃ t, exec (.testPulseEnd g k) s = .next t ∧
    (t.fioG g).tp[k].active = none ∧ (t.fioG g).tp[k].tested = s.now ∧ (t.fioG g).tp[k].next = s.now + s.tpInt g k ∧
    (t.fioG g).tp[k].failed = false ∧ (t.fioG g).tp[k].owed = false ∧ (t.fioG g).cp = (s.fioG g).cp ∧
    t.regs = s.regs) ∧
  (∀ (s : State) (g k : Fin 4) (a b : Nat), s.linksOn = true → (s.fioG g).tp[k].active = some (a, b) → b ≤ s.now →
    (s.fioG g).accepted = true → (s.fioG g).tp[k].passed = false → s.regsOk →
    ∃ t, exec (.testPulseEnd g k) s = .next t ∧ (t.fioG g).tp[k].active = none ∧ (t.fioG g).tp[k].failed = true ∧
    (∀ l : Fin 3, (t.fioG g).cp[l].en = false) ∧ bit (t.rd (0x10010 + 0x1000 * g)) 6 = true ∧
    bit (t.rd (0x10010 + 0x1000 * g)) 8 = true ∧ s.reports t (0x1005 + 0x100 * g) [wd k]) ∧
  (∀ (s : State) (g k : Fin 4) (a b : Nat), s.linksOn = true → (s.fioG g).tp[k].active = some (a, b) → b ≤ s.now →
    (s.fioG g).accepted = false → ∃ t, exec (.testPulseEnd g k) s = .next t ∧ (t.fioG g).tp[k].active = none ∧
    (t.fioG g).tp[k].next ≤ s.now ∧ (t.fioG g).tp[k].owed = true ∧ (t.fioG g).cp = (s.fioG g).cp ∧ t.regs = s.regs) ∧
  (∀ (s : State) (g k : Fin 4), (s.linksOn = false ∨ (s.fioG g).tp[k].active = none ∨ ∀ a b, (s.fioG g).tp[k].active
      = some (a, b) → s.now < b) → exec (.testPulseEnd g k) s = .next (s)) ∧
  (∀ (s : State) (g : Fin 4) (v : Word), s.booted = true → s.sealRo (0x10 + g) = false →
    ∃ t, exec (.testPulseRequest .pf0 g v) s = .next t ∧
    (∀ k : Fin 4, (t.fioG g).tp[k].req = ((s.fioG g).tp[k].req || (bit v k && s.fioOuten g k))) ∧
    (∀ k : Fin 4, (t.fioG g).tp[k].active = (s.fioG g).tp[k].active) ∧ t.regs = s.regs) ∧
  (∀ (s : State) (pf : Pf) (g : Fin 4) (v : Word), s.booted = true → (pf = .pf1 ∨ s.sealRo (0x10 + g) = true) →
    exec (.testPulseRequest pf g v) s = .next (s.refuse (0x10 + g))) ∧
  (∀ (s : State) (pf : Pf) (g : Fin 4) (v : Word), s.booted = false → exec (.testPulseRequest pf g v) s = .next (s))

/-- The output judgements (R197, R199, R200) and the field supply (R213, R214, R217). Where its conditions do not hold, a command
changes nothing. -/
def Obligations.OutputFaultsAndFieldSupply : Prop :=
  (∀ (s : State) (g : Fin 4) (k : Fin 4), s.linksOn = true → (s.fioG g).accepted = true →
    (s.fioG g).stuck[k].ripe s.now 2000000 = true → s.regsOk → ∃ t, exec (.outputStuckOn g k) s = .next t ∧
    (∀ l : Fin 3, (t.fioG g).cp[l].en = false) ∧ (t.fioG g).stuck[k] = .told ∧ (t.fioG g).latchFlt = true ∧
    bit (t.rd (0x10010 + 0x1000 * g)) 6 = true ∧ s.reports t (0x1005 + 0x100 * g) [wd k]) ∧
  (∀ (s : State) (g : Fin 4) (k : Fin 4), (s.linksOn = false ∨ (s.fioG g).accepted = false ∨ (s.fioG g).stuck[k].ripe
      s.now 2000000 = false) → exec (.outputStuckOn g k) s = .next (s)) ∧
  (∀ (s : State) (g : Fin 4) (k : Fin 4), s.linksOn = true → (s.fioG g).accepted = true →
    (s.fioG g).short[k].ripe s.now 2000000 = true → s.regsOk → ∃ t, exec (.outputShort g k) s = .next t ∧
    (t.fioG g).cp = (s.fioG g).cp ∧ (t.fioG g).short[k] = .told ∧ bit (t.rd (0x10010 + 0x1000 * g)) 6 = true ∧
    s.reports t (0x1006 + 0x100 * g) [wd k] ∧ t.pim = s.pim) ∧
  (∀ (s : State) (g : Fin 4) (k : Fin 4), (s.linksOn = false ∨ (s.fioG g).accepted = false ∨ (s.fioG g).short[k].ripe
      s.now 2000000 = false) → exec (.outputShort g k) s = .next (s)) ∧
  (∀ (s : State) (g : Fin 4) (k : Fin 4), s.linksOn = true → (s.fioG g).accepted = true →
    (s.fioG g).openLd[k].ripe s.now 100000000 = true → s.regsOk → ∃ t, exec (.openLoad g k) s = .next t ∧
    (t.fioG g).cp = (s.fioG g).cp ∧ (t.fioG g).openLd[k] = .told ∧ bit (t.rd (0x10010 + 0x1000 * g)) 6 = true ∧
    s.reports t (0x1007 + 0x100 * g) [wd k] ∧ t.pim = s.pim) ∧
  (∀ (s : State) (g : Fin 4) (k : Fin 4), (s.linksOn = false ∨ (s.fioG g).accepted = false ∨ (s.fioG
      g).openLd[k].ripe s.now 100000000 = false) → exec (.openLoad g k) s = .next (s)) ∧
  (∀ (s : State) (g : Fin 4) (q : Fin 2), s.linksOn = true → (s.fioG g).accepted = true →
    (s.fioG g).pair[q].ripe s.now 2000000 = true → s.regsOk → ∃ t, exec (.pairDiscrepancy g q) s = .next t ∧
    (∀ l : Fin 3, (t.fioG g).cp[l].en = false) ∧ (t.fioG g).pair[q] = .told ∧
    bit (t.rd (0x10010 + 0x1000 * g)) 10 = true ∧ s.reports t (0x100d + 0x100 * g) [wd (2 * q)]) ∧
  (∀ (s : State) (g : Fin 4) (q : Fin 2), (s.linksOn = false ∨ (s.fioG g).accepted = false ∨ (s.fioG g).pair[q].ripe
      s.now 2000000 = false) → exec (.pairDiscrepancy g q) s = .next (s)) ∧
  (∀ (s : State) (g k : Fin 4) (hot : Bool), s.supply ≠ .off → (s.fsideG g).running = true →
    (s.fsideG g).gate k = true → ∃ t, exec (.outputTrip g k hot) s = .next t ∧ (t.fsideG g).gate k = false ∧
    (bit (s.fsideG g).cfg1 (k / 2) = true → ∀ j : Fin 4, j.val / 2 = k.val / 2 → (t.fsideG g).gate j = false) ∧
    (∀ j : Fin 4, j.val / 2 ≠ k.val / 2 → (t.fsideG g).gate j = (s.fsideG g).gate j) ∧
    bit (if hot = true then (t.fsideG g).ovt else (t.fsideG g).ovc) k = true ∧ (t.fsideG g).on = (s.fsideG g).on ∧
    t.fio = s.fio) ∧
  (∀ (s : State) (g k : Fin 4) (hot : Bool), (s.supply = .off ∨ (s.fsideG g).running = false ∨ (s.fsideG g).gate k =
      false) → exec (.outputTrip g k hot) s = .next (s)) ∧
  (∀ (s : State) (g : Fin 4) (mv : Nat) (x : BitVec 2), s.supply ≠ .off → (s.fsideG g).running = true →
    (vClass (bit (s.fsideG g).cfg0 0)).sup (s.fsideG g).sup.toNat mv = x →
    ∃ t, exec (.supplyThresholdCross g mv) s = .next t ∧ (t.fsideG g).lplus = mv ∧ (t.fsideG g).sup = x ∧
    (t.fsideG g).rdy = ((s.fsideG g).rdy && decide (x.toNat < 2)) ∧
    ((t.fsideG g).cutAt = if x = 3 then some ((s.fsideG g).cutAt.getD s.now) else none) ∧
    ((t.fsideG g).validAt = if x.toNat < 2 then some ((s.fsideG g).validAt.getD s.now) else none) ∧
    (t.fsideG g).on = (s.fsideG g).on ∧ t.fio = s.fio) ∧
  (∀ (s : State) (g : Fin 4) (mv : Nat), (s.supply = .off ∨ (s.fsideG g).running = false) →
    exec (.supplyThresholdCross g mv) s = .next (s)) ∧
  (∀ (s : State) (g : Fin 4) (u : Nat), s.supply ≠ .off → (s.fsideG g).running = true → (s.fsideG g).cutAt = some u →
    u + 2000000 ≤ s.now → ∃ t, exec (.supplyCutoff g) s = .next t ∧ (t.fsideG g).isOff ∧ (t.fsideG g).latch = true ∧
    t.fio = s.fio) ∧
  (∀ (s : State) (g : Fin 4), (s.supply = .off ∨ (s.fsideG g).running = false ∨ (s.fsideG g).cutAt = none ∨ ∀ u,
      (s.fsideG g).cutAt = some u → s.now < u + 2000000) → exec (.supplyCutoff g) s = .next (s)) ∧
  (∀ (s : State) (g : Fin 4) (u : Nat), s.supply ≠ .off → (s.fsideG g).running = true →
    (s.fsideG g).validAt = some u → u + 10000000 ≤ s.now → ∃ t, exec (.supplyReady g) s = .next t ∧
    t.fsideG g = { s.fsideG g with rdy := true } ∧ t.fio = s.fio) ∧
  (∀ (s : State) (g : Fin 4), (s.supply = .off ∨ (s.fsideG g).running = false ∨ (s.fsideG g).validAt = none ∨ ∀ u,
      (s.fsideG g).validAt = some u → s.now < u + 10000000) → exec (.supplyReady g) s = .next (s)) ∧
  (∀ (s : State) (g : Fin 4), s.supply ≠ .off → ∃ t, exec (.fieldSideReset g) s = .next t ∧ (t.fsideG g).isOff ∧
    (t.fsideG g).latch = true ∧ (t.fsideG g).rst = true ∧ (t.fsideG g).running = false ∧ t.fio = s.fio) ∧
  (∀ (s : State) (g : Fin 4), s.supply = .off → exec (.fieldSideReset g) s = .next (s)) ∧
  (∀ (s : State) (g : Fin 4), s.supply ≠ .off → (s.fsideG g).running = false →
    ∃ t, exec (.fieldSideRestart g) s = .next t ∧ (t.fsideG g).running = true ∧ (t.fsideG g).isOff ∧
    (t.fsideG g).latch = true ∧ (t.fsideG g).rst = true ∧ (t.fsideG g).rdy = false ∧
    (t.fsideG g).lplus = (s.fsideG g).lplus ∧ t.fio = s.fio) ∧
  (∀ (s : State) (g : Fin 4), (s.supply = .off ∨ (s.fsideG g).running = true) →
    exec (.fieldSideRestart g) s = .next (s))

/-- The reflex matrix, copy by copy (R225, R231 to R235). Where its conditions do not hold, a command changes nothing. -/
def Obligations.ReflexRulesLatchAndRelease : Prop :=
  (∀ (s : State), s.reflexOn = true → s.quiet → s.copiesAlike →
    ∃ t, exec (.reflexEvaluate CopyUpset.none) s = .next t ∧
    (∀ l : Fin 3, ∀ r : Fin 64, s.condOf l r = true → (t.rule l r).latch = true ∧ (t.rule l r).cond = true) ∧
    (∀ l : Fin 3, ∀ r : Fin 64, s.condOf l r = false → (s.rule l r).latch = false → (t.rule l r).latch = false) ∧
    (∀ l : Fin 3, ∀ r : Fin 64, s.condOf l r = false → fld (s.rrst r) 0 2 = 0 → s.gtest r = false ∨ (s.rule l r).tested
      = true → (t.rule l r).latch = false) ∧
    (∀ l : Fin 3, ∀ r : Fin 64, (s.rule l r).tested = true → (t.rule l r).tested = true) ∧ t.pim = s.pim ∧
    t.fio = s.fio ∧ t.fside = s.fside ∧ t.lanes.held = 0 ∧ t.mstate = s.mstate ∧ t.safeLatch = false) ∧
  (∀ (s : State) (u : CopyUpset), s.reflexOn = false → exec (.reflexEvaluate u) s = .next (s)) ∧
  (∀ (s : State) (l : Fin 3) (r : Fin 64) (i : Nat), (s.rule l r).latch = true → i < 16 → bit (s.ract r) i = true →
    bit (s.deoff l) i = true) ∧
  (∀ (s : State) (r : Fin 64), s.reflexOn = true → fld (s.rrst r) 0 2 ≠ 0 →
    (∀ l : Fin 3, (s.resetIn l r).2 = true ∧ (s.rule l r).pressed = true ∧ (s.rule l r).stuck = false ∧ s.overRstmax
      (s.rule l r) = true) → s.regsOk → ∃ t, exec (.resetButtonStuck r) s = .next t ∧
    (∀ l : Fin 3, (t.rule l r).stuck = true ∧ (t.rule l r).armed = false ∧ (t.rule l r).latch = (s.rule l r).latch) ∧
    bit (t.rd 0x14010) 2 = true ∧ s.reports t 0x1401 [wd r] ∧ t.pim = s.pim) ∧
  (∀ (s : State) (r : Fin 64), (s.reflexOn = false ∨ fld (s.rrst r) 0 2 = 0 ∨ ∀ l : Fin 3, (s.resetIn l r).2 = false
      ∨ (s.rule l r).pressed = false ∨ (s.rule l r).stuck = true ∨ s.overRstmax (s.rule l r) = false) →
    exec (.resetButtonStuck r) s = .next (s))

/-- Axis counting, SSI, input agreement and axis faults (R169, R170, R243 to R247). Where its conditions do not hold, a command
changes nothing. -/
def Obligations.AxesCountAndAgree : Prop :=
  (∀ (l : Lanes) (a b c : Word), l.held = 0 →
    ((l.agree a b c).1 = a ∨ (l.agree a b c).1 = b ∨ (l.agree a b c).1 = c) ∧
    bit (l.agree a b c).2 0 = decide (2 < (sfld (a - (l.agree a b c).1) 0 32).natAbs) ∧
    bit (l.agree a b c).2 1 = decide (2 < (sfld (b - (l.agree a b c).1) 0 32).natAbs) ∧
    bit (l.agree a b c).2 2 = decide (2 < (sfld (c - (l.agree a b c).1) 0 32).natAbs) ∧
    (a = b → (l.agree a b c).1 = a) ∧ (a = c → (l.agree a b c).1 = a) ∧ (b = c → (l.agree a b c).1 = b)) ∧
  (∀ (s : State) (e : Nat), s.booted = true → s.quiet → e = s.now / 1000 * 1000 → s.mot.epoch < e → e + 200 ≤ s.now →
    s.pimc.retry = none → s.triggersBy e = false → ∃ t, exec (.agreementEpoch WriteUpset.none) s = .next t ∧
    t.mot.epoch = e ∧
    (∀ a : Fin 12, (t.axis a).now = (s.lanes.agree ((s.axis a).lanesAt e)[0].cnt ((s.axis a).lanesAt e)[1].cnt ((s.axis
      a).lanesAt e)[2].cnt).1) ∧
    (∀ a : Fin 12, (t.axis a).zpos = (s.lanes.agree ((s.axis a).lanesAt e)[0].zpos ((s.axis a).lanesAt e)[1].zpos
      ((s.axis a).lanesAt e)[2].zpos).1) ∧
    (∀ a : Fin 12, (t.axis a).zcnt = (s.lanes.agree ((s.axis a).lanesAt e)[0].zcnt ((s.axis a).lanesAt e)[1].zcnt
      ((s.axis a).lanesAt e)[2].zcnt).1) ∧
    (∀ a : Fin 12, (t.axis a).ill = (s.lanes.agree ((s.axis a).lanesAt e)[0].ill ((s.axis a).lanesAt e)[1].ill ((s.axis
      a).lanesAt e)[2].ill).1) ∧ (∀ a : Fin 12, (t.axis a).prev = (s.axis a).now ∧ (t.axis a).lane = (s.axis a).lane) ∧
    (∀ a : Fin 12, (t.axis a).ill ≠ (s.axis a).ill → 0 ≤ sfld ((t.axis a).ill - (s.axis a).ill) 0 32 → (t.axis a).fault
      = true) ∧ (∀ a : Fin 12, (t.axis a).ill = (s.axis a).ill → (t.axis a).fault = (s.axis a).fault) ∧
    t.mot.smos = s.mot.smos ∧ t.mstate = s.mstate) ∧
  (∀ (s : State) (u : WriteUpset), (s.booted = false ∨ s.now / 1000 * 1000 ≤ s.mot.epoch ∨ s.now % 1000 < 200 ∨
      s.pimc.retry ≠ none ∨ s.triggersBy (s.now / 1000 * 1000) = true) → exec (.agreementEpoch u) s = .next (s)) ∧
  (∀ (s : State) (l : Fin 3), s.booted = true → s.lanes.held = 0 → s.lanes.oddLog = [] → 16 ≤ s.lanes.devCnt[l] →
    (∀ m : Fin 3, m ≠ l → s.lanes.devCnt[m] < 16) → s.regsOk → ∃ t, exec .inputAgreementOdd s = .next t ∧
    t.lanes.held = BitVec.ofNat 3 (2 ^ l.val) ∧ t.rd Reg.voteLastodd = wd (l.val + 5 * 16 + 0x80000000) ∧
    t.lanes.devCnt[l] = 0 ∧ t.mstate = s.mstate ∧ t.pim = s.pim) ∧
  (∀ (s : State), s.booted = true → s.safeLatch = false → s.lanes.held = 0 →
    (∃ i j : Fin 3, i ≠ j ∧ 16 ≤ s.lanes.devCnt[i] ∧ 16 ≤ s.lanes.devCnt[j]) →
    ∃ t, exec .inputAgreementOdd s = .next t ∧ t.mstate = .safe ∧ t.safeLatch = true) ∧
  (∀ (s : State), (s.booted = false ∨ ∀ i : Fin 3, s.lanes.counts i = true → s.lanes.devCnt[i] < 16) →
    exec .inputAgreementOdd s = .next (s)) ∧
  (∀ (s : State) (a : Fin 12) (m : BitVec 3) (pa pb : Bool), s.booted = true → s.axMode a ∈ [1, 4, 5] →
    ∃ t, exec (.axisEdge a m pa pb) s = .next t ∧
    (∀ i : Fin 3, bit m i = true → (t.axis a).lane[i].cnt = (s.axis a).lane[i].cnt + wi ((if s.axInv a then -1 else 1)
      * (edgeStep (s.axMode a) (s.axis a).lane[i] pa pb).1) ∧ (t.axis a).lane[i].a = pa ∧ (t.axis a).lane[i].b = pb) ∧
    (∀ i : Fin 3, bit m i = true → (t.axis a).lane[i].ill = (s.axis a).lane[i].ill + (if s.axMode a = 1 ∧ (s.axis
      a).lane[i].a ≠ pa ∧ (s.axis a).lane[i].b ≠ pb then 1 else 0)) ∧
    (∀ i : Fin 3, bit m i = false → (t.axis a).lane[i] = (s.axis a).lane[i]) ∧ (t.axis a).fault = (s.axis a).fault ∧
    (t.axis a).now = (s.axis a).now ∧ (∀ b : Fin 12, b ≠ a → t.axis b = s.axis b) ∧ t.regs = s.regs) ∧
  (∀ (s : State) (a : Fin 12) (m : BitVec 3) (pa pb : Bool), (s.booted = false ∨ s.axMode a ∉ [1, 4, 5]) →
    exec (.axisEdge a m pa pb) s = .next (s)) ∧
  (∀ (s : State) (a : Fin 12) (m : BitVec 3), s.booted = true → s.axMode a = 1 → s.axZen a = true →
    ∃ t, exec (.zMark a m) s = .next t ∧
    (∀ i : Fin 3, (t.axis a).lane[i].zpos = if bit m i then (s.axis a).lane[i].cnt else (s.axis a).lane[i].zpos) ∧
    (∀ i : Fin 3, (t.axis a).lane[i].zcnt = if bit m i then (s.axis a).lane[i].zcnt + 1 else (s.axis a).lane[i].zcnt) ∧
    (∀ i : Fin 3, (t.axis a).lane[i].cnt = (s.axis a).lane[i].cnt) ∧ t.regs = s.regs) ∧
  (∀ (s : State) (a : Fin 12) (m : BitVec 3), (s.booted = false ∨ s.axMode a ≠ 1 ∨ s.axZen a = false) →
    exec (.zMark a m) s = .next (s)) ∧
  (∀ (s : State) (a : Fin 12), s.booted = true → s.axMode a = 2 →
    (s.axis a).ssiDue ≤ s.now / s.ssiPer a * s.ssiPer a → (s.axis a).ssiBusy = false →
    ∃ t, exec (.ssiFrameStart a false) s = .next t ∧ (t.axis a).ssiBusy = true ∧
    (t.axis a).ssiDue = s.now / s.ssiPer a * s.ssiPer a + s.ssiPer a ∧ (t.axis a).fault = (s.axis a).fault ∧
    (t.axis a).lane = (s.axis a).lane ∧ t.regs = s.regs) ∧
  (∀ (s : State) (a : Fin 12) (low : Bool), s.booted = true → s.axMode a = 2 →
    (s.axis a).ssiDue ≤ s.now / s.ssiPer a * s.ssiPer a → ((s.axis a).ssiBusy = true ∨ low = true) → s.regsOk →
    ∃ t, exec (.ssiFrameStart a low) s = .next t ∧ (t.axis a).ssiBusy = !low ∧
    (t.axis a).ssiDue = s.now / s.ssiPer a * s.ssiPer a + s.ssiPer a ∧ (t.axis a).fault = true ∧
    t.rd (Reg.axsErrcnt (a / 6) (a % 6)) = satIncFld (s.rd (Reg.axsErrcnt (a / 6) (a % 6))) 16 16) ∧
  (∀ (s : State) (a : Fin 12) (low : Bool), (s.booted = false ∨ s.axMode a ≠ 2 ∨ s.now / s.ssiPer a * s.ssiPer a <
      (s.axis a).ssiDue) → exec (.ssiFrameStart a low) s = .next (s)) ∧
  (∀ (s : State) (a : Fin 12) (ra rb rc : Word) (err : Bool) (n : Nat) (x : Fin 3 → Nat), s.booted = true →
    s.axMode a = 2 → (s.axis a).ssiBusy = true → fld (s.ssicfg a) 0 6 = n →
    (bit (s.ssicfg a) 21 = false ∨ err = false) →
    (∀ i : Fin 3, x i = if bit (s.ssicfg a) 20 then grayValue (#v[ra, rb, rc][i].toNat % 2 ^ n) n else #v[ra, rb,
      rc][i].toNat % 2 ^ n) → ∃ t, exec (.ssiFrameEnd a ra err true rb rc) s = .next t ∧ (t.axis a).ssiBusy = false ∧
    (t.axis a).ssiHave = true ∧ (∀ i : Fin 3, (t.axis a).lane[i].raw = wd (x i)) ∧
    (∀ i : Fin 3, (t.axis a).lane[i].cnt = if (s.axis a).ssiHave then (s.axis a).lane[i].cnt + wi ((if s.axInv a then
      -1 else 1) * ssiStep (s.axis a).lane[i].raw.toNat (x i) n) else wi ((if s.axInv a then -1 else 1) * x i)) ∧
    t.regs = s.regs) ∧
  (∀ (s : State) (a : Fin 12) (ra rb rc : Word) (err ok : Bool), s.booted = true → s.axMode a = 2 →
    (s.axis a).ssiBusy = true → (ok = false ∨ (err = true ∧ bit (s.ssicfg a) 21 = true)) → s.regsOk →
    ∃ t, exec (.ssiFrameEnd a ra err ok rb rc) s = .next t ∧ (t.axis a).ssiBusy = false ∧ (t.axis a).fault = true ∧
    (t.axis a).lane = (s.axis a).lane ∧
    t.rd (Reg.axsErrcnt (a / 6) (a % 6)) = satIncFld (s.rd (Reg.axsErrcnt (a / 6) (a % 6))) 16 16) ∧
  (∀ (s : State) (a : Fin 12) (ra rb rc : Word) (err ok : Bool), (s.booted = false ∨ s.axMode a ≠ 2 ∨ (s.axis
      a).ssiBusy = false) → exec (.ssiFrameEnd a ra err ok rb rc) s = .next (s)) ∧
  (∀ (s : State) (a : Fin 12), s.booted = true → s.axMode a ≠ 0 → (s.axis a).lineflt = false →
    (s.axis a).fault = false → s.regsOk → ∃ t, exec (.lineFault a true) s = .next t ∧ (t.axis a).fault = true ∧
    (t.axis a).lineflt = true ∧ (t.axis a).refd = false ∧ (t.axis a).faultAt = s.now ∧
    bit (t.rd (0x15010 + 0x1000 * (a / 6))) (a % 6) = true ∧ s.reports t (0x1501 + 0x100 * (a / 6)) [wd a] ∧
    t.pim = s.pim) ∧
  (∀ (s : State) (a : Fin 12), s.booted = true → s.axMode a ≠ 0 → (s.axis a).lineflt = true →
    ∃ t, exec (.lineFault a true) s = .next t ∧ (t.axis a).fault = true ∧ (t.axis a).lineflt = true ∧
    (t.axis a).refd = false ∧ (t.axis a).faultAt = s.now ∧ t.sett = s.sett ∧ t.pim = s.pim) ∧
  (∀ (s : State) (a : Fin 12), s.booted = true → s.axMode a ≠ 0 → (s.axis a).lineflt = true →
    ∃ t, exec (.lineFault a false) s = .next t ∧ t.axis a = { s.axis a with lineflt := false, faultAt := s.now } ∧
    t.regs = s.regs) ∧
  (∀ (s : State) (a : Fin 12) (bad : Bool), (s.booted = false ∨ s.axMode a = 0 ∨ (bad = false ∧ (s.axis a).lineflt =
      false)) → exec (.lineFault a bad) s = .next (s)) ∧
  (∀ (s : State) (a : Fin 12), s.booted = true → (s.axis a).fault = true → (s.axis a).lineflt = false →
    (s.axis a).faultAt + 10000000 ≤ s.now → ∃ t, exec (.axisFaultClear a) s = .next t ∧ (t.axis a).fault = false ∧
    (t.axis a).now = (s.axis a).now ∧
    (∀ m : Fin 24, s.monEn m = true → s.monAxis m = a → (t.smo m).fill = true ∧ (t.smo m).win = []) ∧
    (∀ m : Fin 24, s.monAxis m ≠ a → t.smo m = s.smo m) ∧ t.regs = s.regs) ∧
  (∀ (s : State) (a : Fin 12), (s.booted = false ∨ (s.axis a).fault = false ∨ (s.axis a).lineflt = true ∨ s.now <
      (s.axis a).faultAt + 10000000) → exec (.axisFaultClear a) s = .next (s))

/-- Compare slots (R252, R253), presets (R250) and safe-motion monitors (R257 to R259). Where its conditions do not hold, a command
changes nothing. -/
def Obligations.SlotsPresetsAndMonitors : Prop :=
  (∀ (s : State), s.reflexOn = true → s.mot.slotAt < s.mot.epoch → s.mot.epoch + 200 ≤ s.now →
    (∀ a : Fin 12, ∀ k : Fin 8, ((s.axis a).slot k).arm.armed = false ∧ ((s.axis a).slot k).before = none) →
    ∃ t, exec .slotEvaluate s = .next t ∧ t.mot = { s.mot with slotAt := s.mot.epoch } ∧ t.regs = s.regs ∧
    t.pins = s.pins ∧ t.eng = s.eng) ∧
  (∀ (s : State), (s.reflexOn = false ∨ s.mot.epoch ≤ s.mot.slotAt ∨ s.now < s.mot.epoch + 200) →
    exec .slotEvaluate s = .next (s)) ∧
  (∀ (s : State) (a : Fin 12) (k : Fin 8) (e : Nat), ((s.axis a).slot k).before = none →
    ((s.axis a).slot k).arm.armed = true → ((s.axis a).slot k).arm.back = none →
    bit ((s.axis a).slot k).arm.mode 0 = true → sfld ((s.axis a).prev - ((s.axis a).slot k).arm.p) 0 32 < 0 →
    0 ≤ sfld ((s.axis a).now - ((s.axis a).slot k).arm.p) 0 32 →
    (((s.slotEval a e k).axis a).slot k).fires = ((s.axis a).slot k).fires + 1 ∧
    (((s.slotEval a e k).axis a).slot k).fired = true ∧
    (((s.slotEval a e k).axis a).slot k).arm.armed = bit ((s.axis a).slot k).arm.mode 5 ∧
    (∀ b : Fin 12, b ≠ a → (s.slotEval a e k).axis b = s.axis b)) ∧
  (∀ (s : State) (a : Fin 12) (v b : Word) (tc : Nat), s.booted = true → (s.axis a).preset = some (v, tc, some b) →
    tc + 1000 ≤ s.mot.epoch → s.axMode a ≠ 2 → (s.axis a).fault = false →
    (s.axRefd a = false ∨ s.slpWatches a = false) → ∃ t, exec (.presetApply a) s = .next t ∧
    (t.axis a).now = (s.axis a).now + (v - b) ∧ (t.axis a).prev = (s.axis a).prev + (v - b) ∧
    (∀ i : Fin 3, (t.axis a).lane[i].cnt = (s.axis a).lane[i].cnt + (v - b)) ∧ (t.axis a).refd = true ∧
    (t.axis a).preset = none ∧
    (∀ m : Fin 24, s.monEn m = true → s.monAxis m = a → (t.smo m).ref = (s.smo m).ref + (v - b) ∧ (t.smo m).v = (s.smo
      m).v) ∧ t.regs = s.regs) ∧
  (∀ (s : State) (a : Fin 12) (v b : Word) (tc : Nat), s.booted = true → (s.axis a).preset = some (v, tc, some b) →
    tc + 1000 ≤ s.mot.epoch →
    (s.axMode a = 2 ∨ (s.axis a).fault = true ∨ (s.axRefd a = true ∧ s.slpWatches a = true)) → s.regsOk →
    ∃ t, exec (.presetApply a) s = .next t ∧ (t.axis a).now = (s.axis a).now ∧ (t.axis a).preset = none ∧
    bit (t.rd (0x15010 + 0x1000 * (a / 6))) 8 = true ∧ s.reports t (0x1505 + 0x100 * (a / 6)) [wd a]) ∧
  (∀ (s : State) (a : Fin 12), (s.booted = false ∨ ∀ v tc b, (s.axis a).preset = some (v, tc, some b) → s.mot.epoch <
      tc + 1000) → exec (.presetApply a) s = .next (s)) ∧
  (∀ (s : State) (m : Fin 24), s.reflexOn = true → s.monEn m = true → (s.smo m).winAt < s.mot.epoch →
    s.mot.epoch % (1000 * (2 ^ s.monWk m / 16)) = 0 → (s.axis (s.monAxis m)).fault = false →
    ∃ t, exec (.speedWindowUpdate m) s = .next t ∧
    (t.smo m).win = ((s.axis (s.monAxis m)).now :: (s.smo m).win).take 17 ∧ (t.smo m).winAt = s.mot.epoch ∧
    ((s.smo m).win.length < 16 → (t.smo m).fill = true ∧ (t.smo m).v = 0) ∧
    (16 ≤ (s.smo m).win.length → (t.smo m).fill = false ∧ (t.smo m).v = max (-2147483648) (min 2147483647 (Int.tdiv
      (sfld ((s.axis (s.monAxis m)).now - (s.smo m).win.getD 15 0) 0 32 * 1000000) (2 ^ s.monWk m)))) ∧
    (t.smo m).viol = (s.smo m).viol ∧ t.regs = s.regs) ∧
  (∀ (s : State) (m : Fin 24), s.reflexOn = true → s.monEn m = true → (s.smo m).winAt < s.mot.epoch →
    s.mot.epoch % (1000 * (2 ^ s.monWk m / 16)) = 0 → (s.axis (s.monAxis m)).fault = true →
    ∃ t, exec (.speedWindowUpdate m) s = .next t ∧
    t.smo m = { s.smo m with win := [], v := 0, fill := true, winAt := s.mot.epoch } ∧ t.regs = s.regs) ∧
  (∀ (s : State) (m : Fin 24), (s.reflexOn = false ∨ s.monEn m = false ∨ s.mot.epoch ≤ (s.smo m).winAt ∨ s.mot.epoch
      % (1000 * (2 ^ s.monWk m / 16)) ≠ 0) → exec (.speedWindowUpdate m) s = .next (s)) ∧
  (∀ (s : State) (m : Fin 24), s.reflexOn = true → s.monEn m = true → s.monType m = 0 → (s.smo m).at' < s.mot.epoch →
    s.mot.epoch + tEv m ≤ s.now → (s.smo m).wait = none → (s.smo m).ramp = none → (s.smo m).viol = false →
    (s.axis (s.monAxis m)).fault = false → s.regsOk → ∃ t, exec (.monitorEvaluate m) s = .next t ∧
    (t.smo m).viol = ((s.smo m).fill || decide ((s.setA m (s.smo m).aset).toNat < (s.smo m).v.natAbs)) ∧
    (t.smo m).at' = s.mot.epoch ∧ (t.smo m).vl = (s.setA m (s.smo m).aset).toNat ∧
    ((t.smo m).viol = true → bit (t.rd 0x17010) 0 = true ∧ s.reports t 0x1701 [wd m]) ∧
    (∀ n : Fin 24, n ≠ m → t.smo n = s.smo n)) ∧
  (∀ (s : State) (m : Fin 24), s.reflexOn = true → s.monEn m = true → (s.smo m).at' < s.mot.epoch →
    s.mot.epoch + tEv m ≤ s.now → (s.axis (s.monAxis m)).fault = true → ∃ t, exec (.monitorEvaluate m) s = .next t ∧
    (t.smo m).viol = true ∧ (t.smo m).fault = true ∧ (t.smo m).at' = s.mot.epoch ∧
    (∀ n : Fin 24, n ≠ m → t.smo n = s.smo n)) ∧
  (∀ (s : State) (m : Fin 24), (s.reflexOn = false ∨ s.monEn m = false ∨ s.mot.epoch ≤ (s.smo m).at' ∨ s.now <
      s.mot.epoch + tEv m) → exec (.monitorEvaluate m) s = .next (s)) ∧
  (∀ (s : State), s.reflexOn = true → s.mot.itemAt < s.mot.epoch → s.mot.epoch + 800 ≤ s.now → s.pimc.retry = none →
    ∃ t, exec .monitorItemWrite s = .next t ∧ t.mot = { s.mot with itemAt := s.mot.epoch } ∧ t.regs = s.regs ∧
    t.fio = s.fio) ∧
  (∀ (s : State), (s.reflexOn = false ∨ s.mot.epoch ≤ s.mot.itemAt ∨ s.now < s.mot.epoch + 800 ∨ s.pimc.retry ≠ none)
      → exec .monitorItemWrite s = .next (s))

/-- The decimation engine (R264 to R268, R275, R276, R278, R279, R281, R283). Where its conditions do not hold, a command
changes nothing. -/
def Obligations.DecimationChannels : Prop :=
  (∀ (s : State) (r : DsRound), s.decOn = true → s.dec.grid + 16 * s.mclkNs * (s.dec.gridN + 1) ≤ s.now →
    s.dec.engFlt = false → s.dec.eps = none → r.dperr = 0 → s.regsOk → ∃ t, exec (.conversionRound r) s = .next t ∧
    t.dec.gridN = s.dec.gridN + 1 ∧ (∀ k : Fin 16, s.dsEn k = false ∨ s.mclkOk k = false → t.ds k = s.ds k) ∧
    (∀ k : Fin 16, s.dsEn k = true → s.mclkOk k = true → (t.ds k).last = bit (r.bits.getD k 0) 15) ∧
    (∀ k : Fin 16, s.dsEn k = true → s.mclkOk k = true → (t.ds k).integ[0] = ((s.ds k).feed (bit (s.dscfg k) 6)
      (r.bits.getD k 0)).integ[0]) ∧ t.dec.engFlt = false ∧ t.mstate = s.mstate) ∧
  (∀ (s : State) (r : DsRound), (s.decOn = false ∨ s.now < s.dec.grid + 16 * s.mclkNs * (s.dec.gridN + 1)) →
    exec (.conversionRound r) s = .next (s)) ∧
  (∀ (s : State) (k : Fin 16), s.decOn = true → s.dsEn k = true → (s.ds k).fill = true → (s.ds k).fillAt ≤ s.now →
    ∃ t, exec (.fillEnd k) s = .next t ∧ (t.ds k).fill = false ∧ (t.ds k).dperr = false ∧
    (t.ds k).valid = (!(s.ds k).stuck && !(s.ds k).noclk && !s.dec.engFlt) ∧ (∀ j : Fin 16, j ≠ k → t.ds j = s.ds j) ∧
    t.regs = s.regs) ∧
  (∀ (s : State) (k : Fin 16), (s.decOn = false ∨ s.dsEn k = false ∨ (s.ds k).fill = false ∨ s.now < (s.ds k).fillAt)
      → exec (.fillEnd k) s = .next (s)) ∧
  (∀ (s : State) (k : Fin 16), s.decOn = true → s.dsEn k = true → (s.ds k).stuck = false → 1024 ≤ (s.ds k).run →
    s.regsOk → ∃ t, exec (.dsStuck k) s = .next t ∧ (t.ds k).stuck = true ∧ (t.ds k).valid = false ∧
    bit (t.rd 0x18010) 0 = true ∧ s.reports t 0x1801 [wd k] ∧ (∀ j : Fin 16, j ≠ k → t.ds j = s.ds j)) ∧
  (∀ (s : State) (k : Fin 16), (s.decOn = false ∨ s.dsEn k = false ∨ (s.ds k).stuck = true ∨ (s.ds k).run < 1024) →
    exec (.dsStuck k) s = .next (s)) ∧
  (∀ (s : State) (k : Fin 16), s.decOn = true → s.dsEn k = true → (s.ds k).stuck = true → (s.ds k).run < 1024 →
    ∃ t, exec (.dsStuckClear k) s = .next t ∧ (t.ds k).stuck = false ∧ (t.ds k).fill = true ∧
    (t.ds k).fillAt = s.now + setClocks (s.dsPreset k) * s.mclkNs ∧ (t.ds k).valid = false ∧ t.regs = s.regs) ∧
  (∀ (s : State) (k : Fin 16), (s.decOn = false ∨ s.dsEn k = false ∨ (s.ds k).stuck = false ∨ 1024 ≤ (s.ds k).run) →
    exec (.dsStuckClear k) s = .next (s)) ∧
  (∀ (s : State) (k : Fin 16), s.decOn = true → s.dsEn k = true → (s.ds k).noclk = false → s.regsOk →
    ∃ t, exec (.noclk k) s = .next t ∧ (t.ds k).noclk = true ∧ (t.ds k).valid = false ∧ bit (t.rd 0x18010) 2 = true ∧
    s.reports t 0x1803 [wd k]) ∧
  (∀ (s : State) (k : Fin 16), (s.decOn = false ∨ s.dsEn k = false ∨ (s.ds k).noclk = true) →
    exec (.noclk k) s = .next (s)) ∧
  (∀ (s : State) (k : Fin 16), s.decOn = true → s.dsEn k = true → (s.ds k).noclk = true → s.mclkOk k = true →
    ∃ t, exec (.noclkClear k) s = .next t ∧ (t.ds k).noclk = false ∧ (t.ds k).fill = true ∧ (t.ds k).valid = false ∧
    t.regs = s.regs) ∧
  (∀ (s : State) (k : Fin 16), (s.decOn = false ∨ s.dsEn k = false ∨ (s.ds k).noclk = false ∨ s.mclkOk k = false) →
    exec (.noclkClear k) s = .next (s)) ∧
  (∀ (s : State) (k : Fin 16) (v : Word), s.allowsWrite .pf0 (Reg.decDscfg k) v = true →
    dscfgOk (s.rd Reg.decCtrl) (v &&& 0xff03ffff) = true →
    (bit v 7 = false ∨ (if bit v 2 = true then s.dec.own1 else s.dec.own0) = true) → s.regsOk →
    ∃ t, exec (.dscfgWrite .pf0 k v) s = .next t ∧ t.rd (Reg.decDscfg k) &&& 0xff0000c7 = v &&& 0xff0000c7 ∧
    (t.ds k).fill = true ∧ (t.ds k).valid = false ∧ (∀ j : Fin 16, j ≠ k → t.ds j = s.ds j) ∧
    (∀ a, a ≠ Reg.decDscfg k → t.rd a = s.rd a)) ∧
  (∀ (s : State) (k : Fin 16) (v : Word), s.allowsWrite .pf0 (Reg.decDscfg k) v = true →
    dscfgOk (s.rd Reg.decCtrl) (v &&& 0xff03ffff) = true → bit v 7 = true →
    (if bit v 2 = true then s.dec.own1 else s.dec.own0) = false → s.regsOk →
    ∃ t, exec (.dscfgWrite .pf0 k v) s = .next t ∧ t.rd (Reg.decDscfg k) &&& 0xff0000c7 = v &&& 0xff0000c7 ∧
    (t.ds k).fill = true ∧ (t.ds k).valid = false ∧ (∀ j : Fin 16, j ≠ k → t.ds j = s.ds j) ∧ (t.ds k).noclk = true) ∧
  (∀ (s : State) (pf : Pf) (k : Fin 16) (v : Word), s.allowsWrite pf (Reg.decDscfg k) v = true →
    dscfgOk (s.rd Reg.decCtrl) (v &&& 0xff03ffff) = false → exec (.dscfgWrite pf k v) s = .next (s.refuse 0x18)) ∧
  (∀ (s : State) (m : Byte), s.allowsWrite .pf0 Reg.decTest (wd (1 + 256 * m.toNat)) = true →
    s.tmdOk m.toNat = true → s.rsmpOn = false → (∀ k : Fin 16, s.dsEn k = true → s.mclkOk k = true) → s.regsOk →
    ∃ t, exec (.decTestStart .pf0 m) s = .next t ∧ t.decTest = true ∧ t.decTmd = m.toNat ∧
    bit (t.rd 0x18010) 4 = true ∧ s.reports t 0x1806 [] ∧ (∀ k : Fin 16, s.dsEn k = true → (t.ds k).fill = true)) ∧
  (∀ (s : State) (pf : Pf) (m : Byte), s.allowsWrite pf Reg.decTest (wd (1 + 256 * m.toNat)) = true →
    s.tmdOk m.toNat = false → exec (.decTestStart pf m) s = .next (s.refuse 0x18)) ∧
  (∀ (s : State) (m : Byte), s.allowsWrite .pf0 Reg.decTest (wd (1 + 256 * m.toNat)) = true →
    s.tmdOk m.toNat = true → s.rsmpOn = true → (∀ k : Fin 16, s.dsEn k = true → s.mclkOk k = true) → s.regsOk →
    ∃ t, exec (.decTestStart .pf0 m) s = .next t ∧ t.decTest = true ∧ t.decTmd = m.toNat ∧ t.sett = s.sett ∧
    (∀ k : Fin 16, s.dsEn k = true → (t.ds k).fill = true)) ∧
  (∀ (s : State), s.allowsWrite .pf0 Reg.decTest (s.rd Reg.decTest &&& 0xff00) = true → s.decTest = true →
    s.tmdOk s.decTmd = true → s.dec.eps = none → (∀ k : Fin 16, s.dsEn k = true → s.mclkOk k = true) → s.regsOk →
    ∃ t, exec (.decTestStop .pf0) s = .next t ∧ t.decTest = false ∧ t.decTmd = s.decTmd ∧ bit (t.rd 0x18010) 5 = true ∧
    s.reports t 0x1807 []) ∧
  (∀ (s : State), s.allowsWrite .pf0 Reg.decTest (s.rd Reg.decTest &&& 0xff00) = true → s.decTest = false →
    s.tmdOk s.decTmd = true → s.regsOk → ∃ t, exec (.decTestStop .pf0) s = .next t ∧ t.decTest = false ∧
    t.decTmd = s.decTmd ∧ t.dec = s.dec ∧ t.sett = s.sett)

/-- The plane switches and the host rings (R286 to R293, R311 to R313). Where its conditions do not hold, a command changes
nothing. -/
def Obligations.SwitchesForwardAndCount : Prop :=
  (∀ (s : State) (x : Plane) (p : Fin 4) (f : EthFrame), s.alive = true → p.val < 2 →
    s.portEn (planeIdx x) p = true → f.fcsOk = false → s.regsOk → ∃ t, exec (.switchFrameRx x p f) s = .next t ∧
    t.rd (Reg.netPerr (planeIdx x) p) = satInc (s.rd (Reg.netPerr (planeIdx x) p)) 0xffffffff ∧
    (∀ a, a ≠ Reg.netPerr (planeIdx x) p → t.rd a = s.rd a) ∧ t.planes = s.planes ∧ t.pim = s.pim) ∧
  (∀ (s : State) (x : Plane) (p : Fin 4) (f : EthFrame), s.alive = true → p.val < 2 →
    s.portEn (planeIdx x) p = true → f.fcsOk = true → f.len ≤ 1522 → f.body ≠ .pause →
    bit (s.portVlan (planeIdx x) p) 12 = false → isMulticast f.dst = false → isMulticast f.src = false →
    (s.plane (planeIdx x)).table.length < 2048 → s.regsOk → ∃ t, exec (.switchFrameRx x p f) s = .next t ∧
    t.rd (Reg.netPrx (planeIdx x) p) = satInc (s.rd (Reg.netPrx (planeIdx x) p)) 0xffffffff ∧
    (f.src ≠ Config.mac (planeIdx x) → t.learned (planeIdx x) f.src = some p.val) ∧ t.pim = s.pim) ∧
  (∀ (s : State) (x : Plane) (p : Fin 4) (f : EthFrame), (s.alive = false ∨ 2 ≤ p.val ∨ s.portEn (planeIdx x) p =
      false) → exec (.switchFrameRx x p f) s = .next (s)) ∧
  (∀ (s : State) (x : Plane) (p : Fin 4) (q : QFrame), s.alive = true → p.val < 2 →
    nextFrame (Vec.at (s.plane (planeIdx x)).queues p []) = some q → s.portUp (planeIdx x) p = true →
    bit (s.rd Reg.ptpCtrl) 3 = false → s.regsOk → ∃ t, exec (.switchFrameTx x p) s = .next t ∧
    t.outbox = s.outbox ++ [.eth x p q.f] ∧
    Vec.at (t.plane (planeIdx x)).queues p [] = (Vec.at (s.plane (planeIdx x)).queues p []).erase q ∧
    q ∈ Vec.at (s.plane (planeIdx x)).queues p [] ∧
    (∀ o ∈ Vec.at (s.plane (planeIdx x)).queues p [], o.pcp < 8 → o.pcp ≤ q.pcp) ∧
    t.rd (Reg.netPtx (planeIdx x) p) = satInc (s.rd (Reg.netPtx (planeIdx x) p)) 0xffffffff) ∧
  (∀ (s : State) (x : Plane) (p : Fin 4), (s.alive = false ∨ nextFrame (Vec.at (s.plane (planeIdx x)).queues p []) =
      none ∨ s.portUp (planeIdx x) p = false) → exec (.switchFrameTx x p) s = .next (s)) ∧
  (∀ (s : State) (x : Plane) (f : EthFrame), s.booted = true → s.p3Takes (planeIdx x) f = false →
    s.hostEn (planeIdx x) = false → s.regsOk → ∃ t, exec (.p3FrameRx x f) s = .next t ∧
    t.rd (Reg.netPtx (planeIdx x) 2) = satInc (s.rd (Reg.netPtx (planeIdx x) 2)) 0xffffffff ∧
    (∀ a, a ≠ Reg.netPtx (planeIdx x) 2 → t.rd a = s.rd a) ∧ t.pim = s.pim ∧ t.trdp = s.trdp) ∧
  (∀ (s : State) (x : Plane) (f : EthFrame), s.booted = false → exec (.p3FrameRx x f) s = .next (s)) ∧
  (∀ (s : State) (x : Plane) (o : P3Out) (r : List P3Out), s.alive = true → (s.plane (planeIdx x)).p3 = o :: r →
    s.p3Sends (planeIdx x) o = true → ∃ t, exec (.p3FrameTx x) s = .next t ∧ (t.plane (planeIdx x)).p3 = r ∧
    t.pim = s.pim ∧ t.trdp = s.trdp) ∧
  (∀ (s : State) (x : Plane) (o : P3Out) (r : List P3Out), s.alive = true → (s.plane (planeIdx x)).p3 = o :: r →
    s.p3Sends (planeIdx x) o = false →
    exec (.p3FrameTx x) s = .next (s.modPlane (planeIdx x) fun n => { n with p3 := r })) ∧
  (∀ (s : State) (x : Plane), (s.alive = false ∨ (s.plane (planeIdx x)).p3 = []) →
    exec (.p3FrameTx x) s = .next (s)) ∧
  (∀ (s : State) (x : Plane) (n : Nat), s.booted = true → s.hostEn (planeIdx x) = true →
    fld (s.rd (Reg.netHtxcons (planeIdx x))) 0 8 = n → n ≠ fld (s.rd (Reg.netHtxprod (planeIdx x))) 0 8 → s.regsOk →
    ∃ t, exec (.hostTxSend x) s = .next t ∧
    t.rd (Reg.netHtxcons (planeIdx x)) = wd (if n + 1 = fld (s.rd (Reg.netHtxnum (planeIdx x))) 0 9 then 0 else n + 1)
      ∧ bit (t.rd (0x20010 + 0x1000 * planeIdx x)) 3 = true ∧
    (t.rd (Reg.netPrx (planeIdx x) 3) = satInc (s.rd (Reg.netPrx (planeIdx x) 3)) 0xffffffff ∨ t.rd (Reg.netPerr
      (planeIdx x) 3) = satInc (s.rd (Reg.netPerr (planeIdx x) 3)) 0xffffffff)) ∧
  (∀ (s : State) (x : Plane), (s.booted = false ∨ s.hostEn (planeIdx x) = false ∨ fld (s.rd (Reg.netHtxcons (planeIdx
      x))) 0 8 = fld (s.rd (Reg.netHtxprod (planeIdx x))) 0 8) → exec (.hostTxSend x) s = .next (s)) ∧
  (∀ (s : State) (x : Plane) (v : Byte), s.allowsWrite .pf0 (Reg.netHtxprod (planeIdx x)) (v.zeroExtend 32) = true →
    s.regsOk → ∃ t, exec (.hostTxProduce .pf0 x (v.zeroExtend 32)) s = .next t ∧
    t.rd (Reg.netHtxprod (planeIdx x)) = v.zeroExtend 32 ∧ (∀ a, a ≠ Reg.netHtxprod (planeIdx x) → t.rd a = s.rd a)) ∧
  (∀ (s : State) (x : Plane) (v : Byte), s.allowsWrite .pf0 (Reg.netHrxcons (planeIdx x)) (v.zeroExtend 32) = true →
    s.regsOk → ∃ t, exec (.hostRxConsume .pf0 x (v.zeroExtend 32)) s = .next t ∧
    t.rd (Reg.netHrxcons (planeIdx x)) = v.zeroExtend 32 ∧ (∀ a, a ≠ Reg.netHrxcons (planeIdx x) → t.rd a = s.rd a)) ∧
  (∀ (s : State) (x : Plane), s.allowsWrite .pf0 (Reg.netCntclr (planeIdx x)) 1 = true → s.regsOk →
    ∃ t, exec (.netCounterClear .pf0 x) s = .next t ∧
    (∀ q : Fin 4, t.rd (Reg.netPrx (planeIdx x) q) = 0 ∧ t.rd (Reg.netPtx (planeIdx x) q) = 0 ∧ t.rd (Reg.netPerr
      (planeIdx x) q) = 0 ∧ t.rd (Reg.netPdrop (planeIdx x) q) = 0) ∧ t.planes = s.planes) ∧
  (∀ (s : State) (x : Plane) (p : Fin 2) (y : BitVec 2), s.alive = true → s.portEn (planeIdx x) p = true →
    fld (s.rd (Reg.netStat (planeIdx x))) (2 + 2 * p.val) 2 ≠ y.toNat → y ≠ 0 → s.regsOk →
    ∃ t, exec (.ethLinkChange x p y) s = .next t ∧ fld (t.rd (Reg.netStat (planeIdx x))) (2 + 2 * p.val) 2 = y.toNat ∧
    bit (t.rd (Reg.netStat (planeIdx x))) p = true ∧ bit (t.rd (0x20010 + 0x1000 * planeIdx x)) 0 = true ∧
    s.reports t (0x2001 + 0x100 * planeIdx x) [wd (p.val + 1)]) ∧
  (∀ (s : State) (x : Plane) (p : Fin 2), s.alive = true → s.portEn (planeIdx x) p = true →
    fld (s.rd (Reg.netStat (planeIdx x))) (2 + 2 * p.val) 2 ≠ 0 → s.regsOk →
    ∃ t, exec (.ethLinkChange x p 0) s = .next t ∧ fld (t.rd (Reg.netStat (planeIdx x))) (2 + 2 * p.val) 2 = 0 ∧
    bit (t.rd (Reg.netStat (planeIdx x))) p = false ∧ bit (t.rd (0x20010 + 0x1000 * planeIdx x)) 0 = true) ∧
  (∀ (s : State) (x : Plane) (p : Fin 2) (y : BitVec 2), (s.alive = false ∨ s.portEn (planeIdx x) p = false ∨ fld
      (s.rd (Reg.netStat (planeIdx x))) (2 + 2 * p.val) 2 = y.toNat) → exec (.ethLinkChange x p y) s = .next (s)) ∧
  (∀ (s : State) (x : Plane) (m : BitVec 48), s.alive = true → ∃ t, exec (.addressAgeing x m) s = .next t ∧
    (∀ e, e ∈ (t.plane (planeIdx x)).table ↔ e ∈ (s.plane (planeIdx x)).table ∧ ¬ (e.mac = m ∧ e.at' + 300000000000 ≤
      s.now)) ∧ t.regs = s.regs ∧ t.trdp = s.trdp) ∧
  (∀ (s : State) (x : Plane) (m : BitVec 48), s.alive = false → exec (.addressAgeing x m) s = .next (s))

/-- Process data (R296 to R301) and twin-path safety telegrams (R303 to R309). Where its conditions do not hold, a command
changes nothing. -/
def Obligations.ProcessDataAndTelegrams : Prop :=
  (∀ (s : State) (e : Fin 1024) (i : Nat), s.bridgeRuns = true → bit (s.tbl 0 e 3) 31 = true →
    lastInstant s.now (s.tbl 0 e 5).toNat (s.tbl 0 e 6).toNat = some i → s.pubAt e < i → s.commitBy i = false →
    s.readLines 4 (((s.pubMaps e).map fun m => (pimOpc + m.piw) / 8).eraseDups) = (s, true) → s.regsOk →
    Store.wf tableReset s.tables = true → Store.wf (fun _ => s.trdp.since) s.trdp.pubAt = true →
    ∃ t, exec (.pdPublish e) s = .next t ∧ t.tbl 0 e 7 = s.tbl 0 e 7 + 1 ∧ t.pubAt e = i ∧
    t.rd Reg.trdTxcnt = satInc (s.rd Reg.trdTxcnt) 0xffffffff ∧
    (∀ x : Fin 2, (fld (s.tbl 0 e 3) 20 2).testBit x = true → s.ipAddr x ≠ 0 → s.isolated = false → (t.plane
      x).p3.length = (s.plane x).p3.length + 1) ∧
    (∀ x : Fin 2, (fld (s.tbl 0 e 3) 20 2).testBit x = false → t.plane x = s.plane x) ∧ t.pim = s.pim) ∧
  (∀ (s : State) (e : Fin 1024), (s.bridgeRuns = false ∨ bit (s.tbl 0 e 3) 31 = false ∨ ∀ i, lastInstant s.now (s.tbl
      0 e 5).toNat (s.tbl 0 e 6).toNat = some i → i ≤ s.pubAt e ∨ s.commitBy i = true) →
    exec (.pdPublish e) s = .next (s)) ∧
  (∀ (s u : State) (e : Fin 1024) (i : Nat), s.bridgeRuns = true → bit (s.tbl 0 e 3) 31 = true →
    lastInstant s.now (s.tbl 0 e 5).toNat (s.tbl 0 e 6).toNat = some i → s.pubAt e < i → s.commitBy i = false →
    s.readLines 4 (((s.pubMaps e).map fun m => (pimOpc + m.piw) / 8).eraseDups) = (u, false) →
    exec (.pdPublish e) s = .next (u)) ∧
  (∀ (s : State) (x : Plane) (f : EthFrame) (d : PdFrame) (e : Nat), s.booted = true → s.bridgeRuns = true →
    s.p3Takes (planeIdx x) f = true → f.body = .pd d → s.subOf d.comId = some e →
    s.pdReason (planeIdx x) d (fld (s.tbl 1 e 3) 4 2) (s.tbl 1 e 1) (s.tbl 1 e 2) (fld (s.tbl 1 e 4) 0 11) (bit (s.tbl
      1 e 3) 6) = none → (bit (s.tbl 1 e 6) 0 = true ∨ newer d.seq (s.tbl 1 e 7) = true) → s.regsOk →
    Store.wf tableReset s.tables = true → Store.wf (fun _ => (⟨0, false⟩ : SubSt)) s.trdp.subs = true →
    ∃ t, exec (.p3FrameRx x f) s = .next t ∧ t.tbl 1 e 7 = d.seq ∧ t.tbl 1 e 6 = wd (2 + 4 * 2 ^ planeIdx x) ∧
    t.sub e = ⟨s.now, false⟩ ∧ t.rd Reg.trdRxok = satInc (s.rd Reg.trdRxok) 0xffffffff) ∧
  (∀ (s : State) (x : Plane) (f : EthFrame) (d : PdFrame), s.booted = true → s.bridgeRuns = false →
    s.p3Takes (planeIdx x) f = true → f.body = .pd d → s.regsOk → ∃ t, exec (.p3FrameRx x f) s = .next t ∧
    t.rd (Reg.netPtx (planeIdx x) 2) = satInc (s.rd (Reg.netPtx (planeIdx x) 2)) 0xffffffff ∧
    (∀ a, a ≠ Reg.netPtx (planeIdx x) 2 → t.rd a = s.rd a) ∧ t.tables = s.tables ∧ t.trdp = s.trdp ∧ t.pim = s.pim) ∧
  (∀ (s : State) (e : Fin 2048), s.bridgeRuns = true → bit (s.tbl 1 e 3) 31 = true → (s.sub e).told = false →
    s.subEnd e / 4 < s.now / 4 → s.regsOk → Store.wf tableReset s.tables = true →
    Store.wf (fun _ => (⟨0, false⟩ : SubSt)) s.trdp.subs = true → ∃ t, exec (.pdTimeout e) s = .next t ∧
    bit (t.tbl 1 e 6) 0 = true ∧ t.tbl 1 e 7 = s.tbl 1 e 7 ∧ t.sub e = ⟨(s.sub e).at', true⟩ ∧
    bit (t.rd (Reg.trdTo (e / 32))) (e % 32) = true ∧ bit (t.rd 0x22010) 0 = true ∧ s.reports t 0x2201 [wd e]) ∧
  (∀ (s : State) (e : Fin 2048), (s.bridgeRuns = false ∨ bit (s.tbl 1 e 3) 31 = false ∨ (s.sub e).told = true ∨ s.now
      / 4 ≤ s.subEnd e / 4) → exec (.pdTimeout e) s = .next (s)) ∧
  (∀ (s : State) (e : Fin 256) (i : Nat), s.telSends = true → bit (s.tbl 2 e 0) 31 = true →
    bit (s.tbl 2 e 0) 0 = true → s.eng.telOpen.contains e.val = true → (s.tel e).stopped = false →
    lastInstant s.now (s.tbl 2 e 6).toNat (s.tbl 2 e 7).toNat = some i → (s.tel e).sentAt < i → s.trdp.telFrom ≤ i →
    s.commitBy i = false → s.readLines 4 (linesOf (telSendBuf e) (s.telLen e)) = (s, true) →
    Store.wf tableReset s.tables = true → Store.wf (fun _ => TelSt.zero) s.trdp.tels = true →
    ∃ t, exec (.telegramSend e false) s = .next t ∧ t.tbl 2 e 9 = s.tbl 2 e 9 + 1 ∧ (t.tel e).sentAt = i ∧
    (t.tel e).stopped = false ∧
    (∀ x : Fin 2, s.ipAddr x ≠ 0 → s.isolated = false → (t.plane x).p3.length = (s.plane x).p3.length + 1) ∧
    t.pim = s.pim ∧ t.regs = s.regs) ∧
  (∀ (s : State) (e : Fin 256) (i : Nat), s.telSends = true → bit (s.tbl 2 e 0) 31 = true →
    bit (s.tbl 2 e 0) 0 = true → s.eng.telOpen.contains e.val = true → (s.tel e).stopped = false →
    lastInstant s.now (s.tbl 2 e 6).toNat (s.tbl 2 e 7).toNat = some i → (s.tel e).sentAt < i → s.trdp.telFrom ≤ i →
    s.commitBy i = false → s.readLines 4 (linesOf (telSendBuf e) (s.telLen e)) = (s, true) → s.regsOk →
    Store.wf tableReset s.tables = true → Store.wf (fun _ => TelSt.zero) s.trdp.tels = true →
    ∃ t, exec (.telegramSend e true) s = .next t ∧ (t.tel e).stopped = true ∧ t.planes = s.planes ∧
    bit (t.rd 0x23010) 5 = true ∧ s.reports t 0x2305 [wd e]) ∧
  (∀ (s : State) (e : Fin 256) (u : Bool), (s.telSends = false ∨ bit (s.tbl 2 e 0) 31 = false ∨ bit (s.tbl 2 e 0) 0 =
      false ∨ s.eng.telOpen.contains e.val = false ∨ (s.tel e).stopped = true ∨ ∀ i, lastInstant s.now (s.tbl 2 e
      6).toNat (s.tbl 2 e 7).toNat = some i → i ≤ (s.tel e).sentAt ∨ i < s.trdp.telFrom ∨ s.commitBy i = true) →
    exec (.telegramSend e u) s = .next (s)) ∧
  (∀ (s u : State) (e : Fin 256) (i : Nat) (x : Bool), s.telSends = true → bit (s.tbl 2 e 0) 31 = true →
    bit (s.tbl 2 e 0) 0 = true → s.eng.telOpen.contains e.val = true → (s.tel e).stopped = false →
    lastInstant s.now (s.tbl 2 e 6).toNat (s.tbl 2 e 7).toNat = some i → (s.tel e).sentAt < i → s.trdp.telFrom ≤ i →
    s.commitBy i = false → s.readLines 4 (linesOf (telSendBuf e) (s.telLen e)) = (u, false) →
    exec (.telegramSend e x) s = .next (u)) ∧
  (∀ (s : State) (e : Fin 256) (w : TelWin), s.bridgeRuns = true → (s.tel e).win = some w → s.winEnd e w ≤ s.now →
    s.winEnd e w / 4 < s.telEnd e / 4 → s.now / 4 < (s.winEnd e w + 1000 * (s.tbl 2 e 7).toNat) / 4 →
    s.telTout e = false → s.telCount e < fld (s.tbl 2 e 5) 24 4 + 1 → Store.wf tableReset s.tables = true →
    Store.wf (fun _ => TelSt.zero) s.trdp.tels = true → ∃ t, exec (.compareWindowClose e) s = .next t ∧
    t.tbl 2 e 9 = w.ssc ∧ t.telSingle e = true ∧ t.telTout e = false ∧ t.telCount e = s.telCount e + 1 ∧
    (t.tel e).win = none ∧ (t.tel e).at' = s.winEnd e w) ∧
  (∀ (s : State) (e : Fin 256) (w : TelWin), s.bridgeRuns = true → (s.tel e).win = some w → s.winEnd e w ≤ s.now →
    s.winEnd e w / 4 < s.telEnd e / 4 → s.telTout e = false → fld (s.tbl 2 e 5) 24 4 + 1 ≤ s.telCount e → s.regsOk →
    Store.wf tableReset s.tables = true → Store.wf (fun _ => TelSt.zero) s.trdp.tels = true →
    ∃ t, exec (.compareWindowClose e) s = .next t ∧ t.telTout e = true ∧ (t.tel e).win = none ∧
    t.tbl 2 e 9 = s.tbl 2 e 9 ∧ bit (t.rd 0x23010) 1 = true ∧ s.reports t 0x2302 [wd e]) ∧
  (∀ (s : State) (e : Fin 256) (w : TelWin), s.bridgeRuns = true → (s.tel e).win = some w → s.winEnd e w ≤ s.now →
    s.telEnd e / 4 ≤ s.winEnd e w / 4 → bit (s.tbl 2 e 0) 31 = true → bit (s.tbl 2 e 0) 0 = false →
    s.telTout e = false → s.regsOk → Store.wf tableReset s.tables = true →
    Store.wf (fun _ => TelSt.zero) s.trdp.tels = true → ∃ t, exec (.compareWindowClose e) s = .next t ∧
    t.telTout e = true ∧ (t.tel e).win = none ∧ t.tbl 2 e 9 = s.tbl 2 e 9 ∧ bit (t.rd 0x23010) 0 = true ∧
    s.reports t 0x2301 [wd e]) ∧
  (∀ (s : State) (e : Fin 256) (w : TelWin), s.bridgeRuns = true → (s.tel e).win = some w → s.winEnd e w ≤ s.now →
    s.telTout e = true → Store.wf (fun _ => TelSt.zero) s.trdp.tels = true →
    exec (.compareWindowClose e) s = .next (s.modTel e fun x => { x with win := none })) ∧
  (∀ (s : State) (e : Fin 256), (s.bridgeRuns = false ∨ (s.tel e).win = none ∨ ∀ w, (s.tel e).win = some w → s.now <
      s.winEnd e w) → exec (.compareWindowClose e) s = .next (s)) ∧
  (∀ (s : State) (e : Fin 256), s.bridgeRuns = true → bit (s.tbl 2 e 0) 31 = true → bit (s.tbl 2 e 0) 0 = false →
    s.telTout e = false → s.telEnd e / 4 ≤ s.now / 4 →
    (s.tel e).win.all (fun w => decide (s.telEnd e / 4 ≤ s.winEnd e w / 4)) = true → s.regsOk →
    Store.wf tableReset s.tables = true → ∃ t, exec (.telegramTimeout e) s = .next t ∧ t.telTout e = true ∧
    bit (t.rd (Reg.twpTout (e / 32))) (e % 32) = true ∧ bit (t.rd 0x23010) 0 = true ∧ s.reports t 0x2301 [wd e] ∧
    t.tbl 2 e 9 = s.tbl 2 e 9) ∧
  (∀ (s : State) (e : Fin 256), (s.bridgeRuns = false ∨ s.now / 4 < s.telEnd e / 4 ∨ ((s.tel e).win = none ∧ (bit
      (s.tbl 2 e 0) 31 = false ∨ bit (s.tbl 2 e 0) 0 = true ∨ s.telTout e = true))) →
    exec (.telegramTimeout e) s = .next (s))

/-- The CAN channels and their part of the bridge (R316 to R320, R323 to R327, R334 to R336). Where its conditions do not hold, a
command changes nothing. -/
def Obligations.CanChannelsReceiveAndSend : Prop :=
  (∀ (s : State) (c : Fin 4) (f : CanFrame), s.canOn c = true → f.rtr = true → s.regsOk →
    ∃ t, exec (.canFrameRx c f) s = .next t ∧ t.rd (Reg.canRxdisc c) = satInc (s.rd (Reg.canRxdisc c)) 0xffffffff ∧
    bit (t.rd ((0x28 + c) * 0x1000 + 0x10)) 3 = true ∧ t.brg = s.brg ∧ t.cans = s.cans) ∧
  (∀ (s : State) (c : Fin 4) (f : CanFrame), s.canOn c = true → f.rtr = false →
    (f.fd = true → bit (s.rd (Reg.canCtrl c)) 1 = true) → s.routing = false → s.regsOk →
    ∃ t, exec (.canFrameRx c f) s = .next t ∧ t.rd (Reg.canRxcnt c) = satInc (s.rd (Reg.canRxcnt c)) 0xffffffff ∧
    ((s.canCh c).rec' ≤ 127 → (t.canCh c).rec' = (s.canCh c).rec' - 1) ∧
    (127 < (s.canCh c).rec' → 119 ≤ (t.canCh c).rec' ∧ (t.canCh c).rec' ≤ 127) ∧ (t.canCh c).tec = (s.canCh c).tec ∧
    (∀ a, a ≠ Reg.canRxcnt c → t.rd a = s.rd a)) ∧
  (∀ (s : State) (c : Fin 4) (f : CanFrame), s.canOn c = true → f.rtr = false →
    (f.fd = true → bit (s.rd (Reg.canCtrl c)) 1 = true) → s.routing = true →
    (s.routes.filter fun e => (s.route e).sport == c.val && (s.route e).side == f.ext && (f.id.toNat &&& (s.route
      e).smask) == ((s.route e).sid &&& (s.route e).smask)) = [] → s.regsOk → ∃ t, exec (.canFrameRx c f) s = .next t ∧
    t.rd (Reg.canRxcnt c) = satInc (s.rd (Reg.canRxcnt c)) 0xffffffff ∧
    t.rd Reg.brgUnmatched = satInc (s.rd Reg.brgUnmatched) 0xffffffff ∧ t.brg = s.brg) ∧
  (∀ (s : State) (c d : Fin 4) (e : Nat) (f : CanFrame), s.canOn c = true → f.rtr = false →
    (f.fd = true → bit (s.rd (Reg.canCtrl c)) 1 = true) → s.routing = true →
    (s.routes.filter fun e => (s.route e).sport == c.val && (s.route e).side == f.ext && (f.id.toNat &&& (s.route
      e).smask) == ((s.route e).sid &&& (s.route e).smask)) = [e] → (s.route e).dport = d.val →
    (s.route e).soff + (s.route e).slen ≤ f.data.length → (s.route e).miniv = 0 → s.canErrst d < 2 →
    ((s.buf c d).filter fun m => !m.side).length < 16 → Store.wf (fun _ => ([] : List BMsg)) s.brg.bufs = true →
    s.regsOk → ∃ t, exec (.canFrameRx c f) s = .next t ∧
    t.buf c d = s.buf c d ++ [⟨e, false, (s.route e).frame ((f.data.drop (s.route e).soff).take (s.route e).slen)⟩] ∧
    t.rd Reg.brgFwdcnt = satInc (s.rd Reg.brgFwdcnt) 0xffffffff ∧
    t.rd (Reg.canRxcnt c) = satInc (s.rd (Reg.canRxcnt c)) 0xffffffff) ∧
  (∀ (s : State) (c : Fin 4) (f : CanFrame), (s.canOn c = false ∨ (f.rtr = false ∧ f.fd = true ∧ bit (s.rd
      (Reg.canCtrl c)) 1 = false)) → exec (.canFrameRx c f) s = .next (s)) ∧
  (∀ (s : State) (c : Fin 4), s.canOn c = true → (s.canCh c).tx = none → ∃ t, exec (.canTxStart c) s = .next t ∧
    (t.canCh c).tx = winner (s.canHeads c) ∧ t.brg = s.brg ∧ t.regs = s.regs ∧ t.outbox = s.outbox) ∧
  (∀ (s : State) (c : Fin 4), (s.canOn c = false ∨ (s.canCh c).tx ≠ none) → exec (.canTxStart c) s = .next (s)) ∧
  (∀ (l : List (Nat × BMsg)) (b : Nat × BMsg), winner l = some b → b ∈ l ∧
    (∀ x ∈ l, arbOf b.2.frame ≤ arbOf x.2.frame)) ∧
  (∀ (s : State) (c : Fin 4) (p : Nat) (m : BMsg), s.canOn c = true → (s.canCh c).tx = some (p, m) →
    Store.wf (fun _ => ([] : List BMsg)) s.brg.bufs = true → s.regsOk → ∃ t, exec (.canTxDone c .sent) s = .next t ∧
    t.outbox = s.outbox ++ [.can c { m.frame with esi := m.frame.fd && s.canErrst c == 1 }] ∧
    t.buf p c = (s.buf p c).drop 1 ∧ (t.canCh c).tx = none ∧ (t.canCh c).tec = (s.canCh c).tec - 1 ∧
    t.rd (Reg.canTxcnt c) = satInc (s.rd (Reg.canTxcnt c)) 0xffffffff) ∧
  (∀ (s : State) (c : Fin 4) (r : CanTxEnd), (s.canOn c = false ∨ (s.canCh c).tx = none ∨ r ≠ .sent) →
    exec (.canTxDone c r) s = .next (s)) ∧
  (∀ (s : State) (c : Fin 4) (e : CanErr), s.canOn c = true → (s.canCh c).tec + e.dTec ≤ 255 → s.regsOk →
    ∃ t, exec (.canBusError c e) s = .next t ∧ (t.canCh c).tec = (s.canCh c).tec + e.dTec ∧
    (t.canCh c).rec' = satNat 255 ((s.canCh c).rec' + e.dRec) ∧
    (t.canErrst c = 1 → s.canErrst c = 0 → bit (t.rd ((0x28 + c) * 0x1000 + 0x10)) 0 = true ∧ s.reports t (0x2801 +
      0x100 * c) [wd c]) ∧ (t.canErrst c = s.canErrst c → t.regs = s.regs)) ∧
  (∀ (s : State) (c : Fin 4) (e : CanErr), s.canOn c = true → 255 < (s.canCh c).tec + e.dTec →
    Store.wf (fun _ => ([] : List BMsg)) s.brg.bufs = true → s.regsOk → ∃ t, exec (.canBusError c e) s = .next t ∧
    t.canErrst c = 2 ∧ (t.canCh c).tx = none ∧ (∀ p < 7, t.buf p c = []) ∧
    t.rd (Reg.canBocnt c) = satInc (s.rd (Reg.canBocnt c)) 0xffffffff ∧
    bit (t.rd ((0x28 + c) * 0x1000 + 0x10)) 1 = true ∧ s.reports t (0x2802 + 0x100 * c) [wd c]) ∧
  (∀ (s : State) (c : Fin 4) (e : CanErr), s.canOn c = false → exec (.canBusError c e) s = .next (s)) ∧
  (∀ (s : State) (c : Fin 4), s.bridgeRuns = true → s.canEn c = true → bit (s.rd (Reg.canCtrl c)) 2 = false →
    (s.canCh c).busOff = true → (bit (s.rd (Reg.canCtrl c)) 3 = true ∨ (s.canCh c).recover = true) → s.regsOk →
    ∃ t, exec (.canBusoffRecovery c) s = .next t ∧ t.canErrst c = 0 ∧ t.canCh c = Can.reset ∧
    bit (t.rd ((0x28 + c) * 0x1000 + 0x10)) 2 = true ∧ s.reports t (0x2803 + 0x100 * c) [wd c]) ∧
  (∀ (s : State) (c : Fin 4), (s.bridgeRuns = false ∨ s.canEn c = false ∨ bit (s.rd (Reg.canCtrl c)) 2 = true ∨
      (s.canCh c).busOff = false ∨ (bit (s.rd (Reg.canCtrl c)) 3 = false ∧ (s.canCh c).recover = false)) →
    exec (.canBusoffRecovery c) s = .next (s)) ∧
  (∀ (s : State) (c : Fin 4), s.allowsWrite .pf0 (Reg.canCmd c) 1 = true →
    ∃ t, exec (.canRecoveryCmd .pf0 c) s = .next t ∧ (t = s.modCan c fun x => { x with recover := x.busOff }))

/-- The MVB interface and the bridge's own clock (R321, R322, R327, R331, R332, R337). Where its conditions do not hold, a command
changes nothing. -/
def Obligations.MvbAndBridgeComplete : Prop :=
  (∀ (s : State) (fc : BitVec 4) (a : BitVec 12) (e : Nat), s.mvbOn = true → fc ≠ 15 →
    s.mvbEntry a.toNat true = some e → fld (s.tbl 3 e 0) 12 3 = fc.toNat →
    ∃ t, exec (.mvbMasterFrame fc a) s = .next t ∧ t = s.emit (.mvb a.toNat (s.mvbData e))) ∧
  (∀ (s : State) (fc : BitVec 4) (a : BitVec 12) (e : Nat), s.mvbOn = true → fc ≠ 15 →
    s.mvbEntry a.toNat true = none → s.mvbEntry a.toNat false = some e → fld (s.tbl 3 e 0) 12 3 = fc.toNat →
    ∃ t, exec (.mvbMasterFrame fc a) s = .next t ∧ t.mvb.tel = some (a.toNat, none) ∧
    (t.mvb.run = s.mvb.run.map fun n => satNat 0xffff (n + 1)) ∧ t.mvb.bytes = s.mvb.bytes ∧ t.outbox = s.outbox) ∧
  (∀ (s : State) (a : BitVec 12), s.mvbOn = true → a.toNat = fld (s.rd Reg.mvbDevaddr) 0 12 →
    ∃ t, exec (.mvbMasterFrame 15 a) s = .next t ∧
    t.outbox = s.outbox ++ [.mvb a.toNat (natBytesBE (Config.mvbStatus &&& 0x8fff).toNat 2)] ∧ t.regs = s.regs) ∧
  (∀ (s : State) (fc : BitVec 4) (a : BitVec 12), (s.mvbOn = false ∨ (fc = 15 ∧ a.toNat ≠ fld (s.rd Reg.mvbDevaddr) 0
      12) ∨ (fc ≠ 15 ∧ ∀ e, s.mvbEntry a.toNat true = some e ∨ (s.mvbEntry a.toNat true = none ∧ s.mvbEntry a.toNat
      false = some e) → fld (s.tbl 3 e 0) 12 3 ≠ fc.toNat)) → exec (.mvbMasterFrame fc a) s = .next (s)) ∧
  (∀ (s : State) (line : Plane) (a : BitVec 12) (e : Nat) (bs : List Byte), s.mvbOn = true →
    s.mvbLineEn (planeIdx line) = true → s.mvbEntry a.toNat false = some e → bs.length ≠ s.mvbSize e → s.regsOk →
    ∃ t, exec (.mvbSlaveFrame line a bs) s = .next t ∧
    t.rd (Reg.mvbErr (planeIdx line)) = satInc (s.rd (Reg.mvbErr (planeIdx line))) 0xffffffff ∧ t.mvb = s.mvb) ∧
  (∀ (s : State) (line : Plane) (a : BitVec 12) (e : Nat) (bs : List Byte), s.mvbOn = true →
    s.mvbLineEn (planeIdx line) = true → s.mvbEntry a.toNat false = some e → bs.length = s.mvbSize e →
    (∀ l0 d0, s.mvb.tel = some (a.toNat, some (l0, d0)) → l0 = line) → s.routing = false →
    Store.wf (fun _ => (0 : Byte)) s.mvb.bytes = true → Store.wf (fun _ => 0) s.mvb.at' = true →
    Store.wf tableReset s.tables = true → s.regsOk → ∃ t, exec (.mvbSlaveFrame line a bs) s = .next t ∧
    t.mvbData e = bs ∧ t.mvb.tel = some (a.toNat, some (line, bs)) ∧ Store.get (fun _ => 0) t.mvb.at' e = s.now + 1 ∧
    t.mvbLineOk (planeIdx line) = true ∧ Vec.at t.mvb.run (planeIdx line) 0 = 0 ∧
    t.rd (Reg.mvbFrm (planeIdx line)) = satInc (s.rd (Reg.mvbFrm (planeIdx line))) 0xffffffff) ∧
  (∀ (s : State) (line l0 : Plane) (a : BitVec 12) (e : Nat) (bs d0 : List Byte), s.mvbOn = true →
    s.mvbLineEn (planeIdx line) = true → s.mvbEntry a.toNat false = some e → bs.length = s.mvbSize e →
    s.mvb.tel = some (a.toNat, some (l0, d0)) → l0 ≠ line → s.regsOk →
    ∃ t, exec (.mvbSlaveFrame line a bs) s = .next t ∧ t.mvb.bytes = s.mvb.bytes ∧
    (d0 ≠ bs → t.mvb.dis = setBit s.mvb.dis (planeIdx line) true) ∧ (d0 = bs → t.mvb.dis = s.mvb.dis)) ∧
  (∀ (s : State) (line : Plane) (a : BitVec 12) (bs : List Byte), (s.mvbOn = false ∨ s.mvbLineEn (planeIdx line) =
      false ∨ s.mvbEntry a.toNat false = none) → exec (.mvbSlaveFrame line a bs) s = .next (s)) ∧
  (∀ (s : State) (line : Plane), s.mvbOn = true → s.mvbLineEn (planeIdx line) = true →
    (bit s.mvb.dis (planeIdx line) = true ∨ 16 ≤ Vec.at s.mvb.run (planeIdx line) 0) → s.regsOk →
    ∃ t, exec (.mvbLineBad line) s = .next t ∧ t.mvbLineOk (planeIdx line) = false ∧
    bit (t.rd 0x2c010) (planeIdx line) = true ∧ s.reports t (0x2c01 + planeIdx line) [wd (planeIdx line)] ∧
    bit t.mvb.dis (planeIdx line) = false ∧ Vec.at t.mvb.run (planeIdx line) 0 = 0) ∧
  (∀ (s : State) (line : Plane), (s.mvbOn = false ∨ s.mvbLineEn (planeIdx line) = false ∨ (bit s.mvb.dis (planeIdx
      line) = false ∧ Vec.at s.mvb.run (planeIdx line) 0 < 16)) → exec (.mvbLineBad line) s = .next (s)) ∧
  (∀ (s : State) (e : Fin 256), s.mvbOn = true → bit (s.tbl 3 e 0) 31 = true → bit (s.tbl 3 e 0) 16 = false →
    fld (s.tbl 3 e 1) 0 16 ≠ 0 → bit (s.tbl 3 e 2) 16 = false →
    Store.get (fun _ => 0) s.mvb.at' e - 1 + 1000000 * fld (s.tbl 3 e 1) 0 16 ≤ s.now →
    Store.wf tableReset s.tables = true → s.regsOk → ∃ t, exec (.mvbSinkStale e) s = .next t ∧
    bit (t.tbl 3 e 2) 16 = true ∧ bit (t.rd 0x2c010) 2 = true ∧ s.reports t 0x2c03 [wd e] ∧ t.mvb = s.mvb) ∧
  (∀ (s : State) (e : Fin 256), (s.mvbOn = false ∨ bit (s.tbl 3 e 0) 31 = false ∨ bit (s.tbl 3 e 0) 16 = true ∨ fld
      (s.tbl 3 e 1) 0 16 = 0 ∨ bit (s.tbl 3 e 2) 16 = true ∨ s.now < Store.get (fun _ => 0) s.mvb.at' e - 1 + 1000000 *
      fld (s.tbl 3 e 1) 0 16) → exec (.mvbSinkStale e) s = .next (s)) ∧
  (∀ (s : State) (e : Fin 4096) (bs : List Byte) (d : Fin 4), s.routing = true → (s.ent e).held = some bs →
    (s.ent e).fwdAt - 1 + 1000 * (s.route e).miniv ≤ s.now → (s.route e).dport = d.val → s.canErrst d < 2 →
    ((s.buf (s.route e).sport d).filter fun m => !m.side).length < 16 →
    Store.wf (fun _ => ([] : List BMsg)) s.brg.bufs = true → Store.wf (fun _ => EntSt.zero) s.brg.ents = true →
    s.regsOk → ∃ t, exec (.minivRelease e) s = .next t ∧
    t.buf (s.route e).sport d = s.buf (s.route e).sport d ++ [⟨e, false, (s.route e).frame bs⟩] ∧
    (t.ent e).held = none ∧ (t.ent e).fwdAt = s.now + 1 ∧
    t.rd Reg.brgFwdcnt = satInc (s.rd Reg.brgFwdcnt) 0xffffffff) ∧
  (∀ (s : State) (e : Fin 4096), (s.routing = false ∨ (s.ent e).held = none ∨ s.now < (s.ent e).fwdAt - 1 + 1000 *
      (s.route e).miniv) → exec (.minivRelease e) s = .next (s)) ∧
  (∀ (s : State) (c : Fin 4), s.bridgeRuns = true → s.brg.pollMs < s.now / 1000000 → s.routing = false →
    s.maps = [] → s.regsOk → ∃ t, exec .bridgePoll s = .next t ∧ t.brg.pollMs = s.now / 1000000 ∧
    fld (t.rd (Reg.canStat c)) 8 8 = satNat 255 (s.canCh c).tec ∧
    fld (t.rd (Reg.canStat c)) 16 8 = satNat 255 (s.canCh c).rec' ∧ t.cans = s.cans) ∧
  (∀ (s : State) (e : Nat), s.routing = true → s.brg.pollMs < s.now / 1000000 → s.routes = [e] →
    (s.enabled 3 0) = [] → s.maps = [] → (s.route e).priv = false → Store.wf tableReset s.tables = true →
    Store.wf (fun _ => EntSt.zero) s.brg.ents = true → s.regsOk → ∃ t, exec .bridgePoll s = .next t ∧
    (t.ent e).stat = BitVec.ofNat 8 (s.lineOf (s.route e).sport + 4 * b2n (s.entStale e)) ∧
    bit (t.tbl 4 e 8) 0 = s.entStale e ∧ fld (t.tbl 4 e 8) 8 8 = (t.ent e).stat.toNat ∧
    (s.entStale e = true → bit (s.tbl 4 e 8) 0 = false → t.rd Reg.brgLaststale = wd (e + 0x80000000) ∧ s.reports t
      0x2d02 [wd e])) ∧
  (∀ (s : State), (s.bridgeRuns = false ∨ s.now / 1000000 ≤ s.brg.pollMs) → exec .bridgePoll s = .next (s))

/-- The ordinary clock (R342 to R348). Where its conditions do not hold, a command changes nothing. -/
def Obligations.OrdinaryClockFollowsItsMaster : Prop :=
  (∀ (s : State) (h : PtpHdr) (two : Bool) (o r : Nat), s.ptpOn = true → s.fromMaster h = false → s.regsOk →
    ∃ t, exec (.ptpSyncRx h two o r) s = .next t ∧ t.rd Reg.ptpCntdisc = satInc (s.rd Reg.ptpCntdisc) 0xffffffff ∧
    (∀ a, a ≠ Reg.ptpCntdisc → t.rd a = s.rd a) ∧ t.ptp = s.ptp) ∧
  (∀ (s : State) (h : PtpHdr) (o r : Nat), s.ptpOn = true → s.fromMaster h = true → s.regsOk →
    ∃ t, exec (.ptpSyncRx h true o r) s = .next t ∧ t.rd Reg.ptpCntsync = satInc (s.rd Reg.ptpCntsync) 0xffffffff ∧
    t.ptp.sync = some (h.src, h.seq, r, h.corr) ∧ t.ptp.syncAt = s.now ∧ t.ptp.integ = s.ptp.integ ∧ t.now = s.now) ∧
  (∀ (s : State) (h : PtpHdr) (o r : Nat), s.ptpOn = true → s.fromMaster h = true → s.twn.role ≠ .standby →
    ∃ t, exec (.ptpSyncRx h false o r) s = .next t ∧
    t = ((s.count Reg.ptpCntsync).modPtp fun p =>
      { p with syncAt := s.now, sync := none, ms := (r : Int) - o - h.corr }).servo ((r : Int) - o - h.corr -
      s.ptp.mpd) ∧ t.ptp.offs = (r : Int) - o - h.corr - s.ptp.mpd) ∧
  (∀ (s : State) (h : PtpHdr) (two : Bool) (o r : Nat), s.ptpOn = false →
    exec (.ptpSyncRx h two o r) s = .next (s)) ∧
  (∀ (s : State) (h : PtpHdr) (o t2 : Nat) (c : Int), s.ptpOn = true → s.fromMaster h = true →
    s.ptp.sync = some (h.src, h.seq, t2, c) → s.twn.role ≠ .standby → ∃ t, exec (.ptpFollowUpRx h o) s = .next t ∧
    t = (s.modPtp fun p => { p with sync := none, ms := (t2 : Int) - o - (c + h.corr) }).servo ((t2 : Int) - o - (c +
      h.corr) - s.ptp.mpd) ∧ t.ptp.sync = none) ∧
  (∀ (s : State) (h : PtpHdr) (o : Nat), s.ptpOn = true →
    (s.ptp.sync = none ∨ ∀ src seq t2 c, s.ptp.sync = some (src, seq, t2, c) → s.fromMaster h = false ∨ h.src ≠ src ∨
      h.seq ≠ seq) → s.regsOk → ∃ t, exec (.ptpFollowUpRx h o) s = .next t ∧
    t.rd Reg.ptpCntdisc = satInc (s.rd Reg.ptpCntdisc) 0xffffffff ∧ (∀ a, a ≠ Reg.ptpCntdisc → t.rd a = s.rd a) ∧
    t.ptp = s.ptp) ∧
  (∀ (s : State) (h : PtpHdr) (o : Nat), s.ptpOn = false → exec (.ptpFollowUpRx h o) s = .next (s)) ∧
  (∀ (s : State) (h : PtpHdr) (a : Announce), s.ptpOn = true → h.domain.toNat = fld (s.rd Reg.ptpDomain) 0 8 →
    h.plane = s.ptpPlane → s.ptpBoth = false → s.ptp.heard = [] → s.regsOk →
    ∃ t, exec (.ptpAnnounceRx h a) s = .next t ∧ t.rd Reg.ptpCntann = satInc (s.rd Reg.ptpCntann) 0xffffffff ∧
    t.ptp.heard = [⟨h.src, h.plane, a, 1, s.now⟩] ∧ t.ptp.master = s.ptp.master ∧ t.sstate = s.sstate) ∧
  (∀ (s : State) (h : PtpHdr) (a a' : Announce) (l : Nat), s.ptpOn = true →
    h.domain.toNat = fld (s.rd Reg.ptpDomain) 0 8 → h.plane = s.ptpPlane → s.ptpBoth = false →
    s.ptp.heard = [⟨h.src, h.plane, a', 1, l⟩] → l ≤ s.now → s.now ≤ l + 4 * s.annInterval → 0 < s.annTimeout →
    h.src ≠ Config.clockId → s.ptp.master = none → bit (s.rd Reg.ptpCtrl) 2 = true → s.regsOk →
    ∃ t, exec (.ptpAnnounceRx h a) s = .next t ∧ t.ptp.master = some h.src ∧ t.ptp.annAt = s.now ∧ t.sstate = 1 ∧
    t.rd64 Reg.ptpGmidLo = a.gm.toNat ∧ t.ptpMaster = false) ∧
  (∀ (s : State) (h : PtpHdr) (a : Announce), s.ptpOn = true →
    (h.domain.toNat ≠ fld (s.rd Reg.ptpDomain) 0 8 ∨ (h.plane ≠ s.ptpPlane ∧ s.ptpBoth = false)) → s.regsOk →
    ∃ t, exec (.ptpAnnounceRx h a) s = .next t ∧ t.rd Reg.ptpCntdisc = satInc (s.rd Reg.ptpCntdisc) 0xffffffff ∧
    (∀ a, a ≠ Reg.ptpCntdisc → t.rd a = s.rd a) ∧ t.ptp = s.ptp) ∧
  (∀ (s : State) (h : PtpHdr) (a : Announce), s.ptpOn = false → exec (.ptpAnnounceRx h a) s = .next (s)) ∧
  (∀ (s : State) (h : PtpHdr) (t3 t4 : Nat), s.ptpOn = true → s.fromMaster h = true → s.ptpP2p = false →
    s.ptp.req = some (h.seq, t3) → s.regsOk → ∃ t, exec (.ptpDelayRespRx h t4) s = .next t ∧
    t.ptp.mpd = Int.tdiv (s.ptp.ms + ((t4 : Int) - t3 - h.corr)) 2 ∧ t.rd Reg.ptpMpd = wi t.ptp.mpd ∧
    t.ptp.req = none) ∧
  (∀ (s : State) (h : PtpHdr) (t4 : Nat), s.ptpOn = true →
    (s.fromMaster h = false ∨ s.ptpP2p = true ∨ s.ptp.req = none ∨ ∀ seq t3, s.ptp.req = some (seq, t3) → h.seq ≠ seq)
      → s.regsOk → ∃ t, exec (.ptpDelayRespRx h t4) s = .next t ∧
    t.rd Reg.ptpCntdisc = satInc (s.rd Reg.ptpCntdisc) 0xffffffff ∧ (∀ a, a ≠ Reg.ptpCntdisc → t.rd a = s.rd a) ∧
    t.ptp = s.ptp) ∧
  (∀ (s : State) (h : PtpHdr) (t4 : Nat), s.ptpOn = false → exec (.ptpDelayRespRx h t4) s = .next (s)) ∧
  (∀ (s : State) (h : PtpHdr) (a b : Nat), s.ptpOn = true → s.ptpFits h = true → s.ptpP2p = true →
    ∃ t, exec (.ptpPdelayRx h .pdelayReq a b) s = .next t ∧
    t = (s.ptpSend .pdelayResp h.seq true b 54).ptpSend .pdelayRespFollowUp h.seq false s.now 54) ∧
  (∀ (s : State) (h : PtpHdr) (a b t1 : Nat), s.ptpOn = true → s.ptpFits h = true → s.ptpP2p = true →
    s.ptp.req = some (h.seq, t1) → ∃ t, exec (.ptpPdelayRx h .pdelayResp a b) s = .next t ∧
    t.ptp.pdResp = some (h.src, h.seq, a, b, h.corr) ∧ t.regs = s.regs) ∧
  (∀ (s : State) (h : PtpHdr) (t3 b t1 t2 t4 : Nat) (c : Int), s.ptpOn = true → s.ptpFits h = true →
    s.ptpP2p = true → s.ptp.req = some (h.seq, t1) → s.ptp.pdResp = some (h.src, h.seq, t2, t4, c) → s.regsOk →
    ∃ t, exec (.ptpPdelayRx h .pdelayRespFollowUp t3 b) s = .next t ∧
    t.ptp.mpd = Int.tdiv (((t4 : Int) - t1) - ((t3 : Int) - t2) - c - h.corr) 2 ∧ t.rd Reg.ptpMpd = wi t.ptp.mpd ∧
    t.ptp.req = none) ∧
  (∀ (s : State) (h : PtpHdr) (k : PtpKind) (a b : Nat), s.ptpOn = true →
    (s.ptpFits h = false ∨ s.ptpP2p = false ∨ k ∉ [.pdelayReq, .pdelayResp, .pdelayRespFollowUp] ∨ (k ≠ .pdelayReq ∧
      s.ptp.req = none)) → s.regsOk → ∃ t, exec (.ptpPdelayRx h k a b) s = .next t ∧
    t.rd Reg.ptpCntdisc = satInc (s.rd Reg.ptpCntdisc) 0xffffffff ∧ (∀ a, a ≠ Reg.ptpCntdisc → t.rd a = s.rd a) ∧
    t.ptp = s.ptp) ∧
  (∀ (s : State) (h : PtpHdr) (k : PtpKind) (a b : Nat), s.ptpOn = false →
    exec (.ptpPdelayRx h k a b) s = .next (s)) ∧
  (∀ (s : State) (h : PtpHdr) (t4 : Nat), s.ptpOn = true → s.ptpFits h = true → s.ptpMaster = true →
    s.ptpP2p = false → ∃ t, exec (.ptpDelayReqRx h t4) s = .next t ∧ t = s.ptpSend .delayResp h.seq false t4 54) ∧
  (∀ (s : State) (h : PtpHdr) (t4 : Nat), s.ptpOn = true →
    (s.ptpFits h = false ∨ s.ptpMaster = false ∨ s.ptpP2p = true) → s.regsOk →
    ∃ t, exec (.ptpDelayReqRx h t4) s = .next t ∧ t.rd Reg.ptpCntdisc = satInc (s.rd Reg.ptpCntdisc) 0xffffffff ∧
    (∀ a, a ≠ Reg.ptpCntdisc → t.rd a = s.rd a) ∧ t.ptp = s.ptp) ∧
  (∀ (s : State) (h : PtpHdr) (t4 : Nat), s.ptpOn = false → exec (.ptpDelayReqRx h t4) s = .next (s)) ∧
  (∀ (s : State), s.ptpOn = true → s.ptpMaster = true → ∃ t, exec .ptpSyncTx s = .next t ∧
    t = ((s.modPtp fun p => { p with seqSync := p.seqSync + 1 }).ptpSend .sync s.ptp.seqSync true 0 44).ptpSend
      .followUp s.ptp.seqSync false s.now 44) ∧
  (∀ (s : State), (s.ptpOn = false ∨ s.ptpMaster = false) → exec .ptpSyncTx s = .next (s)) ∧
  (∀ (s : State), s.ptpOn = true → s.ptpMaster = true → ∃ t, exec .ptpAnnounceTx s = .next t ∧
    t = (s.modPtp fun p => { p with seqAnn := p.seqAnn + 1 }).ptpSend .announce s.ptp.seqAnn false s.now 64) ∧
  (∀ (s : State), (s.ptpOn = false ∨ s.ptpMaster = false) → exec .ptpAnnounceTx s = .next (s)) ∧
  (∀ (s : State), s.ptpOn = true → s.ptpP2p = false → s.ptp.master.isSome = true →
    ∃ t, exec .ptpDelayReqTx s = .next t ∧
    t = (s.modPtp fun p => { p with seqReq := p.seqReq + 1, req := some (p.seqReq, s.now), pdResp := none }).ptpSend
      .delayReq s.ptp.seqReq false s.now 44) ∧
  (∀ (s : State), s.ptpOn = true → s.ptpP2p = true → ∃ t, exec .ptpDelayReqTx s = .next t ∧
    t = (s.modPtp fun p => { p with seqReq := p.seqReq + 1, req := some (p.seqReq, s.now), pdResp := none }).ptpSend
      .pdelayReq s.ptp.seqReq false s.now 54) ∧
  (∀ (s : State), (s.ptpOn = false ∨ (s.ptpP2p = false ∧ s.ptp.master = none)) → exec .ptpDelayReqTx s = .next (s)) ∧
  (∀ (s : State) (m : Dword), s.ptpOn = true → s.ptp.master = some m →
    (s.ptp.annAt + s.annTimeout ≤ s.now ∨ s.ptp.syncAt + 4 * s.syncInterval ≤ s.now) → s.qualified .a = [] →
    s.qualified .b = [] → s.regsOk → ∃ t, exec .ptpMasterLost s = .next t ∧ t.sstate = 3 ∧ t.ptp.master = none ∧
    t.ptp.holdFrom = some s.now ∧ t.rd Reg.ptpRate = t.rd Reg.ptpHoldrate ∧ bit (t.rd 0x24010) 1 = true ∧
    s.reports t 0x2401 []) ∧
  (∀ (s : State), s.ptpOn = true → s.ptp.master = none → s.ptpMaster = false → s.safeLatch = false →
    bit (s.rd Reg.ptpCtrl) 2 = false → s.ptp.annAt + s.annTimeout ≤ s.now → s.qualified s.ptpPlane = [] → s.regsOk →
    ∃ t, exec .ptpMasterLost s = .next t ∧ t.ptpMaster = true ∧ t.ptp = s.ptp) ∧
  (∀ (s : State), (s.alive = false ∨ (s.now < s.ptp.annAt + s.annTimeout ∧ s.now < s.ptp.syncAt + 4 *
      s.syncInterval)) → exec .ptpMasterLost s = .next (s)) ∧
  (∀ (s : State) (f : Nat), s.alive = true → s.sstate = 3 → s.ptp.longTold = false → s.ptp.holdFrom = some f →
    f + 1000000000 * fld (s.rd Reg.ptpHoldmax) 0 16 < s.now → s.regsOk → ∃ t, exec .holdoverLong s = .next t ∧
    t.ptp.longTold = true ∧ bit (t.rd 0x24010) 4 = true ∧ s.reports t 0x2404 [] ∧ t.sstate = 3) ∧
  (∀ (s : State), (s.alive = false ∨ s.sstate ≠ 3 ∨ s.ptp.longTold = true ∨ s.ptp.holdFrom = none ∨ ∀ f,
      s.ptp.holdFrom = some f → s.now ≤ f + 1000000000 * fld (s.rd Reg.ptpHoldmax) 0 16) →
    exec .holdoverLong s = .next (s))

/-- Module time, its steps and the time pins (R339, R341, R350 to R354, R357, R359, R451). Where its conditions do not hold, a
command changes nothing. -/
def Obligations.TimePinsAndSteps : Prop :=
  (∀ (s : State) (n : Fin 8) (d : Nat), (s.pin n).due = some d → s.pinsOn = true → d ≤ s.now → s.pinMode n = 2 →
    s.regsOk → ∃ t, exec (.tpinPulseStart n) s = .next t ∧ t.outbox = s.outbox ++ [.pin n true] ∧
    (t.pin n).running = some (d + (s.rd (Reg.tpinWidth n)).toNat) ∧
    (t.pin n).due = some (d + (s.rd (Reg.tpinPeriod n)).toNat) ∧ (t.pin n).late = (s.pin n).late ∧ t.regs = s.regs ∧
    (∀ m : Fin 8, m ≠ n → t.pin m = s.pin m)) ∧
  (∀ (s : State) (n : Fin 8) (d : Nat), (s.pin n).due = some d → s.pinsOn = true → d ≤ s.now → s.pinMode n = 1 →
    d ≠ (s.pin n).start → s.regsOk → ∃ t, exec (.tpinPulseStart n) s = .next t ∧ t.outbox = s.outbox ++ [.pin n true] ∧
    (t.pin n).running = some (d + (s.rd (Reg.tpinWidth n)).toNat) ∧ (t.pin n).due = none ∧ (t.pin n).late = true ∧
    bit (t.rd 0x19010) 16 = true ∧ s.reports t 0x1903 [wd n]) ∧
  (∀ (s : State) (n : Fin 8) (d : Nat), (s.pin n).due = some d → s.pinsOn = true → d ≤ s.now → s.pinMode n ≠ 2 →
    (s.pinMode n = 1 → d = (s.pin n).start) → ∃ t, exec (.tpinPulseStart n) s = .next t ∧
    t.outbox = s.outbox ++ [.pin n true] ∧ (t.pin n).running = some (d + (s.rd (Reg.tpinWidth n)).toNat) ∧
    (t.pin n).due = none ∧ (t.pin n).late = (s.pin n).late ∧ t.regs = s.regs) ∧
  (∀ (s : State) (n : Fin 8), (s.pinsOn = false ∨ (s.pin n).due = none ∨ ∀ d, (s.pin n).due = some d → s.now < d) →
    exec (.tpinPulseStart n) s = .next (s)) ∧
  (∀ (s : State) (n : Fin 8) (e : Nat), s.alive = true → (s.pin n).running = some e → e ≤ s.now →
    ∃ t, exec (.tpinPulseEnd n) s = .next t ∧ t.outbox = s.outbox ++ [.pin n false] ∧ (t.pin n).running = none ∧
    (t.pin n).due = (s.pin n).due ∧ t.regs = s.regs) ∧
  (∀ (s : State) (n : Fin 8), (s.alive = false ∨ (s.pin n).running = none ∨ ∀ e, (s.pin n).running = some e → s.now <
      e) → exec (.tpinPulseEnd n) s = .next (s)) ∧
  (∀ (s : State) (n : Fin 8) (r : Bool) (a b c : Nat), s.pinsOn = true → s.pinMode n = 3 →
    bit (s.rd (Reg.tpinPincfg n)) (if r then 4 else 5) = true → (s.pin n).edge = none →
    ∃ t, exec (.tpinCaptureEdge n r a b c) s = .next t ∧ (t.pin n).edge = some (a, b, c) ∧
    (t.pin n).miss = (s.pin n).miss ∧ t.regs = s.regs) ∧
  (∀ (s : State) (n : Fin 8) (r : Bool) (a b c : Nat), s.pinsOn = true → s.pinMode n = 3 →
    bit (s.rd (Reg.tpinPincfg n)) (if r then 4 else 5) = true → (s.pin n).edge.isSome = true → s.regsOk →
    ∃ t, exec (.tpinCaptureEdge n r a b c) s = .next t ∧ (t.pin n).edge = (s.pin n).edge ∧
    (t.pin n).miss = satNat 255 ((s.pin n).miss + 1) ∧ bit (t.rd 0x19010) (8 + n.val) = true ∧
    ((s.pin n).missAt = none → s.reports t 0x1902 [wd n])) ∧
  (∀ (s : State) (n : Fin 8) (r : Bool) (a b c : Nat), (s.pinsOn = false ∨ s.pinMode n ≠ 3 ∨ bit (s.rd
      (Reg.tpinPincfg n)) (if r then 4 else 5) = false) → exec (.tpinCaptureEdge n r a b c) s = .next (s)) ∧
  (∀ (s : State), s.allowsWrite .pf0 Reg.ptpSetcmd 1 = true → s.eng.mode = .stop → s.regsOk →
    ∃ t, exec (.timeSetCmd .pf0) s = .next t ∧ t.now = s.rd64 Reg.ptpSettimeLo ∧ bit (t.rd 0x24010) 3 = true ∧
    ({ s with now := s.rd64 Reg.ptpSettimeLo } : State).reports t 0x2403 []) ∧
  (∀ (s : State), s.allowsWrite .pf0 Reg.ptpSetcmd 1 = true → s.eng.mode ≠ .stop →
    ∃ t, exec (.timeSetCmd .pf0) s = .next t ∧ t = s.evt 0x24 0x40000000) ∧
  (∀ (s : State), s.allowsWrite .pf0 Reg.ptpTsnap 1 = true → s.now < 2 ^ 64 → s.regsOk →
    ∃ t, exec (.timeSnapshot .pf0) s = .next t ∧ t.rd64 Reg.ptpTimeLo = s.now ∧
    t.rd Reg.ptpOffs = wi (max (-2147483648) (min 2147483647 s.ptp.offs)) ∧ t.ptp = s.ptp) ∧
  (∀ (s : State), s.allowsWrite .pf0 Reg.sysSnap 1 = true → s.now < 2 ^ 64 → s.regsOk →
    ∃ t, exec (.mtimeSnapshot .pf0) s = .next t ∧ t.rd64 Reg.sysMtimeLo = s.now ∧
    (∀ a, a ≠ Reg.sysMtimeLo → a ≠ Reg.sysMtimeLo + 4 → t.rd a = s.rd a)) ∧
  (∀ (s : State) (n : Fin 8) (v : Word), s.allowsWrite .pf0 (Reg.tpinWidth n) v = true →
    pinTimesOk (s.rd (Reg.tpinPeriod n)).toNat v.toNat = true → s.regsOk →
    ∃ t, exec (.tpinConfigWrite .pf0 n 4 v) s = .next t ∧ t.rd (Reg.tpinWidth n) = v ∧
    (∀ a, a ≠ Reg.tpinWidth n → t.rd a = s.rd a) ∧ t.pins = s.pins) ∧
  (∀ (s : State) (n : Fin 8) (v : Word), s.allowsWrite .pf0 (Reg.tpinWidth n) v = true →
    pinTimesOk (s.rd (Reg.tpinPeriod n)).toNat v.toNat = false → ∃ t, exec (.tpinConfigWrite .pf0 n 4 v) s = .next t ∧
    t = s.evt 0x19 0x40000000)

/-- The mailbox channels (R366 to R375, R384, R385). Where its conditions do not hold, a command changes nothing. -/
def Obligations.MailboxesCarryMessages : Prop :=
  (∀ (s : State) (pf : Pf) (n : Fin 32) (v : Word) (a : Bool), s.allowsWrite pf (Reg.mbxTxword n) v = true →
    s.pfEnd pf n = some a → ((s.chan n).staging a).length < 16 → ∃ t, exec (.mbTxWord pf n v) s = .next t ∧
    (t.chan n).staging a = (s.chan n).staging a ++ [v] ∧ (t.chan n).txq a = (s.chan n).txq a ∧
    (∀ m : Fin 32, m ≠ n → t.chan m = s.chan m) ∧ t.regs = s.regs) ∧
  (∀ (s : State) (pf : Pf) (n : Fin 32) (v : Word) (a : Bool), s.allowsWrite pf (Reg.mbxTxword n) v = true →
    s.pfEnd pf n = some a → 16 ≤ ((s.chan n).staging a).length → s.regsOk → ∃ t, exec (.mbTxWord pf n v) s = .next t ∧
    (t.chan n).staging a = [] ∧ bit (t.chan n).flags (6 + b2n (!a)) = true ∧
    t.rd 0x31010 = s.rd 0x31010 ||| 0x40000008) ∧
  (∀ (s : State) (pf : Pf) (n : Fin 32) (v : Word), s.allowsWrite pf (Reg.mbxTxword n) v = true →
    s.pfEnd pf n = none → exec (.mbTxWord pf n v) s = .next (s.refuse 0x31)) ∧
  (∀ (s : State) (pf : Pf) (n : Fin 32) (len : BitVec 5) (a : Bool) (st : List Word), s.allowsWrite pf
      (Reg.mbxTxcommit n) (len.zeroExtend 32) = true → s.pfEnd pf n = some a → s.chanEn n = true →
    (s.peerMid n a = 1 → s.twn.role ≠ .standby) → (s.chan n).staging a = st → len.toNat = st.length → st ≠ [] →
    (16 ≤ n.val → st.length = 2 ∧ noticeOk n st = true) → chanRoom n ((s.chan n).txq a) st.length = true → s.regsOk →
    ∃ t, exec (.mbTxCommit pf n len) s = .next t ∧ (t.chan n).txq a = (s.chan n).txq a ++ [⟨(s.chan n).epoch a, st⟩] ∧
    (t.chan n).staging a = [] ∧ (t.chan n).txq (!a) = (s.chan n).txq (!a) ∧
    (s.peerMid n a ≠ 1 → bit (t.rd (Reg.dblDb (s.peerMid n a))) n = true)) ∧
  (∀ (s : State) (pf : Pf) (n : Fin 32) (len : BitVec 5) (a : Bool), s.allowsWrite pf (Reg.mbxTxcommit n)
      (len.zeroExtend 32) = true → s.pfEnd pf n = some a → s.chanEn n = true → len ≠ 0 →
    (len.toNat ≠ ((s.chan n).staging a).length ∨ (16 ≤ n.val ∧ (len.toNat ≠ 2 ∨ noticeOk n ((s.chan n).staging a) =
      false))) → s.regsOk → ∃ t, exec (.mbTxCommit pf n len) s = .next t ∧ (t.chan n).staging a = [] ∧
    (t.chan n).txq a = (s.chan n).txq a ∧ bit (t.chan n).flags (6 + b2n (!a)) = true ∧ bit (t.rd 0x31010) 3 = true) ∧
  (∀ (s : State) (pf : Pf) (n : Fin 32) (len : BitVec 5) (a : Bool), s.allowsWrite pf (Reg.mbxTxcommit n)
      (len.zeroExtend 32) = true → s.pfEnd pf n = some a → s.chanEn n = true →
    (16 ≤ n.val → len.toNat = 2 ∧ noticeOk n ((s.chan n).staging a) = true) → len ≠ 0 →
    len.toNat = ((s.chan n).staging a).length → chanRoom n ((s.chan n).txq a) len.toNat = false → s.regsOk →
    ∃ t, exec (.mbTxCommit pf n len) s = .next t ∧ (t.chan n).staging a = (s.chan n).staging a ∧
    (t.chan n).txq a = (s.chan n).txq a ∧ bit (t.chan n).flags (4 + b2n (!a)) = true ∧ bit (t.rd 0x31010) 2 = true) ∧
  (∀ (s : State) (pf : Pf) (n : Fin 32) (len : BitVec 5), s.allowsWrite pf (Reg.mbxTxcommit n) (len.zeroExtend 32) =
      true → (s.pfEnd pf n = none ∨ (len ≠ 0 ∧ s.chanEn n = false)) →
    exec (.mbTxCommit pf n len) s = .next (s.refuse 0x31)) ∧
  (∀ (s : State) (pf : Pf) (n : Fin 32) (a : Bool), s.allowsWrite pf (Reg.mbxTxcommit n) 0 = true →
    s.pfEnd pf n = some a → ∃ t, exec (.mbTxCommit pf n 0) s = .next t ∧ (t.chan n).staging a = [] ∧
    (t.chan n).txq a = (s.chan n).txq a ∧ t.regs = s.regs) ∧
  (∀ (s : State) (pf : Pf) (n : Fin 32) (a : Bool), s.allowsWrite pf (Reg.mbxTxcommit n) 0 = true →
    s.pfEnd pf n = some a → ∃ t, exec (.mbTxDiscard pf n) s = .next t ∧ (t.chan n).staging a = [] ∧
    (t.chan n).txq a = (s.chan n).txq a ∧ (t.chan n).flags = (s.chan n).flags ∧ t.regs = s.regs) ∧
  (∀ (s : State) (pf : Pf) (n : Fin 32), s.allowsWrite pf (Reg.mbxTxcommit n) 0 = true → s.pfEnd pf n = none →
    exec (.mbTxDiscard pf n) s = .next (s.refuse 0x31)) ∧
  (∀ (s : State) (pf : Pf) (v : Word), s.allowsWrite pf (Reg.mbxRxsel (pfIdx pf)) v = true → s.regsOk →
    ∃ t, exec (.mbRxSelect pf v) s = .next t ∧ t.rd (Reg.mbxRxsel (pfIdx pf)) = v &&& 0x1f ∧
    bit (t.rd (Reg.mbxRxinfo (pfIdx pf))) 30 = true ∧ t.host = s.host) ∧
  (∀ (s : State) (pf : Pf) (m : MbMsg), s.alive = true → bit (s.rd (Reg.mbxRxinfo (pfIdx pf))) 30 = true →
    s.mbHead (fld (s.rd (Reg.mbxRxsel (pfIdx pf))) 0 5) (pfMid pf) = some m → s.regsOk →
    ∃ t, exec (.mbRxWindowReady pf) s = .next t ∧
    t.rd (Reg.mbxRxinfo (pfIdx pf)) = wd (m.words.length + 256 * m.epoch.toNat + 0x80000000) ∧
    (∀ j : Fin 16, t.rd (Reg.mbxRxdata (pfIdx pf) j) = m.words.getD j 0) ∧ t.host = s.host) ∧
  (∀ (s : State) (pf : Pf), s.alive = true → bit (s.rd (Reg.mbxRxinfo (pfIdx pf))) 30 = true →
    s.mbHead (fld (s.rd (Reg.mbxRxsel (pfIdx pf))) 0 5) (pfMid pf) = none → s.regsOk →
    ∃ t, exec (.mbRxWindowReady pf) s = .next t ∧ t.rd (Reg.mbxRxinfo (pfIdx pf)) = 0 ∧
    (∀ j : Fin 16, t.rd (Reg.mbxRxdata (pfIdx pf) j) = 0)) ∧
  (∀ (s : State) (pf : Pf), (s.alive = false ∨ bit (s.rd (Reg.mbxRxinfo (pfIdx pf))) 30 = false) →
    exec (.mbRxWindowReady pf) s = .next (s)) ∧
  (∀ (s : State) (pf : Pf) (n : Fin 32) (a : Bool) (m : MbMsg) (r : List MbMsg), s.allowsWrite pf (Reg.mbxRxpop n) 1
      = true → s.pfEnd pf n = some a → (s.chan n).txq (!a) = m :: r → s.regsOk →
    ∃ t, exec (.mbRxPop pf n) s = .next t ∧ (t.chan n).txq (!a) = r ∧ (t.chan n).txq a = (s.chan n).txq a ∧
    (t.chan n).popBA = (s.chan n).popBA + (if a then 1 else 0) ∧
    (t.chan n).popAB = (s.chan n).popAB + (if a then 0 else 1) ∧
    (fld (s.rd (Reg.mbxRxsel (pfIdx pf))) 0 5 = n → bit (t.rd (Reg.mbxRxinfo (pfIdx pf))) 30 = true)) ∧
  (∀ (s : State) (pf : Pf) (n : Fin 32), s.allowsWrite pf (Reg.mbxRxpop n) 1 = true → s.pfEnd pf n = none →
    exec (.mbRxPop pf n) s = .next (s.refuse 0x31)) ∧
  (∀ (s : State) (pf : Pf) (n : Fin 32) (a : Bool), s.allowsWrite pf (Reg.mbxRxpop n) 1 = true →
    s.pfEnd pf n = some a → (s.chan n).txq (!a) = [] → exec (.mbRxPop pf n) s = .next (s)) ∧
  (∀ (s : State) (pf : Pf) (n : Fin 32) (a : Bool), s.allowsWrite pf (Reg.mbxEndrst n) 1 = true →
    s.pfEnd pf n = some a → n.val < 16 → s.regsOk → ∃ t, exec (.mbEndReset pf n) s = .next t ∧
    (t.chan n).staging a = [] ∧ (t.chan n).txq (!a) = [] ∧ (t.chan n).txq a = (s.chan n).txq a ∧
    (t.chan n).epoch a = (s.chan n).epoch a + 1 ∧ bit (t.chan n).flags (b2n a) = true ∧ bit (t.rd 0x31010) 0 = true ∧
    (s.peerMid n a ≠ 1 → bit (t.rd (Reg.dblDb (s.peerMid n a))) n = true ∧ s.reports t 0x3101 [wd n])) ∧
  (∀ (s : State) (pf : Pf) (n : Fin 32) (a : Bool), s.allowsWrite pf (Reg.mbxEndrst n) 1 = true →
    s.pfEnd pf n = some a → 16 < n.val → (s.chan n).txq (!a) ≠ [] → s.regsOk →
    ∃ t, exec (.mbEndReset pf n) s = .next t ∧ (t.chan n).txq (!a) = [] ∧ bit (t.chan n).flags (b2n a) = true ∧
    bit (t.chan n).flags (2 + b2n a) = true ∧ bit (t.rd 0x31010) 1 = true) ∧
  (∀ (s : State) (pf : Pf) (n : Fin 32), s.allowsWrite pf (Reg.mbxEndrst n) 1 = true → s.pfEnd pf n = none →
    exec (.mbEndReset pf n) s = .next (s.refuse 0x31)) ∧
  (∀ (s : State) (n : Fin 32) (v : Word), s.allowsWrite .pf0 (Reg.mbxBind n) v = true → n.val ≠ 16 →
    bindOk n (v &&& 0x800000ff) = true → v &&& 0x800000ff ≠ s.bind n → s.chanEn n = false → s.regsOk →
    ∃ t, exec (.mbBindWrite .pf0 n v) s = .next t ∧ t.bind n = v &&& 0x800000ff ∧ (t.chan n).ab = [] ∧
    (t.chan n).ba = [] ∧ (t.chan n).stA = [] ∧ (t.chan n).stB = [] ∧ (t.chan n).epA = (s.chan n).epA + 1 ∧
    (t.chan n).epB = (s.chan n).epB + 1 ∧ (∀ m : Fin 32, m ≠ n → t.chan m = s.chan m ∧ t.bind m = s.bind m)) ∧
  (∀ (s : State) (n : Fin 32) (v : Word), s.allowsWrite .pf0 (Reg.mbxBind n) v = true → n.val ≠ 16 →
    bindOk n (v &&& 0x800000ff) = true → v &&& 0x800000ff ≠ s.bind n → s.chanEn n = true →
    ∃ t, exec (.mbBindWrite .pf0 n v) s = .next t ∧
    t = ((s.endReset n true).endReset n false).wr (Reg.mbxBind n) (v &&& 0x800000ff)) ∧
  (∀ (s : State) (n : Fin 32) (v : Word), s.allowsWrite .pf0 (Reg.mbxBind n) v = true → n.val ≠ 16 →
    bindOk n (v &&& 0x800000ff) = true → v &&& 0x800000ff = s.bind n → exec (.mbBindWrite .pf0 n v) s = .next (s)) ∧
  (∀ (s : State) (n : Fin 32) (v : Word), s.allowsWrite .pf0 (Reg.mbxBind n) v = true →
    (n.val = 16 ∨ bindOk n (v &&& 0x800000ff) = false) → ∃ t, exec (.mbBindWrite .pf0 n v) s = .next t ∧
    t = s.evt 0x31 0x40000000)

/-- What the module sends to the host, and the host link (R362, R373, R378 to R383, R481, R498). Where its conditions do not hold, a
command changes nothing. -/
def Obligations.HostLinkVectorsAndStatusBlocks : Prop :=
  (∀ (s : State) (pf : Pf) (v : Fin 32), s.allowsWrite pf (Reg.dblMsixCtl (pfIdx pf) v) 0 = true →
    bit (s.rd (Reg.dblMsixCtl (pfIdx pf) v)) 0 = true → bit (s.rd (Reg.dblPba (pfIdx pf))) v = true →
    s.msixEn (pfIdx pf) = true → s.canPost (pfIdx pf) = true → s.regsOk → ∃ t, exec (.msixUnmask pf v) s = .next t ∧
    t.outbox = s.outbox ++ [.msix pf v (dword (s.rd (Reg.dblMsixHi (pfIdx pf) v)) (s.rd (Reg.dblMsixLo (pfIdx pf) v)))
      (s.rd (Reg.dblMsixData (pfIdx pf) v))] ∧ bit (t.rd (Reg.dblPba (pfIdx pf))) v = false ∧
    t.vecMasked (pfIdx pf) v = false) ∧
  (∀ (s : State) (pf : Pf) (v : Fin 32), s.allowsWrite pf (Reg.dblMsixCtl (pfIdx pf) v) 0 = true →
    (bit (s.rd (Reg.dblPba (pfIdx pf))) v = false ∨ s.msixEn (pfIdx pf) = false) →
    ∃ t, exec (.msixUnmask pf v) s = .next t ∧ t = s.wr (Reg.dblMsixCtl (pfIdx pf) v) 0) ∧
  (∀ (s : State) (pf : Pf), s.alive = true → s.sbEn (pfIdx pf) = true →
    (Vec.at s.host.fn (pfIdx pf) HostFn.reset).sbAt < s.now / 10000 → s.canPost (pfIdx pf) = true →
    s.vecMasked (pfIdx pf) 0 = true → s.regsOk → ∃ t, exec (.statusBlockWrite pf) s = .next t ∧
    t.outbox = s.outbox ++ [.posted pf (s.sbAddr (pfIdx pf)) ((s.sbWords (pfIdx pf)).flatMap fun x => bytesLE x 4)] ∧
    t.rd (Reg.dblSbseq (pfIdx pf)) = s.rd (Reg.dblSbseq (pfIdx pf)) + 1 ∧
    (Vec.at t.host.fn (pfIdx pf) HostFn.reset).sbAt = s.now / 10000 ∧
    (Vec.at t.host.fn (pfIdx pf) HostFn.reset).prev = some (sumWords (s.sbWords (pfIdx pf)))) ∧
  (∀ (s : State) (pf : Pf), s.alive = true → s.sbEn (pfIdx pf) = true →
    (Vec.at s.host.fn (pfIdx pf) HostFn.reset).sbAt < s.now / 10000 → s.canPost (pfIdx pf) = false →
    s.vecMasked (pfIdx pf) 0 = true → s.regsOk → ∃ t, exec (.statusBlockWrite pf) s = .next t ∧ t.outbox = s.outbox ∧
    t.rd (Reg.dblSbseq (pfIdx pf)) = s.rd (Reg.dblSbseq (pfIdx pf)) ∧ bit (t.rd 0x30010) 4 = true) ∧
  (∀ (s : State) (pf : Pf), (s.alive = false ∨ s.sbEn (pfIdx pf) = false ∨ s.now / 10000 ≤ (Vec.at s.host.fn (pfIdx
      pf) HostFn.reset).sbAt) → exec (.statusBlockWrite pf) s = .next (s)) ∧
  (∀ (s : State) (f : Nat), s.sbWords f = [s.rd (Reg.dblSbseq f) + 1, wd (mstateCode s.mstate), s.rd (Reg.dblDb (8 +
      f)) &&& s.rd (Reg.dblDbmask (8 + f)), s.sbChans f, packBits 32 fun p => (pageTable.any fun d => d.page == p) &&
      s.evtPend p != 0, packBits 32 fun p => (pageTable.any fun d => d.page == 32 + p) && s.evtPend (32 + p) != 0, loN
      s.now, hiN s.now, s.rd (Reg.dblC0acc f), 0, 0, 0, 0, 0, 0, 0]) ∧
  (∀ (s : State) (pf : Pf) (k : Nat), s.alive = true → (Vec.at s.host.fn (pfIdx pf) HostFn.reset).c0 = k + 1 →
    s.sbEn (pfIdx pf) = true → s.canPost (pfIdx pf) = true → s.vecMasked (pfIdx pf) 1 = false →
    s.msixEn (pfIdx pf) = true → ∃ t, exec (.c0MessageSend pf) s = .next t ∧
    t.outbox = s.outbox ++ [.posted pf (s.sbAddr (pfIdx pf) + 0x20) (bytesLE (s.rd (Reg.dblC0acc (pfIdx pf))) 4), .msix
      pf 1 (dword (s.rd (Reg.dblMsixHi (pfIdx pf) 1)) (s.rd (Reg.dblMsixLo (pfIdx pf) 1))) (s.rd (Reg.dblMsixData
      (pfIdx pf) 1))] ∧ (Vec.at t.host.fn (pfIdx pf) HostFn.reset).c0 = k ∧ t.regs = s.regs) ∧
  (∀ (s : State) (pf : Pf) (k : Nat), s.alive = true → (Vec.at s.host.fn (pfIdx pf) HostFn.reset).c0 = k + 1 →
    s.sbEn (pfIdx pf) = false → s.vecMasked (pfIdx pf) 1 = true → s.regsOk →
    ∃ t, exec (.c0MessageSend pf) s = .next t ∧ t.outbox = s.outbox ∧ bit (t.rd (Reg.dblPba (pfIdx pf))) 1 = true ∧
    (Vec.at t.host.fn (pfIdx pf) HostFn.reset).c0 = k) ∧
  (∀ (s : State) (pf : Pf), (s.alive = false ∨ (Vec.at s.host.fn (pfIdx pf) HostFn.reset).c0 = 0) →
    exec (.c0MessageSend pf) s = .next (s)) ∧
  (∀ (s : State) (pf : Pf) (v : Fin 4), s.alive = true →
    bit (Vec.at s.host.fn (pfIdx pf) HostFn.reset).priv v = true →
    (fld (s.rd (Reg.mbxRxsel (pfIdx pf))) 0 5 ≠ v.val ∨ bit (s.rd (Reg.mbxRxinfo (pfIdx pf))) 30 = false) →
    s.vecMasked (pfIdx pf) (2 + v) = false → s.msixEn (pfIdx pf) = true → s.canPost (pfIdx pf) = true →
    ∃ t, exec (.privVectorSend pf v) s = .next t ∧
    t.outbox = s.outbox ++ [.msix pf (2 + v) (dword (s.rd (Reg.dblMsixHi (pfIdx pf) (2 + v))) (s.rd (Reg.dblMsixLo
      (pfIdx pf) (2 + v)))) (s.rd (Reg.dblMsixData (pfIdx pf) (2 + v)))] ∧
    bit (Vec.at t.host.fn (pfIdx pf) HostFn.reset).priv v = false ∧ t.regs = s.regs) ∧
  (∀ (s : State) (pf : Pf) (v : Fin 4), (s.alive = false ∨ bit (Vec.at s.host.fn (pfIdx pf) HostFn.reset).priv v =
      false ∨ (fld (s.rd (Reg.mbxRxsel (pfIdx pf))) 0 5 = v.val ∧ bit (s.rd (Reg.mbxRxinfo (pfIdx pf))) 30 = true)) →
    exec (.privVectorSend pf v) s = .next (s)) ∧
  (∀ (s : State), s.alive = true → s.host.safeTell = true → s.sbEn 0 = false → s.sbEn 1 = false →
    s.vecMasked 0 6 = true → s.vecMasked 1 6 = false → s.msixEn 1 = true → s.canPost 1 = true → s.regsOk →
    ∃ t, exec .safeHostNotify s = .next t ∧ t.host.safeTell = false ∧ bit (t.rd (Reg.dblPba 0)) 6 = true ∧
    t.outbox = s.outbox ++ [.msix .pf1 6 (dword (s.rd (Reg.dblMsixHi 1 6)) (s.rd (Reg.dblMsixLo 1 6))) (s.rd
      (Reg.dblMsixData 1 6))]) ∧
  (∀ (s : State), s.alive = true → s.host.safeTell = true → s.sbEn 0 = true → s.sbEn 1 = false →
    s.vecMasked 0 6 = true → s.vecMasked 1 6 = true → s.regsOk → ∃ t, exec .safeHostNotify s = .next t ∧
    t.outbox = (({ s with host := { s.host with safeTell := false } }).writeBlock 0).outbox ∧
    bit (t.rd (Reg.dblPba 0)) 6 = true ∧ bit (t.rd (Reg.dblPba 1)) 6 = true) ∧
  (∀ (s : State), (s.alive = false ∨ s.host.safeTell = false) → exec .safeHostNotify s = .next (s)) ∧
  (∀ (s : State) (g : BitVec 2) (w : BitVec 4), s.alive = true → s.linkUp = false → s.regsOk →
    ∃ t, exec (.pcieLinkUp g w) s = .next t ∧ t.rd Reg.hifStat = wd (1 + 2 * g.toNat + 16 * w.toNat) ∧
    t.linkUp = true ∧ (∀ a, a ≠ Reg.hifStat → t.rd a = s.rd a)) ∧
  (∀ (s : State) (g : BitVec 2) (w : BitVec 4), (s.alive = false ∨ s.linkUp = true) →
    exec (.pcieLinkUp g w) s = .next (s)) ∧
  (∀ (s : State) (pf : Pf) (b m : Bool), s.alive = true → s.linkUp = true → s.regsOk →
    ∃ t, exec (.configSpaceWrite pf b m) s = .next t ∧ t.bme (pfIdx pf) = b ∧ t.msixEn (pfIdx pf) = m ∧
    t.linkUp = true ∧
    ((m = false ∨ ∀ v : Fin 32, bit (s.rd (Reg.dblPba (pfIdx pf))) v = true → s.vecMasked (pfIdx pf) v = true) →
      t.outbox = s.outbox ∧ ∀ a, a ≠ Reg.hifStat → t.rd a = s.rd a) ∧
    (b = true → m = true → ∀ v : Fin 32, s.vecMasked (pfIdx pf) v = false → bit (t.rd (Reg.dblPba (pfIdx pf))) v =
      false)) ∧
  (∀ (s : State) (pf : Pf) (b m : Bool), (s.alive = false ∨ s.linkUp = false) →
    exec (.configSpaceWrite pf b m) s = .next (s)) ∧
  (∀ (s : State), s.alive = true → s.linkUp = true → ∃ t, exec .pcieLinkDown s = .next t ∧
    t = ((((((s.wr Reg.hifStat 0).evt 0x30 1).count Reg.hifLinkdncnt).midReset 8).midReset 9).semsOf 8).raise 0x3001
      []) ∧
  (∀ (s : State) (k : Fin 32), s.alive = true → s.linkUp = true → (∀ n < 32, s.chanEn n = false) → s.regsOk →
    ∃ t, exec .pcieLinkDown s = .next t ∧ t.linkUp = false ∧ t.canPost 0 = false ∧ t.canPost 1 = false ∧
    t.rd Reg.hifLinkdncnt = satInc (s.rd Reg.hifLinkdncnt) 0xffffffff ∧
    (t.rd (Reg.hifSem k) = if s.rd (Reg.hifSem k) = 8 then 0 else s.rd (Reg.hifSem k)) ∧ t.host = s.host ∧
    bit (t.rd 0x30010) 0 = true ∧ s.reports t 0x3001 []) ∧
  (∀ (s : State), (s.alive = false ∨ s.linkUp = false) → exec .pcieLinkDown s = .next (s)) ∧
  (∀ (s : State), s.alive = true → s.linkUp = true → ∃ t, exec .perstAssert s = .next t ∧
    t = ((((((s.wr Reg.hifStat 0).evt 0x30 1).count Reg.hifLinkdncnt).midReset 8).midReset 9).semsOf 8).raise 0x3001
      []) ∧
  (∀ (s : State), (s.alive = false ∨ s.linkUp = false) → exec .perstAssert s = .next (s)) ∧
  (∀ (s : State), s.alive = true → s.linkUp = true → ∃ t, exec (.functionLevelReset .pf0) s = .next t ∧
    t = ((((s.wr Reg.hifStat (setBit (setBit (s.rd Reg.hifStat) 8 false) 10 false)).evt 0x30 2).midReset 8).semsOf
      8).raise 0x3002 []) ∧
  (∀ (s : State), s.alive = true → s.linkUp = true → ∃ t, exec (.functionLevelReset .pf1) s = .next t ∧
    t = (((s.wr Reg.hifStat (setBit (setBit (s.rd Reg.hifStat) 9 false) 11 false)).evt 0x30 4).midReset 9).raise 0x3003
      []) ∧
  (∀ (s : State) (pf : Pf), (s.alive = false ∨ s.linkUp = false) → exec (.functionLevelReset pf) s = .next (s))

/-- The intake, the open record and the ring (R387 to R394, R397 to R400, R403, R405). Where its conditions do not hold, a command
changes nothing. -/
def Obligations.RecorderTakesSealsAndLoses : Prop :=
  (∀ (s : State) (e : Event) (r : List Intake) (k : Nat), s.settOn = true →
    nextIntake s.sett.intake = some (.event e k, r) → s.sett.opened = none → s.ringFull = false →
    ∃ t, exec .recordIntake s = .next t ∧ t.sett = { s.sett with intake := r, opened := some (recOf e, s.now) } ∧
    (e.rep = none → t.regs = s.regs) ∧ recOf e = ⟨0, 0, e.t, e.t, e.src, e.code, pay8 e.pay⟩) ∧
  (∀ (s : State) (e : Event) (r : List Intake) (k : Nat) (c : Rec) (l : Nat), s.settOn = true →
    nextIntake s.sett.intake = some (.event e k, r) → s.sett.opened = some (c, l) → s.sett.ovf = none →
    c.same e = true → ∃ t, exec .recordIntake s = .next t ∧
    t.sett =
      { s.sett with intake := r, opened := some ({ c with repeats := satNat 0xffff (c.repeats + 1), tlast := e.t }, s.now) }
      ∧ (e.rep = none → t.regs = s.regs)) ∧
  (∀ (s : State) (e : Event) (r : List Intake) (k : Nat) (c : Rec) (l : Nat), s.settOn = true →
    nextIntake s.sett.intake = some (.event e k, r) → s.sett.opened = some (c, l) → c.same e = false →
    s.ringFull = false → ∃ t, exec .recordIntake s = .next t ∧
    t.sett.ring = s.sett.ring ++ [({ c with seq := s.sett.flash.nextSeq }, s.now)] ∧
    t.sett.flash.nextSeq = nextSeqNo s.sett.flash.nextSeq ∧ t.sett.opened = some (recOf e, s.now) ∧
    t.sett.intake = r) ∧
  (∀ (s : State) (e : Event) (r : List Intake) (k : Nat), s.settOn = true →
    nextIntake s.sett.intake = some (.event e k, r) → s.sett.opened = none → ringSize ≤ s.sett.ring.length →
    s.sett.ovf = none → s.regsOk → ∃ t, exec .recordIntake s = .next t ∧
    t.sett.ovf = some ⟨1, e.t, e.t, e.src, e.code⟩ ∧ t.sett.ring = s.sett.ring ∧ t.sett.opened = none ∧
    t.rd Reg.settLostcnt = satInc (s.rd Reg.settLostcnt) 0xffffffff ∧ bit (t.rd 0x34010) 0 = true) ∧
  (∀ (s : State) (r : List Intake) (c : Rec) (l : Nat), s.settOn = true →
    nextIntake s.sett.intake = some (.seal, r) → s.sett.opened = some (c, l) → s.ringFull = false →
    ∃ t, exec .recordIntake s = .next t ∧
    t.sett.ring = s.sett.ring ++ [({ c with seq := s.sett.flash.nextSeq }, s.now)] ∧ t.sett.opened = none ∧
    t.sett.intake = r) ∧
  (∀ (s : State), (s.settOn = false ∨ s.sett.intake = []) → exec .recordIntake s = .next (s)) ∧
  (∀ (s : State) (c : Rec) (l : Nat), s.settOn = true → s.sett.opened = some (c, l) → l + 1000000000 ≤ s.now →
    s.ringFull = false → (s.now / 5 ≠ (l + 1000000000) / 5 ∨ s.mergeNext c = false) →
    ∃ t, exec .openRecordExpiry s = .next t ∧
    t.sett.ring = s.sett.ring ++ [({ c with seq := s.sett.flash.nextSeq }, s.now)] ∧ t.sett.opened = none ∧
    t.sett.flash.nextSeq = nextSeqNo s.sett.flash.nextSeq) ∧
  (∀ (s : State), (s.settOn = false ∨ s.ringFull = true ∨ s.sett.opened = none ∨ ∀ c l, s.sett.opened = some (c, l) →
      s.now < l + 1000000000) → exec .openRecordExpiry s = .next (s)) ∧
  (∀ (s : State) (c : Rec) (l : Nat), s.sett.opened = some (c, l) → s.now / 5 = (l + 1000000000) / 5 →
    s.mergeNext c = true → exec .openRecordExpiry s = .next (s)) ∧
  (∀ (s : State), s.allowsWrite .pf0 Reg.settCmd 1 = true → ∃ t, exec (.settSealCmd .pf0) s = .next t ∧
    t.sett = { s.sett with intake := s.sett.intake ++ [.seal] } ∧ t.regs = s.regs) ∧
  (∀ (s : State), s.allowsWrite .pf0 Reg.settCmd 2 = true → ∃ t, exec (.settRestartCmd .pf0) s = .next t ∧
    t = s.settRestart ∧ t.sett.restart = true ∧ t.sett.ready = false ∧ t.sett.reading = s.sett.reading ∧
    t.sett.extract = none) ∧
  (∀ (s : State) (r : Rec), s.settOn = true → s.sett.restart = true → s.sett.ring = [] →
    r =
      ⟨nextSeqNo s.sett.flash.last, 0, s.now, s.now, mkSource 0x34 0 s.synced, 0x3402, pay8 [0, loN s.sett.flash.last, hiN s.sett.flash.last]⟩
      → ∃ t, exec .settRestartDone s = .next t ∧ t.sett.ready = true ∧ t.sett.restart = false ∧
    t.sett.flashFlt = false ∧ (s.sett.ovf = none → s.sett.flash.blocks = [] → t.sett.ring = [(r, s.now)]) ∧
    (s.sett.ovf = none → s.sett.flash.blocks = [] → t.sett.flash.nextSeq = nextSeqNo r.seq)) ∧
  (∀ (s : State), (s.settOn = false ∨ s.sett.restart = false) → exec .settRestartDone s = .next (s)) ∧
  (∀ (s : State) (d : Nat), s.settOn = true → s.sett.ready = false → s.sett.restart = false →
    ∃ t, exec (.storeScanDone d) s = .next t ∧ t.sett.ready = true ∧
    (s.sett.ovf = none → t.sett.ring.length = s.sett.ring.length + 1) ∧
    (t.sett.ring.head?.map fun e => e.1.code) = some 0x3402 ∧
    (t.sett.ring.head?.map fun e => e.1.pay.headD 0) = some (wd d) ∧
    (s.sett.ovf = none → t.sett.opened = s.sett.opened)) ∧
  (∀ (s : State) (d : Nat), (s.settOn = false ∨ s.sett.ready = true ∨ s.sett.restart = true) →
    exec (.storeScanDone d) s = .next (s)) ∧
  (∀ (s : State) (m : MbMsg) (a : Bool) (op k : Nat), s.settOn = true → s.sett.restart = false →
    s.endOf 2 3 = some a → s.mbHead 2 3 = some m → op = fld (m.words.headD 0) 0 4 → k = fld (m.words.headD 0) 4 2 →
    ∃ t, exec .settMb2Command s = .next t ∧
    (t = if op = 1 then (s.mbPop 2 a).settSeal else if op = 3 then (s.mbPop 2 a).settProtect k else if op = 4 then
      (s.mbPop 2 a).settRelease k else s.mbPop 2 a)) ∧
  (∀ (s : State), (s.settOn = false ∨ s.sett.restart = true ∨ s.mbHead 2 3 = none) →
    exec .settMb2Command s = .next (s)) ∧
  (∀ (s : State), s.allowsWrite .pf0 Reg.settSnap 1 = true → s.regsOk → ∃ t, exec (.settSnapshot .pf0) s = .next t ∧
    t.rd Reg.settFirstLo = loN s.sett.flash.first ∧ t.rd Reg.settFirstHi = hiN s.sett.flash.first ∧
    t.rd Reg.settLastLo = loN s.sett.flash.last ∧ t.rd Reg.settLastHi = hiN s.sett.flash.last ∧ t.sett = s.sett) ∧
  (∀ (s : State), s.settOn = true → s.sett.restart = false → ∃ t, exec .flashControllerFault s = .next t ∧
    t = (((s.modSett fun x => { x with flashFlt := true }).evt 0x34 16).raise 0x3406 []).settRestart ∧
    t.sett.restart = true ∧ t.sett.ready = false) ∧
  (∀ (s : State), (s.settOn = false ∨ s.sett.restart = true) → exec .flashControllerFault s = .next (s))

/-- Flash, protection, reading and extraction (R393, R395, R396, R400 to R402, R405). Where its conditions do not hold, a command
changes nothing. -/
def Obligations.RecorderStoresProtectsAndReads : Prop :=
  (∀ (s : State), s.pageOn = true → (256 ≤ s.sett.ring.length ∨ (s.sett.stopped = true ∧ s.sett.ring ≠ [])) →
    s.sett.ovf = none → s.regsOk → ∃ t, exec (.flashPageWrite true) s = .next t ∧ t.sett.ring = s.sett.ring.drop 256 ∧
    t.sett.flash = s.sett.flash.ready.page ((s.sett.ring.take 256).map fun e => e.1) ∧
    t.rd Reg.settPagecnt = satInc (s.rd Reg.settPagecnt) 0xffffffff ∧ t.sett.intake = s.sett.intake) ∧
  (∀ (s : State), s.pageOn = true → (256 ≤ s.sett.ring.length ∨ (s.sett.stopped = true ∧ s.sett.ring ≠ [])) →
    s.sett.flash.spare ≠ 0 → s.regsOk → ∃ t, exec (.flashPageWrite false) s = .next t ∧ t.sett.ring = s.sett.ring ∧
    t.sett.flash = { s.sett.flash with retired := s.sett.flash.retired + 1, spare := s.sett.flash.spare - 1 } ∧
    bit (t.rd 0x34010) 3 = true ∧ (s.chanEn 2 = false → s.reports t 0x3404 [])) ∧
  (∀ (s : State) (ok : Bool), (s.pageOn = false ∨ s.sett.ring = [] ∨ (s.sett.ring.length < 256 ∧ s.sett.stopped =
      false)) → exec (.flashPageWrite ok) s = .next (s)) ∧
  (∀ (s : State) (r : Rec) (q : List (Rec × Nat)) (l : Nat), s.pageOn = true → s.sett.ring = (r, l) :: q →
    l + 1000000 * fld (s.rd Reg.settCtrl) 0 16 ≤ s.now → s.sett.ovf = none → s.regsOk →
    ∃ t, exec .flushTimeout s = .next t ∧ t.sett.ring = s.sett.ring.drop 256 ∧
    t.sett.flash = s.sett.flash.ready.page ((s.sett.ring.take 256).map fun e => e.1) ∧
    t.rd Reg.settPagecnt = satInc (s.rd Reg.settPagecnt) 0xffffffff) ∧
  (∀ (s : State), (s.pageOn = false ∨ s.sett.ring = [] ∨ ∀ r l q, s.sett.ring = (r, l) :: q → s.now < l + 1000000 *
      fld (s.rd Reg.settCtrl) 0 16) → exec .flushTimeout s = .next (s)) ∧
  (∀ (s : State) (i : Nat), s.pageOn = true → s.sett.flash.erased ≤ 2 → s.sett.flash.oldest = some i →
    ∃ t, exec (.blockErase true) s = .next t ∧ t.sett.flash.erased = s.sett.flash.erased + 1 ∧
    t.sett.flash.blocks = (s.sett.flash.blocks.take i).map (fun b => { b with passed := true }) ++
      s.sett.flash.blocks.drop (i + 1) ∧ t.sett.ring = s.sett.ring ∧ t.regs = s.regs) ∧
  (∀ (s : State) (ok : Bool), (s.pageOn = false ∨ 2 < s.sett.flash.erased ∨ s.sett.flash.oldest = none) →
    exec (.blockErase ok) s = .next (s)) ∧
  (∀ (s : State) (v : Word), s.allowsWrite .pf0 Reg.settRdseqLo v = true → s.regsOk →
    ∃ t, exec (.recordRead .pf0 v) s = .next t ∧
    t.sett = { s.sett with reading := some (nat64 v (s.rd Reg.settRdseqHi) % 2 ^ 48) } ∧ t.rd Reg.settRdseqLo = v ∧
    t.rd Reg.settRdstat = 1) ∧
  (∀ (s : State) (n : Nat) (r : Rec) (j : Fin 16), s.pageOn = true → s.sett.reading = some n →
    s.sett.flash.find n = some r → s.regsOk → ∃ t, exec .recordReadDone s = .next t ∧ t.rd Reg.settRdstat = 2 ∧
    t.rd (Reg.settRddata j) = wd (leNat ((r.bytes.drop (4 * j)).take 4)) ∧ t.sett.reading = none) ∧
  (∀ (s : State) (n : Nat) (j : Fin 16) (bad : Bool), s.pageOn = true → s.sett.reading = some n →
    s.sett.flash.find n = none → s.regsOk → ∃ t, exec (.recordReadDone bad) s = .next t ∧ t.rd Reg.settRdstat = 4 ∧
    t.rd (Reg.settRddata j) = 0 ∧ t.sett.reading = none) ∧
  (∀ (s : State) (n : Nat) (r : Rec), s.pageOn = true → s.sett.reading = some n → s.sett.flash.find n = some r →
    s.regsOk → ∃ t, exec (.recordReadDone true) s = .next t ∧ t.rd Reg.settRdstat = 10 ∧ t.sett.reading = none) ∧
  (∀ (s : State) (bad : Bool), (s.pageOn = false ∨ s.sett.reading = none) →
    exec (.recordReadDone bad) s = .next (s)) ∧
  (∀ (s : State) (k : Fin 4) (a c l : Nat) (f g : Flash), s.allowsWrite .pf0 Reg.settCmd (wd (3 + 16 * k.val)) = true
      → a = s.rd64 Reg.settProtfirstLo % 2 ^ 48 → c = fld (s.rd Reg.settProtcnt) 0 26 → l = (a + c - 1) % 2 ^ 48 →
    f = s.sett.flash → g = { f with prot := Vec.updAt f.prot k fun _ => some (a, c) } → Vec.at f.prot k none = none →
    s.sett.ready = true → c ≠ 0 → f.first ≠ 0 → seqLe f.first a = true → seqLe l f.last = true → seqLe a l = true →
    64 ≤ (f.blocks.filter fun b => !b.passed && !g.protBlock b).length + f.erased → s.regsOk →
    ∃ t, exec (.settProtect .pf0 k) s = .next t ∧ t.sett.flash = g ∧ bit (t.rd 0x34010) 1 = true ∧
    (∀ n, (n + 2 ^ 48 - a) % 2 ^ 48 < c → seqLe a n = true → t.sett.flash.protSeq n = true)) ∧
  (∀ (s : State) (k : Fin 4) (a c : Nat), s.allowsWrite .pf0 Reg.settCmd (wd (3 + 16 * k.val)) = true →
    a = s.rd64 Reg.settProtfirstLo % 2 ^ 48 → c = fld (s.rd Reg.settProtcnt) 0 26 →
    (s.sett.ready = false ∨ (Vec.at s.sett.flash.prot k none).isSome = true ∨ c = 0 ∨ s.sett.flash.first = 0 ∨ seqLe
      s.sett.flash.first a = false ∨ seqLe ((a + c - 1) % 2 ^ 48) s.sett.flash.last = false) →
    ∃ t, exec (.settProtect .pf0 k) s = .next t ∧ t = s.evt 0x34 4) ∧
  (∀ (s : State) (k : Fin 4), s.allowsWrite .pf0 Reg.settCmd (wd (4 + 16 * k.val)) = true →
    ∃ t, exec (.settReleaseRange .pf0 k) s = .next t ∧ Vec.at t.sett.flash.prot k none = none ∧
    (∀ j : Fin 4, j ≠ k → Vec.at t.sett.flash.prot j none = Vec.at s.sett.flash.prot j none) ∧
    t.sett.flash.blocks = s.sett.flash.blocks ∧ t.regs = s.regs) ∧
  (∀ (s : State) (m : MbMsg), s.pageOn = true → s.sett.extract = none → s.mbHead 17 3 = some m →
    ∃ t, exec .extractRequest s = .next t ∧ (t = s.modSett fun x => { x with extract := some m.words })) ∧
  (∀ (s : State), (s.pageOn = false ∨ s.sett.extract ≠ none ∨ s.mbHead 17 3 = none) →
    exec .extractRequest s = .next (s)) ∧
  (∀ (s : State) (ws : List Word) (m : MbMsg) (q : List MbMsg) (n : Nat), s.pageOn = true →
    s.sett.extract = some ws → s.midA 17 = 3 → s.midB 17 ≠ 1 → s.chanEn 17 = true →
    chanRoom 17 (s.chan 17).ab 2 = true → (s.chan 17).ba = m :: q → m.words = ws →
    n = (s.extractReply (noticeOff ws) (noticeLen ws)).2 → s.regsOk → ∃ t, exec .extractDone s = .next t ∧
    t.notice = (s.extractReply (noticeOff ws) (noticeLen ws)).1.notice ∧
    (t.chan 17).ab = (s.chan 17).ab ++
      [⟨(s.chan 17).epA, [wd (noticeOff ws + 0x1000000 * ((64 + 64 * n) % 256)), wd ((64 + 64 * n) / 256 + 0x10000 * noticeTag ws)]⟩]
      ∧ (t.chan 17).ba = q ∧ t.sett.extract = none ∧ t.rd Reg.settExtrcnt = satInc (s.rd Reg.settExtrcnt) 0xffffffff) ∧
  (∀ (s : State), (s.sett.extract = none ∨ s.endOf 17 3 = none ∨ ∃ a, s.endOf 17 3 = some a ∧ (s.mbHead 17 3).map
      (fun m => m.words) = s.sett.extract ∧ (s.pageOn = false ∨ s.chanEn 17 = false ∨ chanRoom 17 ((s.chan 17).txq a) 2
      = false)) → exec .extractDone s = .next (s)) ∧
  (∀ (s : State) (ws : List Word) (a : Bool), s.sett.extract = some ws → s.endOf 17 3 = some a →
    (s.mbHead 17 3).map (fun m => m.words) ≠ some ws → ∃ t, exec .extractDone s = .next t ∧
    (t = s.modSett fun x => { x with extract := none }))

/-- The clock sources, the trees and the real-time clock (R407 to R413, R427, R428, R478). Where its conditions do not hold, a command
changes nothing. -/
def Obligations.ClockTreesFollowTheirPlls : Prop :=
  (∀ (s : State) (p : Pll), s.alive = true → pllIsB p = s.fixB → s.fixLock = true → s.pllRdy (!s.fixB) = true →
    s.regsOk → ∃ t, exec (.pllLockLost p) s = .next t ∧ t.fixB = !s.fixB ∧ t.fixLock = true ∧
    t.engSrc = b2n (!s.fixB) ∧ t.pllRdy s.fixB = false ∧ t.rd Reg.clkSwcnt = satIncFld (s.rd Reg.clkSwcnt) 0 16 ∧
    bit (t.rd 0x2010) 0 = true) ∧
  (∀ (s : State) (p : Pll), s.alive = true → pllIsB p = s.fixB → s.fixLock = true → s.pllRdy (!s.fixB) = false →
    s.regsOk → ∃ t, exec (.pllLockLost p) s = .next t ∧ t.fixLock = false ∧ t.engSrc = 2 ∧ t.pllRdy s.fixB = false ∧
    t.rd Reg.clkSwcnt = satIncFld (s.rd Reg.clkSwcnt) 16 16 ∧ bit (t.rd 0x2010) 2 = true ∧ s.reports t 0x0203 []) ∧
  (∀ (s : State) (p : Pll), s.alive = true → pllIsB p ≠ s.fixB → s.pllRdy (pllIsB p) = true → s.regsOk →
    ∃ t, exec (.pllLockLost p) s = .next t ∧ t.pllRdy (pllIsB p) = false ∧ t.fixB = s.fixB ∧ t.fixLock = s.fixLock ∧
    t.engSrc = s.engSrc ∧ bit (t.rd 0x2010) 1 = true) ∧
  (∀ (s : State) (p : Pll), (s.alive = false ∨ (pllIsB p = s.fixB ∧ s.fixLock = false) ∨ (pllIsB p ≠ s.fixB ∧
      s.pllRdy (pllIsB p) = false)) → exec (.pllLockLost p) s = .next (s)) ∧
  (∀ (s : State) (p : Pll), s.alive = true → s.bootPh ≠ .clocks → s.pllRdy (pllIsB p) = false → s.fixLock = true →
    s.regsOk → ∃ t, exec (.pllReady p) s = .next t ∧ t.pllRdy (pllIsB p) = true ∧ t.fixB = s.fixB ∧ t.fixLock = true ∧
    t.engSrc = s.engSrc ∧ bit (t.rd 0x2010) 4 = true ∧ s.reports t 0x0207 []) ∧
  (∀ (s : State) (p : Pll), s.alive = true → s.bootPh ≠ .clocks → s.pllRdy (pllIsB p) = false → s.fixLock = false →
    s.engSrc = 2 → s.eng.mode = .stop → s.regsOk → ∃ t, exec (.pllReady p) s = .next t ∧ t.fixB = pllIsB p ∧
    t.fixLock = true ∧ t.engSrc = b2n (pllIsB p) ∧ bit (t.rd 0x2010) 4 = true) ∧
  (∀ (s : State) (p : Pll), (s.alive = false ∨ s.bootPh = .clocks ∨ s.pllRdy (pllIsB p) = true) →
    exec (.pllReady p) s = .next (s)) ∧
  (∀ (s : State), s.alive = true → s.bootPh ≠ .clocks → s.fixLock = false →
    ∃ t, exec .pllOutOfTolerance s = .next t ∧ t = s.enterSafe 0x0204 0 [] ∧
    (s.safeLatch = false → t.mstate = .safe ∧ t.safeLatch = true)) ∧
  (∀ (s : State), (s.alive = false ∨ s.bootPh = .clocks ∨ s.fixLock = true) →
    exec .pllOutOfTolerance s = .next (s)) ∧
  (∀ (s : State), s.alive = true → bit (s.rd Reg.clkStat) 0 = true → s.regsOk → ∃ t, exec .tcxoFail s = .next t ∧
    t = s.degrAfter (((((s.setClk 0 false).setPll false false).setPll true false).setClk 8 false).enterSafe 0x0206 0
      []) ∧ t.fixLock = false ∧ t.pllRdy false = false ∧ t.pllRdy true = false) ∧
  (∀ (s : State), (s.alive = false ∨ bit (s.rd Reg.clkStat) 0 = false) → exec .tcxoFail s = .next (s)) ∧
  (∀ (s : State), s.alive = true → s.bootPh ≠ .clocks → ∃ t, exec .coreUndervoltage s = .next t ∧
    t = s.enterSafe 0x0308 0 [] ∧ (s.safeLatch = false → t.mstate = .safe ∧ t.safeLatch = true)) ∧
  (∀ (s : State), (s.alive = false ∨ s.bootPh = .clocks) → exec .coreUndervoltage s = .next (s)) ∧
  (∀ (s : State), s.alive = true → bit (s.rd Reg.clkStat) 2 = true → s.regsOk →
    ∃ t, exec .rtcCrystalFail s = .next t ∧ t.rd Reg.clkStat = setBit (setBit (s.rd Reg.clkStat) 2 false) 9 false ∧
    bit (t.rd 0x2010) 5 = true ∧ s.reports t 0x0208 []) ∧
  (∀ (s : State), (s.alive = false ∨ bit (s.rd Reg.clkStat) 2 = false) → exec .rtcCrystalFail s = .next (s)) ∧
  (∀ (s : State), s.alive = true → s.regsOk → ∃ t, exec .rtcCrystalReady s = .next t ∧
    t.rd Reg.clkStat = setBit (s.rd Reg.clkStat) 2 true ∧ (∀ a, a ≠ Reg.clkStat → t.rd a = s.rd a)) ∧
  (∀ (s : State), s.alive = false → exec .rtcCrystalReady s = .next (s)) ∧
  (∀ (s : State), s.alive = true → s.bootPh ≠ .clocks → s.sstate = 2 → s.rtc.setAt < s.now / 1000000000 → s.regsOk →
    ∃ t, exec .rtcSet s = .next t ∧ t.rtc.ticks = s.now / 1000000000 * 32768 % 2 ^ 64 ∧ t.rtc.part = 0 ∧
    bit (t.rd Reg.clkStat) 9 = bit (s.rd Reg.clkStat) 2) ∧
  (∀ (s : State), (s.alive = false ∨ s.bootPh = .clocks ∨ s.sstate ≠ 2 ∨ s.now / 1000000000 ≤ s.rtc.setAt) →
    exec .rtcSet s = .next (s)) ∧
  (∀ (s : State), s.allowsWrite .pf0 Reg.clkRtcsnap 1 = true → s.rtc.ticks < 2 ^ 64 → s.regsOk →
    ∃ t, exec (.rtcSnapshot .pf0) s = .next t ∧ t.rd64 Reg.clkRtcLo = s.rtc.ticks ∧ t.rtc = s.rtc) ∧
  (∀ (s : State), s.allowsWrite .pf0 Reg.clkSwcmd 1 = true → s.fixB = true → s.pllRdy false = true → s.regsOk →
    ∃ t, exec (.clockSwitchPllA .pf0) s = .next t ∧ t.fixB = false ∧ t.fixLock = true ∧ t.engSrc = 0 ∧
    bit (t.rd 0x2010) 0 = true) ∧
  (∀ (s : State), s.allowsWrite .pf0 Reg.clkSwcmd 1 = true → s.fixB = false → s.fixLock = true →
    ∃ t, exec (.clockSwitchPllA .pf0) s = .next t ∧ t = s) ∧
  (∀ (s : State), s.allowsWrite .pf0 Reg.clkSwcmd 1 = true → s.fixB = true → s.pllRdy false = false → s.regsOk →
    ∃ t, exec (.clockSwitchPllA .pf0) s = .next t ∧ t.rd Reg.clkStat = s.rd Reg.clkStat ∧
    t.rd 0x2010 = s.rd 0x2010 ||| 0x40000008 ∧ s.reports t 0x0205 []) ∧
  (∀ (s : State), s.allowsWrite .pf0 Reg.clkSwcmd 2 = true → s.fixB = false → s.pllRdy true = true → s.regsOk →
    ∃ t, exec (.clockSwitchPllB .pf0) s = .next t ∧ t.fixB = true ∧ t.fixLock = true ∧ t.engSrc = 1 ∧
    bit (t.rd 0x2010) 0 = true) ∧
  (∀ (s : State), s.allowsWrite .pf0 Reg.clkSwcmd 2 = true → s.fixB = false → s.pllRdy true = false → s.regsOk →
    ∃ t, exec (.clockSwitchPllB .pf0) s = .next t ∧ t.rd Reg.clkStat = s.rd Reg.clkStat ∧
    t.rd 0x2010 = s.rd 0x2010 ||| 0x40000008 ∧ s.reports t 0x0205 []) ∧
  (∀ (s : State), s.allowsWrite .pf0 Reg.clkSwcmd 2 = true → s.fixB = true → s.fixLock = true →
    ∃ t, exec (.clockSwitchPllB .pf0) s = .next t ∧ t = s)

/-- The governor and the operating points (R416 to R422, R430). Where its conditions do not hold, a command changes nothing. -/
def Obligations.GovernorAndOperatingPoints : Prop :=
  (∀ (s : State) (b d : Int), s.alive = true → s.bootPh ≠ .clocks → b < 80 → -128 ≤ b → s.pow.coolAt = none →
    -128 ≤ d → d < 105 → s.regsOk → ∃ t, exec (.governorTempSample b d) s = .next t ∧ sfld (t.rd Reg.pwrTemp) 0 8 = b ∧
    sfld (t.rd Reg.pwrTemp) 8 8 = d ∧ t.rd Reg.pwrKt = 256 ∧ bit (t.rd Reg.pwrStat) 7 = false ∧ t.pow.hotAt = none ∧
    t.pow.coolAt = some s.now ∧ t.mstate = s.mstate) ∧
  (∀ (s : State) (b d : Int), s.alive = true → s.bootPh ≠ .clocks → 88 ≤ b → b < 95 → d < 105 → s.pow.hotAt = none →
    80 ≤ sfld (s.rd Reg.pwrTemp) 0 8 → s.opTarget < s.opFloor → s.pow.opNotBefore ≤ s.now → s.regsOk →
    ∃ t, exec (.governorTempSample b d) s = .next t ∧ t.rd Reg.pwrKt = 0 ∧ bit (t.rd Reg.pwrStat) 7 = true ∧
    t.pow.hotAt = some s.now ∧ bit (t.rd 0x3010) 1 = true ∧ s.reports t 0x0302 [] ∧
    (s.pow.opWant = none → s.pow.opc = .none → t.opTarget = s.op + 1)) ∧
  (∀ (s : State) (b d : Int), s.alive = true → s.bootPh ≠ .clocks → 88 ≤ b → b < 95 → d < 105 →
    s.now < s.pow.opNotBefore → s.regsOk → ∃ t, exec (.governorTempSample b d) s = .next t ∧
    t.pow = { s.pow with coolAt := none } ∧ t.opTarget = s.opTarget ∧ t.mstate = s.mstate) ∧
  (∀ (s : State) (b d : Int), s.alive = true → s.bootPh ≠ .clocks → s.safeLatch = false → 105 ≤ d → s.regsOk →
    ∃ t, exec (.governorTempSample b d) s = .next t ∧ t.mstate = .safe ∧ t.safeLatch = true ∧
    t.rd Reg.diaSafecause = 0x80000304 ∧ t.eng.mode = .stop ∧ bit (t.rd 0x3010) 4 = true) ∧
  (∀ (s : State) (b d : Int), (s.alive = false ∨ s.bootPh = .clocks) →
    exec (.governorTempSample b d) s = .next (s)) ∧
  (∀ (b : Int), (b ≤ 80 → ktOf b = 256) ∧ (88 ≤ b → ktOf b = 0) ∧
    (80 ≤ b → b ≤ 88 → (ktOf b : Int) = (88 - b) * 32)) ∧
  (∀ (s : State) (e : Nat) (k hd : Int), s.booted = true → s.pow.tokAt < s.now / 1000000 → s.pow.deferPe = 0 →
    hd = (fld (s.rd Reg.pwrPbudget) 0 16 : Int) - e → 0 < hd →
    k = min ((s.rd Reg.pwrTokmax).toNat : Int) (s.tokBal + Int.fdiv (hd * fld (s.rd Reg.pwrKt) 0 9) 256) →
    -2147483648 ≤ k → k < 2147483648 → s.regsOk → ∃ t, exec (.tokenFill e) s = .next t ∧ t.tokBal = k ∧
    t.rd Reg.pwrPin = wd e ∧ t.pow.tokAt = s.now / 1000000 ∧ t.pow.deferPe = 0 ∧ t.pow.overRun = 0 ∧
    bit (t.rd Reg.pwrStat) 10 = false) ∧
  (∀ (s : State) (e : Nat) (hd : Int), s.booted = true → s.pow.tokAt < s.now / 1000000 → s.pow.deferPe = 0 →
    hd = (fld (s.rd Reg.pwrPbudget) 0 16 : Int) - e → hd < 0 → -2147483648 ≤ s.tokBal + hd → 999 ≤ s.pow.overRun →
    s.pow.overAt = none → s.regsOk → ∃ t, exec (.tokenFill e) s = .next t ∧ t.tokBal = s.tokBal + hd ∧
    t.pow.overRun = 1000 ∧ bit (t.rd Reg.pwrStat) 10 = true ∧ bit (t.rd 0x3010) 5 = true ∧ s.reports t 0x0305 []) ∧
  (∀ (s : State) (e : Nat), (s.booted = false ∨ s.now / 1000000 ≤ s.pow.tokAt) → exec (.tokenFill e) s = .next (s)) ∧
  (∀ (s : State) (b : Fin 4) (r : Nat), s.alive = true → s.pow.opc = .ramp b r → ∃ t, exec .opPgood s = .next t ∧
    (t = s.modPow fun p => { p with opc := .ready b })) ∧
  (∀ (s : State), (s.alive = false ∨ ∀ b r, s.pow.opc ≠ .ramp b r) → exec .opPgood s = .next (s)) ∧
  (∀ (s : State) (b : Fin 4), s.alive = true → s.pow.opc = .ready b → s.dispatchPoint = true → s.pstate ≠ .nap →
    ∃ t, exec .opDividerSwitch s = .next t ∧ (t = s.modPow fun p => { p with opc := .halted b })) ∧
  (∀ (s : State), (s.alive = false ∨ s.dispatchPoint = false ∨ s.pstate = .nap ∨ ∀ b, s.pow.opc ≠ .ready b) →
    exec .opDividerSwitch s = .next (s)) ∧
  (∀ (s : State) (b : Fin 4), s.alive = true → s.pow.opc = .halted b → s.pow.opWant = none → s.nextReady = none →
    b.val ≠ s.op → s.regsOk → ∃ t, exec .opResume s = .next t ∧ t.op = b ∧ t.pow.opc = .none ∧
    t.rd Reg.pwrOpcnt = satInc (s.rd Reg.pwrOpcnt) 0xffffffff ∧
    (s.engSrc = 2 → s.fixLock = true → t.engSrc = b2n s.fixB) ∧ (s.engSrc ≠ 2 → t.engSrc = s.engSrc)) ∧
  (∀ (s : State), (s.alive = false ∨ ∀ b, s.pow.opc ≠ .halted b) → exec .opResume s = .next (s)) ∧
  (∀ (s : State) (b : Fin 4) (r : Nat), s.alive = true → s.pow.opc = .ramp b r → r + 200000 ≤ s.now → s.regsOk →
    ∃ t, exec .opPgoodTimeout s = .next t ∧
    t.pow.opc = (if s.engSrc = 2 ∧ s.fixLock = true then .ready (Fin.ofNat 4 s.op) else .none) ∧ t.pow.opWant = none ∧
    t.pow.opNotBefore = s.now + 1000000000 ∧ t.op = s.op ∧ bit (t.rd 0x3010) 6 = true ∧ s.reports t 0x0307 []) ∧
  (∀ (s : State), (s.alive = false ∨ ∀ b r, s.pow.opc = .ramp b r → s.now < r + 200000) →
    exec .opPgoodTimeout s = .next (s)) ∧
  (∀ (s : State) (e : Nat), s.alive = true → s.pow.planExit = some e → (s.pstate = .doze ∨ s.pstate = .nap) →
    e ≤ s.now → ∃ t, exec .powerStateExit s = .next t ∧ t = s.wakeUp ∧
    (bit (s.rd Reg.pwrCtrl) 0 = false → bit (s.rd Reg.pwrCtrl) 1 = false → t.pstate = .run)) ∧
  (∀ (s : State), (s.alive = false ∨ (s.pstate ≠ .doze ∧ s.pstate ≠ .nap) ∨ s.pow.planExit = none ∨ ∀ e,
      s.pow.planExit = some e → s.now < e) → exec .powerStateExit s = .next (s)) ∧
  (∀ (s : State), s.alive = true → (s.pstate = .doze ∨ s.pstate = .nap) → s.regsOk →
    ∃ t, exec .powerStateEarlyExit s = .next t ∧ t = s.wakeUp ∧ t.pstate = .run ∧ t.pow.planExit = none ∧
    fld (t.rd Reg.pwrStat) 0 3 = 0) ∧
  (∀ (s : State), (s.alive = false ∨ (s.pstate ≠ .doze ∧ s.pstate ≠ .nap)) → exec .powerStateEarlyExit s = .next (s))

/-- The update protocol (R442 to R445, R447, R450, R455). A request that its checks turn down is refused with its code and changes
nothing else; a command whose request does not wait changes nothing. -/
def Obligations.UpdateSessionsProceed : Prop :=
  (∀ (s : State) (r : Req) (st i : Nat) (m : MbMsg) (q : List MbMsg), (s.chan 16).ab = m :: q → s.midB 16 = 2 →
    s.midA 16 ≠ 1 → Memory.wf ramFill s.notice = true → r.off + 0x20 ≤ 0x800000 → (s.updReply r st i).upd = s.upd ∧
    (s.updReply r st i).cfgFlash = s.cfgFlash ∧ (s.updReply r st i).notice.readWord ramFill (r.off + 0x14) = wd st ∧
    (s.updReply r st i).notice.readWord ramFill (r.off + 0x18) = wd i ∧
    ((s.updReply r st i).chan 16).ba = (s.chan 16).ba ++
      [⟨(s.chan 16).epB, [wd (r.off + 0x1000000 * 32), wd (0x10000 * r.tag)]⟩] ∧
    ((s.updReply r st i).chan 16).ab = q) ∧
  (∀ (s : State) (r : Req) (c g i : Nat), s.regsOk → (s.updRefuse r c g i).upd = s.upd ∧
    (s.updRefuse r c g i).cfgFlash = s.cfgFlash ∧ (s.updRefuse r c g i).mstate = s.mstate ∧
    (s.midA 16 ≠ 1 → (s.updRefuse r c g i).rd Reg.updResult = wd (c + 0x10000 * g + 0x80000000))) ∧
  (∀ (s : State) (r : Req), s.updReq = some r → r.op = 1 → s.openRefusal r = none → ∃ t, exec .updOpen s = .next t ∧
    t = ((((s.modUpd fun x =>
      { x with st := if bit r.a0 0 then .guarded else .quick, imglen := r.a1.toNat, blocks := [], sectors := [], session := x.session + 1 }).evt
      0x38 1).raise 0x3801 [])).updReply r 0 (s.upd.session + 1).toNat ∧
    t.upd =
      { s.upd with st := if bit r.a0 0 then .guarded else .quick, imglen := r.a1.toNat, blocks := [], sectors := [], session := s.upd.session + 1 })
      ∧
  (∀ (s : State) (r : Req) (c : Nat), s.updReq = some r → (r.op.toNat < 2 ∨ 6 < r.op.toNat) →
    s.openRefusal r = some c → ∃ t, exec .updOpen s = .next t ∧ t = s.updRefuse r c 1 0) ∧
  (∀ (s : State), (s.updReq = none ∨ ∀ r, s.updReq = some r → 2 ≤ r.op.toNat ∧ r.op.toNat ≤ 6) →
    exec .updOpen s = .next (s)) ∧
  (∀ (s : State) (r : Req), s.updReq = some r → r.op = 2 → s.blockRefusal r = none →
    s.upd.sectors.contains (r.a0.toNat / 65536) = true → ∃ t, exec .updBlock s = .next t ∧
    t.upd = { s.upd with writing := some (r.a0.toNat, s.reqData r r.a1.toNat) } ∧ t.cfgFlash = s.cfgFlash ∧
    t.regs = s.regs ∧ t.host = s.host ∧ t.notice = s.notice) ∧
  (∀ (s : State) (r : Req), s.updReq = some r → r.op = 2 → s.blockRefusal r = none →
    s.upd.sectors.contains (r.a0.toNat / 65536) = false → ∃ t, exec .updBlock s = .next t ∧
    t.upd.writing = some (r.a0.toNat, s.reqData r r.a1.toNat) ∧ t.upd.sectors = r.a0.toNat / 65536 :: s.upd.sectors ∧
    (t.upd.journal = if s.upd.sectors = [] then (if s.upd.st = .guarded then 2 else 1) else s.upd.journal) ∧
    t.upd.erases = satNat 0xffffffff (s.upd.erases + 1) ∧
    (t.cfgFlash = s.cfgFlash.filter fun c => c.1 / 65536 != r.a0.toNat / 65536)) ∧
  (∀ (s : State) (r : Req) (c : Nat), s.updReq = some r → r.op = 2 → s.blockRefusal r = some c →
    ∃ t, exec .updBlock s = .next t ∧ t = s.updRefuse r c 1 s.upd.blocks.length) ∧
  (∀ (s : State), (s.updReq = none ∨ ∀ r, s.updReq = some r → r.op ≠ 2) → exec .updBlock s = .next (s)) ∧
  (∀ (s : State) (o : Nat) (d : List Byte) (r : Req), s.alive = true → s.upd.writing = some (o, d) →
    o + d.length ≤ cfgFlashBytes → chanRoom 16 (s.chan 16).ba 2 = true →
    ((s.flashPut o d).modUpd fun x => { x with writing := none, blocks := o / 4096 :: x.blocks }).updReq = some r →
    ∃ t, exec (.updBlockDone false) s = .next t ∧
    t = ((s.flashPut o d).modUpd fun x => { x with writing := none, blocks := o / 4096 :: x.blocks }).updReply r 0
      (s.upd.blocks.length + 1) ∧ t.cfgFlash = s.cfgFlash.writeBytes flashFill o d ∧
    t.upd.blocks = o / 4096 :: s.upd.blocks) ∧
  (∀ (s : State) (o : Nat) (d : List Byte) (spare : Bool), s.alive = true → s.upd.writing = some (o, d) →
    o + d.length ≤ cfgFlashBytes → chanRoom 16 (s.chan 16).ba 2 = true → ∃ t, exec (.updBlockDone spare) s = .next t ∧
    t.upd = { s.upd with writing := none, blocks := o / 4096 :: s.upd.blocks } ∧
    t.cfgFlash = s.cfgFlash.writeBytes flashFill o d) ∧
  (∀ (s : State) (spare : Bool), (s.alive = false ∨ s.upd.writing = none ∨ chanRoom 16 (s.chan 16).ba 2 = false) →
    exec (.updBlockDone spare) s = .next (s)) ∧
  (∀ (s : State) (r : Req), s.updReq = some r → r.op = 3 → s.closeRefusal r = none → s.upd.st = .guarded →
    ∃ t, exec .updClose s = .next t ∧ t = ((s.updEnd 1).modUpd fun x => { x with st := .verifying }).updReply r 0 0 ∧
    t.upd = { s.upd with st := .verifying }) ∧
  (∀ (s : State) (r : Req), s.updReq = some r → r.op = 3 → s.closeRefusal r = none → s.upd.st ≠ .guarded →
    ∃ t, exec .updClose s = .next t ∧
    t = (((s.updEnd 1).modUpd fun x => { x with st := .idle, journal := 0 }).updResult 0 2).updReply r 0 (updBlocks
      s.upd.imglen - s.upd.blocks.length) ∧ t.upd = { s.upd with st := .idle, journal := 0 }) ∧
  (∀ (s : State) (r : Req) (c : Nat), s.updReq = some r → r.op = 3 → s.closeRefusal r = some c →
    exec .updClose s = .next (s.updRefuse r c 2 0)) ∧
  (∀ (s : State), (s.updReq = none ∨ ∀ r, s.updReq = some r → r.op ≠ 3) → exec .updClose s = .next (s)) ∧
  (∀ (s : State) (r : Req), s.updReq = some r → r.op = 4 → s.sessOk r = true → 32 ≤ r.len → s.upd.st ≠ .guarded →
    ∃ t, exec .updAbort s = .next t ∧
    t = ((s.updEnd 2).modUpd fun x => { x with st := .idle, journal := 0 }).updReply r 0 0 ∧
    t.upd = { s.upd with st := .idle, journal := 0 }) ∧
  (∀ (s : State) (r : Req), s.updReq = some r → r.op = 4 → s.sessOk r = true → 32 ≤ r.len → s.upd.st = .guarded →
    ∃ t, exec .updAbort s = .next t ∧ t = (s.updEnd 2).updRestore.updReply r 0 0 ∧
    (t.upd.st = if s.imgRun then .restoring else .idle)) ∧
  (∀ (s : State) (r : Req), s.updReq = some r → r.op = 4 → (s.sessOk r = false ∨ r.len < 32) →
    exec .updAbort s = .next (s.updRefuse r (if s.sessOk r = true then 0x3821 else 0x3823) 2 0)) ∧
  (∀ (s : State), (s.updReq = none ∨ ∀ r, s.updReq = some r → r.op ≠ 4) → exec .updAbort s = .next (s))

/-- Keys, verification, activation, restore and OTP (R440, R441, R445 to R449). Where its conditions do not hold, a command changes
nothing. -/
def Obligations.KeysVerificationAndOtp : Prop :=
  (∀ (s : State) (r : Req), s.updReq = some r → r.op = 5 → s.updOpened = false → 96 ≤ r.len →
    (s.otpSlot (fld r.a0 0 2)).hash.toNat = sha256Nat (s.reqData r 64) → ∃ t, exec .updKey s = .next t ∧
    t = ((((s.keyPut (fld r.a0 0 2) (s.reqData r 64)).evt 0x38 32).raise 0x3804 []).updResult 0 6).updReply r 0 0 ∧
    t.upd.otp = s.upd.otp) ∧
  (∀ (s : State) (r : Req), s.updReq = some r → r.op = 5 → s.updOpened = false → 96 ≤ r.len →
    (s.otpSlot (fld r.a0 0 2)).hash.toNat ≠ sha256Nat (s.reqData r 64) → ∃ t, exec .updKey s = .next t ∧
    t = s.updRefuse r 0x3828 6 0) ∧
  (∀ (s : State) (r : Req), s.updReq = some r → r.op = 5 → (s.updOpened = true ∨ r.len < 96) →
    exec .updKey s = .next (s.updRefuse r (if s.updOpened = true then 0x3823 else 0x3821) 6 0)) ∧
  (∀ (s : State), (s.updReq = none ∨ ∀ r, s.updReq = some r → r.op ≠ 5) → exec .updKey s = .next (s)) ∧
  (∀ (s : State) (r : Req), s.updReq = some r → r.op = 6 → s.updOpened = false → 104 ≤ r.len →
    (s.reqData r 72).take 4 ≠ [0x52, 0x56, 0x4b, 0x45] → ∃ t, exec .updRevoke s = .next t ∧
    t = s.updRefuse r 0x3829 6 0 ∧ t.upd = s.upd) ∧
  (∀ (s : State) (r : Req) (k : Nat), s.updReq = some r → r.op = 6 → s.updOpened = false → 104 ≤ r.len →
    k = ((s.reqData r 72).getD 4 0).toNat % 4 → ∃ t, exec .updRevoke s = .next t ∧
    (t = if s.revokeOk (s.reqData r 72) then ((((s.modUpd fun x =>
      { x with otp := Vec.updAt x.otp k fun o => { o with revoked := true } }).evt 0x38 32).raise 0x3805 []).updResult
      0 6).updReply r 0 0 else s.updRefuse r 0x3829 6 0) ∧
    (∀ j : Fin 4, (s.upd.otp[j]).revoked = true → (t.upd.otp[j]).revoked = true) ∧
    (∀ j : Fin 4, (t.upd.otp[j]).hash = (s.upd.otp[j]).hash)) ∧
  (∀ (s : State) (r : Req), s.updReq = some r → r.op = 6 → (s.updOpened = true ∨ r.len < 104) →
    exec .updRevoke s = .next (s.updRefuse r (if s.updOpened = true then 0x3823 else 0x3821) 6 0)) ∧
  (∀ (s : State), (s.updReq = none ∨ ∀ r, s.updReq = some r → r.op ≠ 6) → exec .updRevoke s = .next (s)) ∧
  (∀ (s : State) (ok : Bool), s.alive = true → s.upd.st = .verifying →
    ∃ t, exec (.guardedVerifyDone ok) s = .next t ∧
    (t = match s.storeCheck ok with | (u, none) => u.verified | (u, some c) => (u.updResult c 3).updRestore) ∧
    (s.imageCheck ok ≠ none → t.upd.st = if s.imgRun then .restoring else .idle)) ∧
  (∀ (s : State) (ok : Bool), (s.alive = false ∨ s.upd.st ≠ .verifying) →
    exec (.guardedVerifyDone ok) s = .next (s)) ∧
  (∀ (s : State), s.safeLatch = false → s.imgRun = false → s.eng.mode = .stop →
    (s.verified = s.modUpd fun x => { x with st := .activating })) ∧
  (∀ (s : State), s.safeLatch = true →
    s.verified = (s.modUpd fun x => { x with st := .idle, journal := 0 }).updResult 0 3) ∧
  (∀ (s : State), s.alive = true → s.upd.st = .activating → s.eng.change = .none →
    ∃ t, exec .imageActivationDone s = .next t ∧ t = ((s.load false).midReset 1).activated.enterStart) ∧
  (∀ (s : State), (s.alive = false ∨ s.upd.st ≠ .activating ∨ s.eng.change ≠ .none) →
    exec .imageActivationDone s = .next (s)) ∧
  (∀ (s : State), s.alive = true → s.upd.st = .restoring → s.regsOk → ∃ t, exec (.restoreDone true) s = .next t ∧
    t.upd.st = .idle ∧ t.upd.journal = 0 ∧ t.cfgFlash = s.restoreFlash.cfgFlash ∧ bit (t.rd Reg.updStat) 3 = true ∧
    bit (t.rd 0x38010) 4 = true ∧ s.reports t 0x3826 []) ∧
  (∀ (s : State), s.alive = true → s.upd.st = .restoring → s.regsOk → ∃ t, exec (.restoreDone false) s = .next t ∧
    t.upd.st = .idle ∧ t.cfgFlash = s.cfgFlash ∧ t.rd Reg.updResult = 0x80053827 ∧ bit (t.rd Reg.updStat) 3 = false ∧
    s.reports t 0x3827 []) ∧
  (∀ (s : State) (ok : Bool), (s.alive = false ∨ s.upd.st ≠ .restoring) → exec (.restoreDone ok) s = .next (s)) ∧
  (∀ (s : State) (f : Bool), s.alive = true → s.upd.st = .idle → ∃ t, exec (.loaderRestart f) s = .next t ∧
    (t = (((s.raise 0x3807 [0]).midReset 2).semsOf 2).modUpd fun x => { x with writing := none })) ∧
  (∀ (s : State) (f : Bool), s.alive = true → s.upd.st = .quick → ∃ t, exec (.loaderRestart f) s = .next t ∧
    (t = (((((s.raise 0x3807 [1]).midReset 2).semsOf 2).modUpd fun x => { x with writing := none }).updEnd 5).modUpd
      fun x => { x with st := .idle }) ∧ t.upd.st = .idle) ∧
  (∀ (s : State) (f : Bool), s.alive = true → (s.upd.st = .guarded ∨ s.upd.st = .verifying) →
    exec (.loaderRestart f) s = .next ((((((s.raise 0x3807 [wd s.upd.st.code]).midReset 2).semsOf 2).modUpd fun x =>
      { x with writing := none }).updEnd 5).restoreAgain f)) ∧
  (∀ (s : State) (f : Bool), s.alive = true → s.upd.st = .restoring →
    exec (.loaderRestart f) s = .next (((((s.raise 0x3807 [wd s.upd.st.code]).midReset 2).semsOf 2).modUpd fun x =>
      { x with writing := none }).restoreAgain f)) ∧
  (∀ (s : State) (f : Bool), s.alive = true → s.safeLatch = false → s.upd.st = .activating →
    ∃ t, exec (.loaderRestart f) s = .next t ∧ t.mstate = .safe ∧ t.safeLatch = true) ∧
  (∀ (s : State) (f : Bool), s.alive = false → exec (.loaderRestart f) s = .next (s)) ∧
  (∀ (s : State) (v : Word) (k : Fin 4), s.allowsWrite .pf0 Reg.updOtpcmd v = true → fld v 8 24 = 0x5a5a5a →
    fld v 0 2 = k.val → s.locked 0x38 = false → (s.upd.otp[k]).hash = 0 → s.upd.otpBusy = none →
    ∃ t, exec (.otpProvision .pf0 v) s = .next t ∧ t.upd = { s.upd with otpBusy := some (k, s.otpHash) } ∧
    t.regs = s.regs) ∧
  (∀ (s : State) (v : Word) (k : Fin 4), s.allowsWrite .pf0 Reg.updOtpcmd v = true → fld v 0 2 = k.val →
    (s.upd.otp[k]).hash ≠ 0 → ∃ t, exec (.otpProvision .pf0 v) s = .next t ∧ t = s.evt 0x38 0x40000000) ∧
  (∀ (s : State) (k : Fin 4) (hsh : BitVec 256), s.alive = true → s.upd.otpBusy = some (k, hsh) → s.regsOk →
    ∃ t, exec .otpProgramDone s = .next t ∧ (t.upd.otp[k]).hash = hsh ∧
    (t.upd.otp[k]).revoked = (s.upd.otp[k]).revoked ∧ (∀ j : Fin 4, j ≠ k → t.upd.otp[j] = s.upd.otp[j]) ∧
    t.upd.otpBusy = none ∧ bit (t.rd 0x38010) 5 = true ∧ s.reports t 0x3806 []) ∧
  (∀ (s : State), (s.alive = false ∨ s.upd.otpBusy = none) → exec .otpProgramDone s = .next (s))

/-- The twin block: heartbeats, mirror and join (R457 to R465, R474). `r` is the frame as the three lanes received it, `f` their
majority. Where its conditions do not hold, a command changes nothing. -/
def Obligations.TwinUnitsMirrorAndJoin : Prop :=
  (∀ (s : State) (m : Nat), s.alive = true → s.twnEn = true → s.safeLatch = false → m = s.now / 50000 * 50000 →
    s.twn.hbSent < m → s.twn.role = .active → ∃ t, exec .twinHbSend s = .next t ∧
    t.outbox = s.outbox ++ [.twin (twinFrame ([1, s.hbByte] ++ bytesLE (s.twn.hbSeq + 1) 2 ++ natBytesLE s.now 8 ++
      bytesLE s.imageId 4)), .owl 1
      ⟨BitVec.ofBool s.twnUnit, s.pairId, s.twn.owlSeq + 1, BitVec.ofNat 64 s.now, 0, false, true⟩] ∧
    t.twn.hbSeq = s.twn.hbSeq + 1 ∧ t.twn.hbSent = m ∧ t.twn.owlSeq = s.twn.owlSeq + 1 ∧ t.regs = s.regs) ∧
  (∀ (s : State) (m : Nat), s.alive = true → s.twnEn = true → s.safeLatch = false → m = s.now / 50000 * 50000 →
    s.twn.hbSent < m → s.twn.role ≠ .active → ∃ t, exec .twinHbSend s = .next t ∧
    t.outbox = s.outbox ++ [.twin (twinFrame ([1, s.hbByte] ++ bytesLE (s.twn.hbSeq + 1) 2 ++ natBytesLE s.now 8 ++
      bytesLE s.imageId 4))] ∧ t.twn.hbSeq = s.twn.hbSeq + 1 ∧ t.twn.hbSent = m ∧ t.regs = s.regs) ∧
  (∀ (s : State), (s.alive = false ∨ s.twnEn = false ∨ s.safeLatch = true ∨ s.now / 50000 * 50000 ≤ s.twn.hbSent) →
    exec .twinHbSend s = .next (s)) ∧
  (∀ (s : State) (r : TwinRx) (i : Instr), i ∈ [.twinHbRx r, .twinMirRx r, .twinTrgRx r, .twinMbwRx r, .twinCmpRx r,
      .twinXfrRx r] → s.alive = true → s.twnEn = true → (s.lanes.twinMaj r).crcOk = false → s.regsOk →
    ∃ t, exec i s = .next t ∧ t.rd Reg.twnLinkerr = satInc (s.rd Reg.twnLinkerr) 0xffffffff ∧ t.twn = s.twn ∧
    t.pim = s.pim) ∧
  (∀ (s : State) (r : TwinRx) (f : TwinFrame), s.alive = true → s.twnEn = true → s.lanes.twinMaj r = f →
    f.crcOk = true → twNum f 0 1 = 1 → (s.twn.role = .wait ∨ s.twn.role = .alone ∨ s.twn.role = .unfit) → s.regsOk →
    ∃ t, exec (.twinHbRx r) s = .next t ∧ t.rd Reg.twnPeer = wd (twNum f 1 1) ∧
    t.twn = { s.twn with hbOk := true, hbAt := s.now, peerId := wd (twNum f 12 4), lostAt := none }) ∧
  (∀ (s : State) (r : TwinRx) (f : TwinFrame), s.alive = true → s.twnEn = true → s.lanes.twinMaj r = f →
    f.crcOk = true → twNum f 0 1 = 1 → twNum f 1 1 % 8 = 2 → s.twn.role = .joining → s.twn.joinAt = none →
    s.joinDue = true → wd (twNum f 12 4) = s.imageId → s.regsOk → ∃ t, exec (.twinHbRx r) s = .next t ∧
    t.twn.joinAt = some s.now ∧ t.twn.pass = 0 ∧ t.twn.hbOk = true ∧ s.reports t 0x3905 []) ∧
  (∀ (s : State) (r : TwinRx) (i : Instr), i ∈ [.twinHbRx r, .twinMirRx r, .twinTrgRx r, .twinMbwRx r, .twinCmpRx r,
      .twinXfrRx r] → (s.alive = false ∨ s.twnEn = false) → exec i s = .next (s)) ∧
  (∀ (s : State) (r : TwinRx) (i : Instr) (n : Nat), (i, n) ∈ [(.twinHbRx r, 1), (.twinMirRx r, 2), (.twinTrgRx r,
      3), (.twinMbwRx r, 4), (.twinCmpRx r, 5), (.twinXfrRx r, 6)] → s.alive = true → s.twnEn = true →
    (s.lanes.twinMaj r).crcOk = true → twNum (s.lanes.twinMaj r) 0 1 ≠ n →
    exec i s = .next ({ s with lanes := { s.lanes with bitDev := s.lanes.bitDev ||| s.lanes.twinDev r } })) ∧
  (∀ (s : State) (r : TwinRx) (f : TwinFrame), s.alive = true → s.twnEn = true → s.lanes.twinMaj r = f →
    f.crcOk = true → twNum f 0 1 = 1 → s.twn.role = .joining → twNum f 1 1 % 8 ≠ 2 → s.regsOk →
    ∃ t, exec (.twinHbRx r) s = .next t ∧ t.rd Reg.twnPeer = wd (twNum f 1 1) ∧
    t.twn = { s.twn with hbOk := true, hbAt := s.now, peerId := wd (twNum f 12 4), lostAt := none }) ∧
  (∀ (s : State) (r : TwinRx) (f : TwinFrame), s.alive = true → s.twnEn = true → s.lanes.twinMaj r = f →
    f.crcOk = true → twNum f 0 1 = 1 → s.twn.role = .joining → twNum f 1 1 % 8 = 2 → wd (twNum f 12 4) ≠ s.imageId →
    s.regsOk → ∃ t, exec (.twinHbRx r) s = .next t ∧ t.rd Reg.twnPeer = wd (twNum f 1 1) ∧
    t.twn = { s.twn with hbOk := true, hbAt := s.now, peerId := wd (twNum f 12 4), lostAt := none } ∧
    (wd (twNum f 12 4) ≠ s.twn.peerId → s.reports t 0x3909 [])) ∧
  (∀ (s : State) (r : TwinRx) (f : TwinFrame), s.alive = true → s.twnEn = true → s.lanes.twinMaj r = f →
    f.crcOk = true → twNum f 0 1 = 1 → s.twn.role = .standby → twNum f 1 1 % 8 = 2 → s.twn.sync = false → s.regsOk →
    ∃ t, exec (.twinHbRx r) s = .next t ∧ t.twn.role = .joining ∧ t.twn.sync = false ∧ t.twn.joinAt = none ∧
    t.twn.mir = []) ∧
  (∀ (s : State) (r : TwinRx) (f : TwinFrame), s.alive = true → s.twnEn = true → s.lanes.twinMaj r = f →
    f.crcOk = true → twNum f 0 1 = 1 → s.twn.role = .standby → twNum f 1 1 % 8 = 2 → s.twn.sync = true →
    (twNum f 1 1).testBit 4 = false → s.regsOk → ∃ t, exec (.twinHbRx r) s = .next t ∧ t.twn.role = .joining ∧
    t.twn.sync = false ∧ t.twn.joinAt = none ∧ t.twn.mir = [] ∧ s.reports t 0x390a []) ∧
  (∀ (s : State) (r : TwinRx) (f : TwinFrame), s.alive = true → s.twnEn = true → s.lanes.twinMaj r = f →
    f.crcOk = true → twNum f 0 1 = 2 → s.twn.role = .standby → twNum f 2 2 < 16384 →
    ∃ t, exec (.twinMirRx r) s = .next t ∧
    t =
      { (s.modTwn fun x => { x with mir := x.mir ++ [⟨twNum f 2 2, wd (twNum f 4 4), (twNum f 1 1).testBit 0, (twNum f 1 1).testBit 1, wd (twNum f 8 4)⟩] }) with lanes := { s.lanes with bitDev := s.lanes.bitDev ||| s.lanes.twinDev r } })
      ∧
  (∀ (s : State) (r : TwinRx) (f : TwinFrame), s.alive = true → s.twnEn = true → s.lanes.twinMaj r = f →
    f.crcOk = true → twNum f 0 1 = 2 → (s.twn.role ≠ .standby ∨ 16384 ≤ twNum f 2 2) →
    exec (.twinMirRx r) s = .next
      ({ s with lanes := { s.lanes with bitDev := s.lanes.bitDev ||| s.lanes.twinDev r } })) ∧
  (∀ (s : State) (r : TwinRx) (f : TwinFrame) (k : Fin 8), s.alive = true → s.twnEn = true → s.lanes.twinMaj r = f →
    f.crcOk = true → twNum f 0 1 = 3 → twNum f 1 1 = k.val → s.twn.role = .standby →
    ∃ t, exec (.twinTrgRx r) s = .next t ∧ t.twn.trgs = s.twn.trgs ++ [⟨k, twNum f 2 8, wd (twNum f 10 4)⟩] ∧
    ((s.task k).trig = none → (t.task k).trig = some (twNum f 2 8 + s.mlag)) ∧
    ((s.task k).trig.isSome = true → (t.task k).trig = (s.task k).trig) ∧
    (((s.task k).rec').trig = 0 → (t.task k).grid = twNum f 2 8 + s.mlag + 1000 * ((s.task k).rec').period) ∧
    (∀ j : Fin 8, j ≠ k → t.task j = s.task j)) ∧
  (∀ (s : State) (r : TwinRx) (f : TwinFrame), s.alive = true → s.twnEn = true → s.lanes.twinMaj r = f →
    f.crcOk = true → twNum f 0 1 = 3 → (s.twn.role ≠ .standby ∨ 8 ≤ twNum f 1 1) →
    exec (.twinTrgRx r) s = .next
      ({ s with lanes := { s.lanes with bitDev := s.lanes.bitDev ||| s.lanes.twinDev r } })) ∧
  (∀ (s : State) (r : TwinRx) (f : TwinFrame) (e : Byte) (ws : List Word), s.alive = true → s.twnEn = true →
    s.lanes.twinMaj r = f → f.crcOk = true → twNum f 0 1 = 4 → twNum f 1 1 < 16 → twNum f 2 1 < 128 →
    s.twn.role = .standby → e = BitVec.ofNat 8 (twNum f 3 1) →
    ws = (((s.twn.mbw.find? fun m => m.1 == twNum f 1 1).map fun m => m.2.2).getD []).take (twNum f 2 1) ++ [wd (twNum
      f 4 4)] → ∃ t, exec (.twinMbwRx r) s = .next t ∧
    (t.twn.mbw = (twNum f 1 1, e, ws) :: s.twn.mbw.filter fun m => m.1 != twNum f 1 1) ∧ t.host = s.host) ∧
  (∀ (s : State) (r : TwinRx) (f : TwinFrame) (ws : List Word) (a : Bool), s.alive = true → s.twnEn = true →
    s.lanes.twinMaj r = f → f.crcOk = true → twNum f 0 1 = 4 → twNum f 1 1 < 16 → 128 ≤ twNum f 2 1 →
    s.twn.role = .standby →
    ws = (((s.twn.mbw.find? fun m => m.1 == twNum f 1 1).map fun m => m.2.2).getD []).take (twNum f 2 1 % 128) ++ [wd
      (twNum f 4 4)] → s.engReceives (twNum f 1 1) = some a →
    chanRoom (twNum f 1 1) ((s.chan (twNum f 1 1)).txq (!a)) ws.length = true → ∃ t, exec (.twinMbwRx r) s = .next t ∧
    (t.chan (twNum f 1 1)).txq (!a) = (s.chan (twNum f 1 1)).txq (!a) ++ [⟨BitVec.ofNat 8 (twNum f 3 1), ws⟩] ∧
    (t.twn.mbw = s.twn.mbw.filter fun m => m.1 != twNum f 1 1)) ∧
  (∀ (s : State) (r : TwinRx) (f : TwinFrame), s.alive = true → s.twnEn = true → s.lanes.twinMaj r = f →
    f.crcOk = true → twNum f 0 1 = 4 → (s.twn.role ≠ .standby ∨ 16 ≤ twNum f 1 1) →
    exec (.twinMbwRx r) s = .next
      ({ s with lanes := { s.lanes with bitDev := s.lanes.bitDev ||| s.lanes.twinDev r } })) ∧
  (∀ (s : State) (r : TwinRx) (f : TwinFrame) (k : Fin 8), s.alive = true → s.twnEn = true → s.lanes.twinMaj r = f →
    f.crcOk = true → twNum f 0 1 = 5 → twNum f 1 1 = k.val → s.twn.role = .standby →
    (s.twn.cmpOwn.find? fun e => e.1 == k && e.2.1 == wd (twNum f 2 4)) = none → ∃ t, exec (.twinCmpRx r) s = .next t ∧
    t =
      { (s.modTwn fun x => { x with cmpRx := (k, wd (twNum f 2 4), BitVec.ofNat 64 (twNum f 6 8)) :: x.cmpRx.filter fun e => e.1 != k }) with lanes := { s.lanes with bitDev := s.lanes.bitDev ||| s.lanes.twinDev r } })
      ∧
  (∀ (s : State) (r : TwinRx) (f : TwinFrame) (k : Fin 8) (d : Dword), s.alive = true → s.twnEn = true →
    s.lanes.twinMaj r = f → f.crcOk = true → twNum f 0 1 = 5 → twNum f 1 1 = k.val → s.twn.role = .standby →
    (s.twn.cmpOwn.find? fun e => e.1 == k && e.2.1 == wd (twNum f 2 4)) = some (k, wd (twNum f 2 4), d) →
    ∃ t, exec (.twinCmpRx r) s = .next t ∧
    t =
      ({ (s.modTwn fun x => { x with cmpOwn := x.cmpOwn.filter fun e => e.1 != k }) with lanes := { s.lanes with bitDev := s.lanes.bitDev ||| s.lanes.twinDev r } }).cmpJudge
      k d (BitVec.ofNat 64 (twNum f 6 8))) ∧
  (∀ (s : State) (r : TwinRx) (f : TwinFrame), s.alive = true → s.twnEn = true → s.lanes.twinMaj r = f →
    f.crcOk = true → twNum f 0 1 = 5 → (s.twn.role ≠ .standby ∨ 8 ≤ twNum f 1 1) →
    exec (.twinCmpRx r) s = .next
      ({ s with lanes := { s.lanes with bitDev := s.lanes.bitDev ||| s.lanes.twinDev r } })) ∧
  (∀ (s : State) (r : TwinRx) (f : TwinFrame), s.alive = true → s.twnEn = true → s.lanes.twinMaj r = f →
    f.crcOk = true → twNum f 0 1 = 6 → s.twn.role = .joining → s.twn.joinAt.isSome = true → twNum f 4 1 < 4 →
    s.xfrLines.contains (twNum f 1 3) = true → ∃ t, exec (.twinXfrRx r) s = .next t ∧
    t.pim = s.pim.writeBytes ramFill (xfrAddr (twNum f 1 3) (twNum f 4 1)) (natBytesLE (twNum f 5 8) 8) ∧
    t.twn = s.twn ∧ t.regs = s.regs) ∧
  (∀ (s : State) (r : TwinRx) (f : TwinFrame), s.alive = true → s.twnEn = true → s.lanes.twinMaj r = f →
    f.crcOk = true → twNum f 0 1 = 6 →
    (s.twn.role ≠ .joining ∨ s.twn.joinAt = none ∨ 4 ≤ twNum f 4 1 ∨ s.xfrLines.contains (twNum f 1 3) = false) →
    exec (.twinXfrRx r) s = .next
      ({ s with lanes := { s.lanes with bitDev := s.lanes.bitDev ||| s.lanes.twinDev r } })) ∧
  (∀ (s : State) (a : Nat), s.alive = true → s.twnEn = true → s.twn.role = .joining → s.twn.joinAt = some a →
    s.regsOk → ∃ t, exec (.joinPassEnd true) s = .next t ∧ t.twn.role = .standby ∧ t.twn.sync = true ∧
    t.twn.joinAt = none ∧ t.twn.mir = [] ∧ t.rd Reg.twnJointime = wd (satNat 0xffffffff ((s.now - a) / 1000000)) ∧
    bit (t.rd 0x39010) 4 = true ∧ (∀ k : Fin 8, (t.task k).act = none ∧ (t.task k).trig = none)) ∧
  (∀ (s : State) (a : Nat), s.alive = true → s.twnEn = true → s.twn.role = .joining → s.twn.joinAt = some a →
    s.twn.pass < 16 → ∃ t, exec (.joinPassEnd false) s = .next t ∧
    (t = s.modTwn fun x => { x with pass := x.pass + 1 })) ∧
  (∀ (s : State), s.alive = true → s.twnEn = true → s.twn.role = .active → s.twn.sentPim.isSome = true →
    s.xfrMarked.length < 256 → s.taskBoundary = true →
    s.readLines 6 ((s.xfrMarked).map fun l => pimInst / 8 + l) = (s, true) →
    ∃ t, exec (.joinPassEnd true) s = .next t ∧
    (t = (s.xfrMarked.foldl State.xfrLine s).modTwn fun x => { x with sentPim := none, pass := 0, sync := true })) ∧
  (∀ (s : State), s.alive = true → s.twnEn = true → s.twn.role = .active → s.twn.sentPim.isSome = true →
    s.twn.pass < 16 → s.readLines 6 ((s.xfrMarked).map fun l => pimInst / 8 + l) = (s, true) →
    ∃ t, exec (.joinPassEnd false) s = .next t ∧
    (t = (s.xfrMarked.foldl State.xfrLine s).modTwn fun x => { x with sentPim := some s.pim, pass := x.pass + 1 })) ∧
  (∀ (s : State) (last : Bool), s.twn.role = .active →
    (s.twn.sentPim = none ∨ last = true ∧ (256 ≤ s.xfrMarked.length ∨ s.taskBoundary = false) ∨ last = false ∧ 16 ≤
      s.twn.pass) → exec (.joinPassEnd last) s = .next (s)) ∧
  (∀ (s : State) (last : Bool), (s.alive = false ∨ s.twnEn = false ∨ s.twn.role ≠ .active ∧ s.twn.role ≠ .joining ∨
      s.twn.role = .joining ∧ (s.twn.joinAt = none ∨ last = false ∧ 16 ≤ s.twn.pass)) →
    exec (.joinPassEnd last) s = .next (s)) ∧
  (∀ (s u : State) (last : Bool), s.alive = true → s.twnEn = true → s.twn.role = .active →
    s.twn.sentPim.isSome = true →
    (if last = true then s.xfrMarked.length < 256 ∧ s.taskBoundary = true else s.twn.pass < 16) →
    s.readLines 6 ((s.xfrMarked).map fun l => pimInst / 8 + l) = (u, false) → exec (.joinPassEnd last) s = .next (u)) ∧
  (∀ (s : State), s.alive = true → s.twnEn = true → 16 ≤ s.twn.pass →
    (s.twn.role = .active ∨ s.twn.role = .joining) → ∃ t, exec .joinRestart s = .next t ∧
    (t = s.modTwn fun x =>
      { x with pass := 0, joinAt := none, sentPim := none, retryAt := some (nextWhole s.now 1000000000) })) ∧
  (∀ (s : State), (s.alive = false ∨ s.twnEn = false ∨ s.twn.pass < 16 ∨ s.twn.role ≠ .active ∧ s.twn.role ≠
      .joining) → exec .joinRestart s = .next (s)) ∧
  (∀ (s : State), s.alive = true → s.twnEn = true → s.twn.role = .active → s.twn.sync = true →
    ∃ t, exec .mirrorOverrun s = .next t ∧ t.twn.sync = false ∧ t.twn.role = .active ∧ t.twn.sentPim = none ∧
    s.reports t 0x390a []) ∧
  (∀ (s : State), (s.alive = false ∨ s.twnEn = false ∨ s.twn.role ≠ .active ∨ s.twn.sync = false) →
    exec .mirrorOverrun s = .next (s)) ∧
  (∀ (s : State) (m : MapE), s.alive = true → s.twnEn = true → s.twn.role = .active →
    (s.maps.filter fun m => !m.out).find? s.mirDue = some m →
    s.readLines 6 [(pimIpi + m.piw) / 8, (pimIst + m.piw) / 8] = (s, true) → ∃ t, exec .twinMirRefresh s = .next t ∧
    t.outbox = s.outbox ++ [.twin (mirFrame m.piw (s.pimRd (pimIpi + m.piw)) (s.pimRd (pimIst + m.piw)) (s.fresh
      m.piw))] ∧ t.pim = s.pim ∧ t.regs = s.regs) ∧
  (∀ (s : State), (s.alive = false ∨ s.twnEn = false ∨ s.twn.role ≠ .active ∨ (s.maps.filter fun m => !m.out).find?
      s.mirDue = none) → exec .twinMirRefresh s = .next (s)) ∧
  (∀ (s u : State) (m : MapE), s.alive = true → s.twnEn = true → s.twn.role = .active →
    (s.maps.filter fun m => !m.out).find? s.mirDue = some m →
    s.readLines 6 [(pimIpi + m.piw) / 8, (pimIst + m.piw) / 8] = (u, false) → exec .twinMirRefresh s = .next (u)) ∧
  (∀ (s : State), s.allowsWrite .pf0 Reg.twnRejoin 1 = true → s.twnEn = true →
    ∃ t, exec (.twinRejoin .pf0) s = .next t ∧ t = s.twnRejoin ∧
    (s.twn.role = .unfit ∨ s.twn.role = .standby → t.twn.role = .joining ∧ t.twn.fit = true ∧ t.twn.sync = false) ∧
    (s.twn.role = .active ∨ s.twn.role = .wait → t.twn.role = s.twn.role ∧ t.twn.fit = true)) ∧
  (∀ (s : State), s.allowsWrite .pf0 Reg.twnRejoin 1 = true → s.twnEn = false →
    exec (.twinRejoin .pf0) s = .next (s))

/-- The grant, takeover, this module as referee, and the ages of the group switches (R458, R466 to R470, R472, R485, R487).
Where its conditions do not hold, a command changes nothing. -/
def Obligations.GrantDecidesTheActiveUnit : Prop :=
  (∀ (s : State), s.alive = true → s.twnEn = true → s.twn.role = .wait → s.twn.askAt ≤ s.now →
    ∃ t, exec .twinGrantRequest s = .next t ∧ (t = (s.owlTell 3).modTwn fun x => { x with askAt := s.now + 1000000 }) ∧
    t.outbox = s.outbox ++ [.owl 3
      ⟨BitVec.ofBool s.twnUnit, s.pairId, s.twn.owlSeq + 1, BitVec.ofNat 64 s.now, 0, false, true⟩]) ∧
  (∀ (s : State), (s.alive = false ∨ s.twnEn = false ∨ s.twn.role ≠ .wait ∨ s.now < s.twn.askAt) →
    exec .twinGrantRequest s = .next (s)) ∧
  (∀ (s : State), s.alive = true → s.twnEn = true → s.twn.hbOk = true →
    (s.twn.hbAt + 150000 ≤ s.now ∨ bit (s.rd Reg.twnPeer) 5 = true) → s.twn.role = .standby → s.regsOk →
    ∃ t, exec .heartbeatLost s = .next t ∧ t.twn.hbOk = false ∧ t.twn.lostAt = some s.now ∧ t.twn.told308 = false ∧
    bit (t.rd 0x39010) 0 = true ∧ s.reports t 0x3901 [] ∧
    (s.twn.fit = true → s.twn.sync = true → t.twn.reqAt = some s.now ∧ t.outbox = s.outbox ++ [.owl 3
      ⟨BitVec.ofBool s.twnUnit, s.pairId, s.twn.owlSeq + 1, BitVec.ofNat 64 s.now, 0, false, true⟩]) ∧
    (s.twn.fit = false ∨ s.twn.sync = false → t.twn.reqAt = s.twn.reqAt ∧ t.outbox = s.outbox)) ∧
  (∀ (s : State), s.alive = true → s.twnEn = true → s.twn.hbOk = true →
    (s.twn.hbAt + 150000 ≤ s.now ∨ bit (s.rd Reg.twnPeer) 5 = true) → s.twn.role ≠ .standby →
    exec .heartbeatLost s = .next (s.modTwn fun x => { x with hbOk := false })) ∧
  (∀ (s : State), (s.alive = false ∨ s.twnEn = false ∨ s.twn.hbOk = false ∨ s.now < s.twn.hbAt + 150000 ∧ bit (s.rd
      Reg.twnPeer) 5 = false) → exec .heartbeatLost s = .next (s)) ∧
  (∀ (s : State) (r l : Nat), s.alive = true → s.twnEn = true → s.twn.role = .standby → s.twn.reqAt = some r →
    r + 20000 ≤ s.now → s.twn.lostAt = some l → l + 60000 ≤ s.now → s.twn.told308 = false → s.regsOk →
    ∃ t, exec .requestRepeat s = .next t ∧ t.twn.reqAt = some s.now ∧ t.twn.told308 = true ∧ t.twn.refOk = false ∧
    bit (t.rd 0x39010) 6 = true ∧ s.reports t 0x3908 []) ∧
  (∀ (s : State) (r l : Nat), s.alive = true → s.twnEn = true → s.twn.role = .standby → s.twn.reqAt = some r →
    r + 20000 ≤ s.now → s.twn.lostAt = some l → (s.now < l + 60000 ∨ s.twn.told308 = true) →
    ∃ t, exec .requestRepeat s = .next t ∧ (t = (s.owlTell 3).modTwn fun x => { x with reqAt := some s.now })) ∧
  (∀ (s : State), (s.alive = false ∨ s.twnEn = false ∨ s.twn.role ≠ .standby ∨ s.twn.reqAt = none ∨ ∃ r, s.twn.reqAt
      = some r ∧ s.now < r + 20000) → exec .requestRepeat s = .next (s)) ∧
  (∀ (s : State) (m : OwlMsg), s.owlMine m = true → m.valid = true → m.holder = m.unit → s.twn.role = .wait →
    ∃ t, exec (.refGrantRx m) s = .next t ∧ t.twn.role = .active ∧ t.twn.refOk = true ∧ t.twn.ackAt = s.now ∧
    t.mstate = s.mstate) ∧
  (∀ (s : State) (m : OwlMsg) (l : Nat), s.owlMine m = true → m.valid = true → m.holder = m.unit →
    s.twn.role = .standby → s.twn.reqAt.isSome = true → s.twn.lostAt = some l → s.regsOk →
    ∃ t, exec (.refGrantRx m) s = .next t ∧ t.twn.role = .active ∧ t.twn.reqAt = none ∧ t.twn.sync = false ∧
    t.twn.lostAt = none ∧ t.twn.own = [] ∧ t.rd Reg.twnLastto = wd (satNat 0xffffffff ((s.now - l) / 1000)) ∧
    t.rd Reg.twnTakeovers = satInc (s.rd Reg.twnTakeovers) 0xffffffff ∧ bit (t.rd 0x39010) 1 = true) ∧
  (∀ (s : State) (m : OwlMsg), s.owlMine m = true → m.valid = true → m.holder = m.unit → s.twn.role ≠ .wait ∧
    (s.twn.role = .standby → s.twn.reqAt = none) →
    exec (.refGrantRx m) s = .next (s.modTwn fun x => { x with refOk := true, ansAt := s.now + 1 })) ∧
  (∀ (s : State) (m : OwlMsg), (s.owlMine m = false ∨ m.valid = false ∨ m.holder ≠ m.unit) →
    exec (.refGrantRx m) s = .next (s)) ∧
  (∀ (s : State) (m : OwlMsg), s.owlMine m = true → s.twn.role = .standby → s.twn.reqAt.isSome = true → s.regsOk →
    ∃ t, exec (.refDenyRx m) s = .next t ∧ t.twn.role = .standby ∧ t.twn.sync = false ∧ t.twn.reqAt = none ∧
    t.twn.refOk = true ∧ bit (t.rd 0x39010) 5 = true ∧ s.reports t 0x3907 []) ∧
  (∀ (s : State) (m : OwlMsg), s.owlMine m = true → s.twn.role = .wait → m.valid = true → m.holder ≠ m.unit →
    ∃ t, exec (.refDenyRx m) s = .next t ∧ t.twn.role = .joining ∧ t.twn.sync = false ∧ t.twn.joinAt = none ∧
    t.twn.refOk = true) ∧
  (∀ (s : State) (m : OwlMsg), s.owlMine m = true → (s.twn.role = .wait → m.valid = false ∨ m.holder = m.unit) →
    (s.twn.role = .standby → s.twn.reqAt = none) →
    exec (.refDenyRx m) s = .next (s.modTwn fun x => { x with refOk := true, ansAt := s.now + 1 })) ∧
  (∀ (s : State) (m : OwlMsg), s.owlMine m = false → exec (.refDenyRx m) s = .next (s)) ∧
  (∀ (s : State) (m : OwlMsg), s.owlMine m = true → ∃ t, exec (.renewAckRx m) s = .next t ∧
    (t = s.modTwn fun x => { x with refOk := true, ansAt := s.now + 1, ackAt := s.now, told30b := false })) ∧
  (∀ (s : State) (m : OwlMsg), s.owlMine m = false → exec (.renewAckRx m) s = .next (s)) ∧
  (∀ (s : State), s.alive = true → s.twnEn = true → s.twn.role = .active → s.twn.ackAt + 100000 ≤ s.now →
    s.twn.told30b = false → ∃ t, exec .renewAckTimeout s = .next t ∧
    t.twn = { s.twn with told30b := true, refOk := false } ∧ s.reports t 0x390b []) ∧
  (∀ (s : State), (s.alive = false ∨ s.twnEn = false ∨ s.twn.role ≠ .active ∨ s.now < s.twn.ackAt + 100000 ∨
      s.twn.told30b = true) → exec .renewAckTimeout s = .next (s)) ∧
  (∀ (s : State), s.alive = true → s.safeLatch = true → s.twn.tellSafe = true →
    ∃ t, exec .safeTwinRelinquish s = .next t ∧
    t.outbox = s.outbox ++ [.twin (twinFrame ([1, s.hbByte] ++ bytesLE (s.twn.hbSeq + 1) 2 ++ natBytesLE s.now 8 ++
      bytesLE s.imageId 4)), .owl 6
      ⟨BitVec.ofBool s.twnUnit, s.pairId, s.twn.owlSeq + 1, BitVec.ofNat 64 s.now, 0, false, true⟩] ∧
    t.twn.tellSafe = false ∧ t.mstate = s.mstate ∧ t.regs = s.regs) ∧
  (∀ (s : State), (s.alive = false ∨ s.safeLatch = false ∨ s.twn.tellSafe = false) →
    exec .safeTwinRelinquish s = .next (s)) ∧
  (∀ (s : State) (m : OwlMsg) (k : Fin 8), s.refPair m = some k → (s.twn.pairs[k]).held s.now = false →
    ∃ t, exec (.refereeRequestRx m) s = .next t ∧ t.twn.pairs[k] = ⟨m.unit == 1, true, s.now + 100000⟩ ∧
    t.outbox = s.outbox ++ [.owl 4
      ⟨BitVec.ofBool (m.unit == 1), m.pair, s.twn.owlSeq + 1, BitVec.ofNat 64 s.now, BitVec.ofBool (m.unit == 1), true, true⟩]
      ∧ (∀ j : Fin 8, j ≠ k → t.twn.pairs[j] = s.twn.pairs[j])) ∧
  (∀ (s : State) (m : OwlMsg) (k : Fin 8), s.refPair m = some k → (s.twn.pairs[k]).held s.now = true →
    ∃ t, exec (.refereeRequestRx m) s = .next t ∧ t.twn.pairs = s.twn.pairs ∧
    t.outbox = s.outbox ++ [.owl (if (s.twn.pairs[k]).heldBy m then 4 else 5)
      ⟨BitVec.ofBool (m.unit == 1), m.pair, s.twn.owlSeq + 1, BitVec.ofNat 64 s.now, BitVec.ofBool (s.twn.pairs[k]).holder, true, true⟩])
      ∧
  (∀ (s : State) (m : OwlMsg), s.refPair m = none → exec (.refereeRequestRx m) s = .next (s)) ∧
  (∀ (s : State) (m : OwlMsg) (k : Fin 8), s.refPair m = some k → (s.twn.pairs[k]).heldBy m = true →
    ∃ t, exec (.refereeRenewRx m) s = .next t ∧ t.twn.pairs[k] = ⟨(s.twn.pairs[k]).holder, true, s.now + 100000⟩ ∧
    t.outbox = s.outbox ++ [.owl 2
      ⟨BitVec.ofBool (m.unit == 1), m.pair, s.twn.owlSeq + 1, BitVec.ofNat 64 s.now, BitVec.ofBool (s.twn.pairs[k]).holder, true, true⟩])
      ∧
  (∀ (s : State) (m : OwlMsg) (k : Fin 8), s.refPair m = some k → (s.twn.pairs[k]).heldBy m = false →
    ∃ t, exec (.refereeRenewRx m) s = .next t ∧ t.twn.pairs = s.twn.pairs ∧
    t.outbox = s.outbox ++ [.owl 5
      ⟨BitVec.ofBool (m.unit == 1), m.pair, s.twn.owlSeq + 1, BitVec.ofNat 64 s.now, BitVec.ofBool (s.twn.pairs[k]).holder, (s.twn.pairs[k]).valid, true⟩])
      ∧
  (∀ (s : State) (m : OwlMsg), s.refPair m = none → exec (.refereeRenewRx m) s = .next (s)) ∧
  (∀ (s : State) (m : OwlMsg) (k : Fin 8), s.refPair m = some k → (s.twn.pairs[k]).heldBy m = true →
    ∃ t, exec (.refereeRelinquishRx m) s = .next t ∧ t.twn.pairs[k] = ⟨(s.twn.pairs[k]).holder, false, s.now⟩ ∧
    t.outbox = s.outbox) ∧
  (∀ (s : State) (m : OwlMsg), s.refPair m = none → exec (.refereeRelinquishRx m) s = .next (s)) ∧
  (∀ (s : State) (m : OwlMsg) (k : Fin 8), s.refPair m = some k → (s.twn.pairs[k]).heldBy m = false →
    exec (.refereeRelinquishRx m) s = .next (s)) ∧
  (∀ (s : State) (k : Fin 8), s.alive = true → (s.twn.pairs[k]).valid = true → (s.twn.pairs[k]).expiry ≤ s.now →
    ∃ t, exec (.refereeGrantExpiry k) s = .next t ∧
    t.twn.pairs[k] = ⟨(s.twn.pairs[k]).holder, false, (s.twn.pairs[k]).expiry⟩ ∧ (t.twn.pairs[k]).held t.now = false ∧
    t.regs = s.regs) ∧
  (∀ (s : State) (k : Fin 8), (s.alive = false ∨ (s.twn.pairs[k]).valid = false ∨ s.now < (s.twn.pairs[k]).expiry) →
    exec (.refereeGrantExpiry k) s = .next (s)) ∧
  (∀ (s : State) (g : Fin 4), s.alive = true → fld (s.rd Reg.diaGsmax) 0 16 = 0 → s.regsOk →
    ∃ t, exec .gsageHour s = .next t ∧
    t.rd (Reg.diaGsage g) = wd (satNat 0xffff ((s.now - (s.fioG g).gswAt) / 3600000000000)) ∧ t.sett = s.sett ∧
    t.fio = s.fio) ∧
  (∀ (s : State), s.alive = false → exec .gsageHour s = .next (s)) ∧
  (∀ (s : State) (g : Fin 4) (h m was : Nat), s.alive = true → s.regsOk →
    h = satNat 0xffff ((s.now - (s.fioG g).gswAt) / 3600000000000) → m = fld (s.rd Reg.diaGsmax) 0 16 →
    was = (s.rd (Reg.diaGsage g)).toNat → ∃ t, exec .gsageHour s = .next t ∧ t.rd (Reg.diaGsage g) = wd h ∧
    (m ≠ 0 ∧ was < h ∧ h / m ≠ was / m ∧ (∃ k : Fin 4, s.fioOuten g k = true) → bit (t.rd 0x04010) 3 = true)) ∧
  (∀ (s : State) (i : Fin 64), s.allowsWrite .pf0 Reg.diaCntclr 1 = true → s.regsOk →
    ∃ t, exec (.diaCounterClear .pf0) s = .next t ∧ t.rd Reg.diaFltcnt = 0 ∧ t.rd Reg.diaEvtcnt = 0 ∧
    t.rd (Reg.diaFcnt i) = 0 ∧ t.rd Reg.diaLastflt = s.rd Reg.diaLastflt)

/-- A step takes the command at the front of the queue and runs it (log entry 1: the queue is the model's). -/
def Obligations.StepRunsTheFrontCommand : Prop :=
  ∀ (c : Instr) (rest : List Instr) (s : State), s.pending = c :: rest →
    step s = exec c { s with pending := rest }

/-- No command of the table ends in a stop, and none touches the queue (log entry 1: the queue is the model's). -/
def Obligations.EveryCommandCompletes : Prop :=
  ∀ (c : Instr) (s : State), ∃ t, exec c s = .next t ∧ t.pending = s.pending

/-- The idle step (log entry 8, the model's choice): a clock edge for module time (R338) and the RTC, and nothing else. -/
def Obligations.IdleStepIsAClockEdge : Prop :=
  ∀ s : State, s.pending = [] →
    ∃ n f r, step s = .next { s with now := n, frac := f, rtc := r } ∧ s.now ≤ n ∧
      (s.alive = false → n = s.now ∧ f = s.frac) ∧ (s.supply = .off → r = s.rtc) ∧
      (s.alive = true → n = s.now + (4 + (timeAcc s.frac (s.rd Reg.ptpRate)).fdiv 4294967296).toNat)

/-- The state after reset (R23, R431); what the spec gives no value for is the model's (log entries 3 and 4). -/
def Obligations.ResetState : Prop :=
  State.reset.canonical ∧ ¬ State.reset.dark ∧ State.reset.alive = true ∧ State.reset.mstate = .boot ∧
    State.reset.bootPh = .clocks ∧ State.reset.pstate = .run ∧ State.reset.eng.mode = .stop ∧ State.reset.imgRun = false ∧
    State.reset.quiet ∧ State.reset.commandsOff ∧ State.reset.pending = [] ∧ State.reset.outbox = [] ∧
    State.reset.pos = 0 ∧ State.reset.rd Reg.sysRstcause = 1 ∧ State.reset.now = 0 ∧
    (∀ a : Nat, a ≠ Reg.sysRstcause → State.reset.rd a = regReset a) ∧ (∀ w : Nat, State.reset.pimRd w = 0)

/-- Undefined BAR0 offsets (R35): a page slot that is not listed, a reserved range, an offset that a page's map does not define. -/
def Obligations.UndefinedOffsetsAreInert : Prop :=
  (∀ (p off : Nat), off < 0x1000 →
      p ∉ [0x0, 0x1, 0x2, 0x3, 0x4, 0x8, 0x9, 0xa, 0xb, 0xc, 0xd, 0x10, 0x11, 0x12, 0x13, 0x14, 0x15, 0x16, 0x17, 0x18, 0x19,
        0x20, 0x21, 0x22, 0x23, 0x24, 0x28, 0x29, 0x2a, 0x2b, 0x2c, 0x2d, 0x30, 0x31, 0x32, 0x34, 0x38, 0x39] →
      regDef (p * 0x1000 + off) = none) ∧
  (∀ (s : State) (a n : Nat), (∀ i < n, regDef ((a + i) - (a + i) % 4) = none) →
    s.readBar0 a n = List.replicate n 0) ∧
  (∀ (s : State) (pf : Pf) (a : BitVec 20) (size : Nat) (v : Dword), size ∈ [1, 2, 4, 8] →
    (∀ i < size, regDef ((a.toNat + i) - (a.toNat + i) % 4) = none) → exec (.regWrite pf a size v) s = .next s)

/-- Sizes of host accesses to BAR0 (R42); an undefined offset takes R35, a sealed DBG.CMD R41. -/
def Obligations.HostAccessSizes : Prop :=
  (∀ (s : State) (a n i : Nat), n ∈ [1, 2, 4, 8] → i < n →
      (s.readBar0 a n)[i]? = some ((bytesLE (s.readReg ((a + i) / 4 * 4)) 4).getD ((a + i) % 4) 0)) ∧
  (∀ (s : State) (a : Nat), regDef a = none → s.readReg a = 0) ∧
  (∀ (s u : State) (pf : Pf) (a b : BitVec 20) (v : Dword), a.toNat % 4 = 0 → b.toNat = a.toNat + 4 →
    exec (.regWrite pf a 4 ((v.truncate 32 : Word).zeroExtend 64)) s = .next u →
    exec (.regWrite pf a 8 v) s = exec (.regWrite pf b 4 (v >>> 32)) u) ∧
  (∀ (s : State) (pf : Pf) (a : BitVec 20) (size : Nat) (v : Dword) (d : RegDef), s.booted = true → s.regsOk →
    ¬ (a.toNat % 4 = 0 ∧ (size = 4 ∨ size = 8)) → regDef (a.toNat - a.toNat % 4) = some d →
    ¬ (a.toNat - a.toNat % 4 = Reg.dbgCmd ∧ s.sealRo 13 = true) →
    ∃ t, exec (.regWrite pf a size v) s = .next t ∧ (∃ r, t = { s with regs := r }) ∧
      t.rd (a.toNat / 0x1000 * 0x1000 + 0x10) = s.rd (a.toNat / 0x1000 * 0x1000 + 0x10) ||| 0x40000000 ∧
      ∀ x : Nat, x ≠ a.toNat / 0x1000 * 0x1000 + 0x10 → t.rd x = s.rd x) ∧
  (∀ (s : State) (pf : Pf) (a : BitVec 20) (size : Nat) (v : Dword), s.booted = true → s.regsOk → s.sealRo 13 = true →
    ¬ (a.toNat % 4 = 0 ∧ (size = 4 ∨ size = 8)) → a.toNat - a.toNat % 4 = Reg.dbgCmd →
    ∃ t, exec (.regWrite pf a size v) s = .next t ∧ (∃ r, t = { s with regs := r }) ∧
      t.rd 0xd010 = s.rd 0xd010 ||| 0x40000002 ∧ ∀ x : Nat, x ≠ 0xd010 → t.rd x = s.rd x) ∧
  (∀ (s : State) (pf : Pf) (a : BitVec 20) (size : Nat) (v : Dword), s.booted = true →
    ¬ (a.toNat % 4 = 0 ∧ (size = 4 ∨ size = 8)) → regDef (a.toNat - a.toNat % 4) = none →
    exec (.regWrite pf a size v) s = .next s)

/-- The partitions of the notice SRAM (R30, R31). -/
def Obligations.NoticeSramPartitions : Prop :=
  (∀ (s : State) (a n : Nat), a + n ≤ 0x200000 → s.readBar2 .pf1 a n = List.replicate n 0) ∧
  (∀ (s : State) (a : Nat), a < 0x800000 → s.readBar2 .pf0 a 1 = [s.notice.read ramFill a]) ∧
  (∀ (s : State) (off : BitVec 24) (data : List Byte), s.booted = true → off.toNat + data.length ≤ 0x200000 →
    exec (.noticeSramWrite .pf1 off data) s = .next s) ∧
  (∀ (s : State) (off : BitVec 24) (data : List Byte), s.booted = true → Memory.wf ramFill s.notice = true →
    off.toNat + data.length ≤ 0x800000 → ∃ m, exec (.noticeSramWrite .pf0 off data) s = .next { s with notice := m } ∧
      Memory.wf ramFill m = true ∧
      (∀ i < data.length, m.read ramFill (off.toNat + i) = data.getD i 0) ∧
      ∀ a : Nat, a < off.toNat ∨ off.toNat + data.length ≤ a → m.read ramFill a = s.notice.read ramFill a) ∧
  (∀ (s : State) (r : AtomicReq), s.booted = true → r.bar2 = true → r.off.toNat < 0x200000 →
    ∃ t, exec (.atomicOp .pf1 r) s = .next t ∧ t.outbox = s.outbox ++ [.atomic .pf1 true 0] ∧ t.notice = s.notice)

/-- The packing blocks and QCHK (R126), as the meanings that BlocksComplete runs. -/
def Obligations.PackingBlocks : Prop :=
  (∀ (s : State) (k : Fin 8) (a : Act) (i x : Nat), i < 0x4000 →
    s.readSlot k a (wd (0xe00000 + i)) tUDINT x = s.pimRd (pimShadowSt k + i)) ∧
  (∀ x : BIn, (blkQchk.sem x).outs =
    [some (b2w (bit (x.w 0) 31 && decide ((((x.w 0).toNat % 2 ^ 24 : Nat) : Int) ≤ (x.w 1).toInt))),
      some (wd ((x.w 0).toNat % 2 ^ 24))]) ∧
  (∀ x : BIn, x.ins.length ≤ 32 → ∃ q : Word, (blkPack.sem x).outs = [some q] ∧
    ∀ k < 32, bit q k = (decide (k < x.ins.length) && bit (x.w k) 0)) ∧
  (∀ x : BIn, (blkUnpack.sem x).outs = (List.range x.nout).map fun (k : Nat) => some (b2w (bit (x.w 0) k))) ∧
  (∀ x : BIn, tyWidth x.dty ∈ [8, 16, 32] → ∃ q : Word, (blkBswap.sem x).outs = [some q] ∧
    ∀ i < 4, fld q (8 * i) 8 = if i < tyWidth x.dty / 8 then fld (x.w 0) (8 * (tyWidth x.dty / 8 - 1 - i)) 8 else 0)

/-- Comparison (R100), as the meanings that BlocksComplete runs. -/
def Obligations.CompareBlocks : Prop :=
  (∀ x : BIn, x.dty = tREAL → (fIsNaN (x.w 0) || fIsNaN (x.w 1)) = true →
    (blkEq.sem x).outs = [some 0] ∧ (blkLt.sem x).outs = [some 0] ∧ (blkLe.sem x).outs = [some 0] ∧
    (blkGt.sem x).outs = [some 0] ∧ (blkGe.sem x).outs = [some 0] ∧ (blkNe.sem x).outs = [some 1]) ∧
  (∀ x : BIn, x.dty = tREAL → x.w 0 ∈ [(0 : Word), 0x80000000] → x.w 1 ∈ [(0 : Word), 0x80000000] →
    (blkEq.sem x).outs = [some 1] ∧ (blkNe.sem x).outs = [some 0] ∧ (blkLt.sem x).outs = [some 0] ∧
    (blkLe.sem x).outs = [some 1] ∧ (blkGt.sem x).outs = [some 0] ∧ (blkGe.sem x).outs = [some 1]) ∧
  (∀ x : BIn, x.dty = tREAL → x.ins ≠ [] → (x.ins.any fun (w : Word) => fIsNaN w) = true →
    (blkMin.sem x).outs = [some fNaN] ∧ (blkMax.sem x).outs = [some fNaN] ∧ (blkLimit.sem x).outs = [some fNaN]) ∧
  (∀ (x : BIn) (n : Nat), x.dty ≠ tREAL → x.dty ≠ tBOOL → tySI x.dty = false → n = tyWidth x.dty →
    (blkLt.sem x).outs = [some (b2w (decide ((x.w 0).toNat % 2 ^ n < (x.w 1).toNat % 2 ^ n)))] ∧
    (blkLe.sem x).outs = [some (b2w (decide ((x.w 0).toNat % 2 ^ n ≤ (x.w 1).toNat % 2 ^ n)))] ∧
    (blkGt.sem x).outs = [some (b2w (decide ((x.w 1).toNat % 2 ^ n < (x.w 0).toNat % 2 ^ n)))] ∧
    (blkGe.sem x).outs = [some (b2w (decide ((x.w 1).toNat % 2 ^ n ≤ (x.w 0).toNat % 2 ^ n)))]) ∧
  (∀ x : BIn, tySI x.dty = true →
    (blkLt.sem x).outs = [some (b2w (decide (x.v 0 < x.v 1)))] ∧
    (blkLe.sem x).outs = [some (b2w (decide (x.v 0 ≤ x.v 1)))] ∧
    (blkGt.sem x).outs = [some (b2w (decide (x.v 1 < x.v 0)))] ∧
    (blkGe.sem x).outs = [some (b2w (decide (x.v 1 ≤ x.v 0)))] ∧
    (∀ i n m : Nat, n = tyWidth x.dty → m = (x.w i).toNat % 2 ^ n →
      x.v i = if m < 2 ^ (n - 1) then (m : Int) else (m : Int) - 2 ^ n)) ∧
  (∀ x : BIn, x.dty ≠ tREAL → x.w 0 = tyExt x.dty (x.w 0) → x.w 1 = tyExt x.dty (x.w 1) →
    (blkEq.sem x).outs = [some (b2w (decide (x.v 0 = x.v 1)))] ∧ (blkNe.sem x).outs = [some (b2w (decide (x.v 0 ≠ x.v 1)))])

/-- Entering SAFE (R480, R481, R141); the seal behind 0x0401 is the model's reading of R392. -/
def Obligations.EnteringSafe : Prop :=
  (∀ (s t : State) (code inst : Nat) (pay : List Word), s.safeLatch = false → s.regsOk →
    t = s.enterSafe code inst pay →
    t.safeLatch = true ∧ t.mstate = .safe ∧ t.eng.mode = .stop ∧ t.eng.running = none ∧ t.eng.change = .none ∧
    (∀ k : Fin 8, (t.task k).act = none ∧ (t.task k).trig = none) ∧ (∀ (g : Fin 4) (l : Fin 3), ((t.fioG g).cp[l]).en = false) ∧
    t.lanes.rs = .idle ∧ t.host.safeTell = true ∧ t.now = s.now ∧
    t.rd Reg.diaSafecause = wd (code ||| 0x80000000) ∧ t.rd Reg.diaSafepay = pay.headD 0 ∧
    t.rd Reg.diaSafetLo = loN s.now ∧ t.rd (Reg.diaSafetLo + 4) = hiN s.now ∧
    (s.sett.stopped = false → s.sett.restart = false → s.sett.intake.length < 1000 →
      ∃ e l, t.sett.intake = s.sett.intake ++
          [.event ⟨mkSource (code / 0x100) inst s.synced, BitVec.ofNat 16 code, pay8 pay, s.now, none⟩, .event e, .seal] ++ l ∧
        e.code = 0x0401 ∧ e.pay = pay8 [wd code, pay.headD 0, s.mstate.code] ∧ e.t = s.now)) ∧
  (∀ (s : State) (code inst : Nat) (pay : List Word), s.safeLatch = true →
    s.enterSafe code inst pay = s.raiseI code inst pay)

/-- The frame of a block command where lanes agree (R94 to R96, R139, R184): BlocksComplete gives the state, this what it leaves. -/
def Obligations.BlockFrame : Prop :=
  (∀ (s : State) (b : BlockDef) (k : Fin 8) (a : Act) (d : Nat), (s.task k).act = some a →
    (s.ranBlock b k a d).safeLatch = false → Memory.wf ramFill s.pim = true →
    (s.ranBlock b k a d).regs = s.regs ∧ (s.ranBlock b k a d).sett = s.sett ∧ (s.ranBlock b k a d).outbox = s.outbox ∧
    (s.ranBlock b k a d).fio = s.fio ∧ (∃ p l, (s.ranBlock b k a d).lanes = { s.lanes with pipe := p, lcrS := l }) ∧ (s.ranBlock b k a d).mot = s.mot ∧
    (s.ranBlock b k a d).notice = s.notice ∧ (s.ranBlock b k a d).cfgFlash = s.cfgFlash ∧ (s.ranBlock b k a d).upd = s.upd ∧
    (s.ranBlock b k a d).mstate = s.mstate ∧ s.safeLatch = false ∧
    (∀ j, j ≠ k → (s.ranBlock b k a d).task j = s.task j) ∧
    ∀ x : Nat,
      (∀ w ∈ s.blockOuts b d (b.sem (s.blockIn b k a d [])),
        x ≠ if refPim (slotRef w.1) then slotRef w.1 else pimOps + refIdx (slotRef w.1) % 0x4000) →
      ¬ (s.irefAt d + 1 ≤ x ∧ x < s.irefAt d + 1 + (b.sem (s.blockIn b k a d [])).inst.length) →
      x ≠ pimSysv k + 4 → (s.ranBlock b k a d).pimRd x = s.pimRd x) ∧
  (∀ (s : State) (b : BlockDef) (k : Fin 8) (a : Act) (d : Nat), (s.task k).act = some a → s.safeLatch = false →
    (∀ w ∈ s.blockOuts b d (b.sem (s.blockIn b k a d [])), refPim (slotRef w.1) = true → pimInst ≤ slotRef w.1) →
    ((b.sem (s.blockIn b k a d [])).inst = [] ∨ pimInst ≤ s.irefAt d) →
    a.pe + fld (s.pimRd (s.descAt d)) 24 8 ≤ (s.task k).rec'.wcpe → Memory.wf ramFill s.pim = true →
    (s.ranBlock b k a d).safeLatch = false)

/-- The frame of the field side's own commands (R196, R197, R204, R208, R213, R216): the isolation leaves everything else to the frames. -/
def Obligations.FieldSideCommandsFrame : Prop :=
  (∀ (s : State) (g : Fin 4) (c : Instr),
    (c = .fieldLatchClear g ∨ (∃ k hot, c = .outputTrip g k hot) ∨ (∃ v, c = .supplyThresholdCross g v) ∨
      c = .supplyCutoff g ∨ c = .supplyReady g ∨ c = .receiverLock g .field) →
    ∃ x, exec c s = .next { s with fside := s.fside.set g x }) ∧
  (∀ (s : State) (g : Fin 4) (p : FieldPins), ∃ x f,
    exec (.fieldUpstreamTx g p) s = .next { s with fside := s.fside.set g x, fio := s.fio.set g f } ∧
      ∃ u, f = { s.fio[g] with up := u })

/-- An unpowered module (R413, R424, R425, R497): the invariant that every step keeps, over every command of the table. -/
def Obligations.UnpoweredModule : Prop :=
  (∀ (c : Instr) (s : State), s.supply = .off → c ≠ .mainSupplyUp →
    ∃ d l n, exec c s = .next { s with dorm := d, rstLow := l, freeCount := n }) ∧
  (∀ s t : State, s.dark → step s = .next t → t.dark ∧ t.regs = s.regs ∧ t.tables = s.tables ∧ t.pim = s.pim ∧
    t.notice = s.notice ∧ t.cfgFlash = s.cfgFlash ∧ t.outbox = s.outbox ∧ t.eng = s.eng ∧ t.lanes = s.lanes ∧
    t.sett = s.sett ∧ t.upd = s.upd ∧ t.fio = s.fio ∧ t.fside = s.fside ∧ t.mstate = s.mstate ∧ t.now = s.now ∧
    t.rtc = s.rtc)

/-- Frames of the plant commands: what each leaves (R162 to R187, R192 to R222, R226 to R263). -/
def Obligations.PlantFrame : Prop :=
  (∀ (s t : State) (g k : Fin 4) (t1 : Fin 2), (exec (.testPulseStart g k) s = .next t ∨ exec (.downstreamFrameTx g)
      s = .next t ∨ exec (.testSourcePulseStart g t1) s = .next t) → t = { s with fio := t.fio }) ∧
  (∀ (s t : State) (g : Fin 4) (failed : BitVec 8), (exec (.fieldDownstreamMissing g) s = .next t ∨ exec
      (.comparatorTest g failed) s = .next t ∨ exec (.fieldSideReset g) s = .next t ∨ exec (.fieldSideRestart g) s =
      .next t) → t = { s with fside := t.fside }) ∧
  (∀ (s t : State) (g : Fin 4) (noise : BitVec 96) (railLow : Bool) (e : LinkEnd), (exec (.fieldDownstreamRx g noise
      railLow) s = .next t ∨ exec (.receiverLock g e) s = .next t) → t = { s with fio := t.fio, fside := t.fside }) ∧
  (∀ (s t : State) (pf : Pf) (g : Fin 4) (v : Word), (exec (.testPulseRequest pf g v) s = .next t ∨ exec
      (.upstreamFrameMissing g) s = .next t) → t = { s with regs := t.regs, fio := t.fio }) ∧
  (∀ (s t : State) (g k : Fin 4) (lane : Fin 3), (exec (.openLoad g k) s = .next t ∨ exec (.outputShort g k) s =
      .next t ∨ exec (.laneWordInvalid g lane) s = .next t) →
    t = { s with regs := t.regs, sett := t.sett, fio := t.fio }) ∧
  (∀ (s t : State) (ax : Fin 12) (lanes : BitVec 3) (m : Fin 24), (exec (.zMark ax lanes) s = .next t ∨ exec
      (.axisFaultClear ax) s = .next t ∨ exec (.speedWindowUpdate m) s = .next t) → t = { s with mot := t.mot }) ∧
  (∀ (s t : State) (ax : Fin 12) (dataLow errBit complete pa pb bad : Bool) (ra rb rc : Word) (m : Fin 24) (lanes :
      BitVec 3), (exec (.ssiFrameStart ax dataLow) s = .next t ∨ exec (.ssiFrameEnd ax ra errBit complete rb rc) s =
      .next t ∨ exec (.monitorEvaluate m) s = .next t ∨ exec (.axisEdge ax lanes pa pb) s = .next t ∨ exec (.lineFault
      ax bad) s = .next t) → t = { s with regs := t.regs, sett := t.sett, mot := t.mot }) ∧
  (∀ (s t : State) (e : PimErr), exec (.scrubLine e) s = .next t →
    t = { s with regs := t.regs, pim := t.pim, pimc := t.pimc, sett := t.sett }) ∧
  (∀ (s t : State), exec .pimWriteback s = .next t → t = { s with pimc := t.pimc }) ∧
  (∀ (s t : State), exec .resyncStart s = .next t → t = { s with lanes := t.lanes }) ∧
  (∀ (s t : State), exec .resyncStarved s = .next t →
    t = { s with regs := t.regs, lanes := t.lanes, sett := t.sett }) ∧
  (∀ (s t : State) (r : Fin 64), exec (.resetButtonStuck r) s = .next t →
    t = { s with regs := t.regs, sett := t.sett, rfx := t.rfx })

/-- Frames of the network and time commands: what each leaves (R285 to R360). -/
def Obligations.NetworkAndTimeFrame : Prop :=
  (∀ (s t : State) (c : Fin 4), exec (.canTxStart c) s = .next t → t = { s with cans := t.cans }) ∧
  (∀ (s t : State) (c : Fin 4) (r : CanTxEnd), exec (.canTxDone c r) s = .next t →
    t = { s with outbox := t.outbox, regs := t.regs, cans := t.cans, brg := t.brg }) ∧
  (∀ (s t : State) (c : Fin 4), exec (.canBusoffRecovery c) s = .next t →
    t = { s with regs := t.regs, sett := t.sett, cans := t.cans }) ∧
  (∀ (s t : State) (c : Fin 4) (e : CanErr), exec (.canBusError c e) s = .next t →
    t = { s with regs := t.regs, sett := t.sett, cans := t.cans, brg := t.brg }) ∧
  (∀ (s t : State) (fcode : BitVec 4) (addr : BitVec 12), exec (.mvbMasterFrame fcode addr) s = .next t →
    t = { s with outbox := t.outbox, mvb := t.mvb }) ∧
  (∀ (s t : State) (line : Plane), exec (.mvbLineBad line) s = .next t →
    t = { s with regs := t.regs, sett := t.sett, mvb := t.mvb }) ∧
  (∀ (s t : State) (e : Fin 256), exec (.mvbSinkStale e) s = .next t →
    t = { s with regs := t.regs, tables := t.tables, sett := t.sett }) ∧
  (∀ (s t : State) (x : Plane) (mac : BitVec 48), exec (.addressAgeing x mac) s = .next t →
    t = { s with planes := t.planes }) ∧
  (∀ (s t : State) (x : Plane) (port : Fin 2) (spd : BitVec 2), exec (.ethLinkChange x port spd) s = .next t →
    t = { s with regs := t.regs, sett := t.sett }) ∧
  (∀ (s t : State) (x : Plane) (port : Fin 4) (f : EthFrame), (exec (.hostTxSend x) s = .next t ∨ exec (.p3FrameTx x)
      s = .next t ∨ exec (.switchFrameRx x port f) s = .next t) →
    t = { s with regs := t.regs, notice := t.notice, sett := t.sett, planes := t.planes }) ∧
  (∀ (s t : State) (e : Fin 1024), exec (.pdPublish e) s = .next t →
    t =
      { s with regs := t.regs, tables := t.tables, pim := t.pim, pimc := t.pimc, sett := t.sett, planes := t.planes, trdp := t.trdp })
      ∧
  (∀ (s t : State) (h : PtpHdr) (t4 : Nat), exec (.ptpDelayRespRx h t4) s = .next t →
    t = { s with regs := t.regs, ptp := t.ptp }) ∧
  (∀ (s t : State) (h : PtpHdr) (a : Announce), (exec .holdoverLong s = .next t ∨ exec .ptpMasterLost s = .next t ∨
      exec (.ptpAnnounceRx h a) s = .next t) → t = { s with regs := t.regs, sett := t.sett, ptp := t.ptp }) ∧
  (∀ (s t : State) (n : Fin 8), exec (.tpinPulseEnd n) s = .next t →
    t = { s with outbox := t.outbox, pins := t.pins }) ∧
  (∀ (s t : State) (n : Fin 8), exec (.tpinPulseStart n) s = .next t →
    t = { s with outbox := t.outbox, regs := t.regs, sett := t.sett, pins := t.pins }) ∧
  (∀ (s t : State) (n : Fin 8) (rising : Bool) (ta tb tc : Nat), exec (.tpinCaptureEdge n rising ta tb tc) s = .next
      t → t = { s with regs := t.regs, sett := t.sett, pins := t.pins })

/-- Frames of the host and recorder commands: what each leaves (R48, R361 to R410). -/
def Obligations.HostAndRecorderFrame : Prop :=
  (∀ (s t : State) (pf : Pf) (k : Fin 32) (mid width : BitVec 4) (v : Word) (w : Win) (gen : BitVec 2), (exec
      (.semWrite k mid v) s = .next t ∨ exec (.mbRxWindowReady pf) s = .next t ∨ exec (.winSelectDone w) s = .next t ∨
      exec (.pcieLinkUp gen width) s = .next t) → t = { s with regs := t.regs }) ∧
  (∀ (s t : State) (pf : Pf) (off : BitVec 24) (data : List Byte), exec (.noticeSramWrite pf off data) s = .next t →
    t = { s with notice := t.notice }) ∧
  (∀ (s t : State) (pf : Pf) (r : AtomicReq), exec (.atomicOp pf r) s = .next t →
    t = { s with outbox := t.outbox, regs := t.regs, notice := t.notice, sett := t.sett }) ∧
  (∀ (s t : State) (pf : Pf) (bme msix : Bool) (v : Fin 4), (exec (.configSpaceWrite pf bme msix) s = .next t ∨ exec
      (.privVectorSend pf v) s = .next t ∨ exec (.c0MessageSend pf) s = .next t ∨ exec (.statusBlockWrite pf) s = .next
      t ∨ exec .safeHostNotify s = .next t) →
    t = { s with outbox := t.outbox, regs := t.regs, sett := t.sett, host := t.host }) ∧
  (∀ (s t : State), exec .settMb2Command s = .next t →
    t = { s with regs := t.regs, sett := t.sett, host := t.host }) ∧
  (∀ (s t : State), exec .extractRequest s = .next t → t = { s with sett := t.sett }) ∧
  (∀ (s t : State), exec .openRecordExpiry s = .next t → t = { s with regs := t.regs, sett := t.sett }) ∧
  (∀ (s t : State) (bad : Bool), exec (.recordReadDone bad) s = .next t →
    t = { s with freeCount := t.freeCount, regs := t.regs, sett := t.sett }) ∧
  (∀ (s t : State) (discarded : Nat), (exec .settRestartDone s = .next t ∨ exec (.storeScanDone discarded) s = .next
      t) → t = { s with outbox := t.outbox, regs := t.regs, eng := t.eng, sett := t.sett, host := t.host })

/-- Frames of the system and twin commands: what each leaves (R411 to R474, R497). -/
def Obligations.SystemAndTwinFrame : Prop :=
  (∀ (s t : State), (exec .opPgood s = .next t ∨ exec .opDividerSwitch s = .next t) → t = { s with pow := t.pow }) ∧
  (∀ (s t : State) (inputUj : Nat), (exec .opPgoodTimeout s = .next t ∨ exec (.tokenFill inputUj) s = .next t) →
    t = { s with regs := t.regs, sett := t.sett, pow := t.pow }) ∧
  (∀ (s t : State), exec .rtcCrystalReady s = .next t → t = { s with regs := t.regs }) ∧
  (∀ (s t : State), (exec .rtcCrystalFail s = .next t ∨ exec .gsageHour s = .next t) →
    t = { s with regs := t.regs, sett := t.sett }) ∧
  (∀ (s t : State), exec .rtcSet s = .next t → t = { s with regs := t.regs, rtc := t.rtc }) ∧
  (∀ (s t : State), exec .wakeFallingEdge s = .next t → t = { s with dorm := t.dorm }) ∧
  (∀ (s t : State), exec .dormouseQuietClear s = .next t → t = { s with freeCount := t.freeCount, dorm := t.dorm }) ∧
  (∀ (s t : State), exec .chainTrainSend s = .next t → t = { s with outbox := t.outbox, chain := t.chain }) ∧
  (∀ (s t : State) (pa pb pc : Nat) (valid : Bool), (exec (.chainTrainRx pa valid pb pc) s = .next t ∨ exec
      .chainAbsentTimeout s = .next t) → t = { s with regs := t.regs, sett := t.sett, chain := t.chain }) ∧
  (∀ (s t : State) (present : Bool), exec (.addressingDone present) s = .next t →
    t = { s with bootPh := t.bootPh, regs := t.regs, sett := t.sett, chain := t.chain }) ∧
  (∀ (s t : State), exec .supplyFail s = .next t →
    t = { s with supply := t.supply, supplyBack := t.supplyBack, regs := t.regs, sett := t.sett }) ∧
  (∀ (s t : State), exec .otpProgramDone s = .next t → t = { s with regs := t.regs, sett := t.sett, upd := t.upd }) ∧
  (∀ (s t : State) (ok : Bool), exec (.restoreDone ok) s = .next t →
    t = { s with regs := t.regs, cfgFlash := t.cfgFlash, sett := t.sett, upd := t.upd }) ∧
  (∀ (s t : State) (t1 : Fin 8), exec (.taskPeriodicTrigger t1) s = .next t → t = { s with eng := t.eng }) ∧
  (∀ (s t : State) (t1 : Fin 8), exec (.shadowCopyDone t1) s = .next t →
    t = { s with regs := t.regs, pim := t.pim, eng := t.eng, lanes := t.lanes, pimc := t.pimc, sett := t.sett }) ∧
  (∀ (s t : State) (m : OwlMsg) (k : Fin 8), (exec (.refereeRelinquishRx m) s = .next t ∨ exec .joinRestart s = .next
      t ∨ exec (.refereeGrantExpiry k) s = .next t ∨ exec (.renewAckRx m) s = .next t) → t = { s with twn := t.twn }) ∧
  (∀ (s t : State), exec .renewAckTimeout s = .next t →
    t = { s with regs := t.regs, sett := t.sett, twn := t.twn }) ∧
  (∀ (s t : State) (m : OwlMsg), (exec .twinGrantRequest s = .next t ∨ exec .twinHbSend s = .next t ∨ exec
      (.refereeRequestRx m) s = .next t ∨ exec (.refereeRenewRx m) s = .next t ∨ exec .safeTwinRelinquish s = .next t)
      → t = { s with outbox := t.outbox, twn := t.twn }) ∧
  (∀ (s t : State), exec .twinMirRefresh s = .next t →
    t = { s with outbox := t.outbox, regs := t.regs, pim := t.pim, pimc := t.pimc, sett := t.sett, twn := t.twn }) ∧
  (∀ (s t : State) (r : TwinRx), exec (.twinXfrRx r) s = .next t →
    t = { s with regs := t.regs, pim := t.pim, lanes := { s.lanes with bitDev := t.lanes.bitDev } }) ∧
  (∀ (s t : State) (r : TwinRx), exec (.twinMirRx r) s = .next t →
    t = { s with regs := t.regs, lanes := { s.lanes with bitDev := t.lanes.bitDev }, twn := t.twn }) ∧
  (∀ (s t : State) (r : TwinRx), exec (.twinTrgRx r) s = .next t →
    t = { s with regs := t.regs, eng := t.eng, lanes := { s.lanes with bitDev := t.lanes.bitDev }, twn := t.twn }) ∧
  (∀ (s t : State), (exec .heartbeatLost s = .next t ∨ exec .requestRepeat s = .next t) →
    t = { s with outbox := t.outbox, regs := t.regs, sett := t.sett, twn := t.twn })
end

