-- ==== Sys2Proof/Laws/State.lean ====
section
/-!
SUPPORT. What the small updates of the state leave unchanged: for each update one lemma, tagged simp, that says it of every
field of the state but the one it writes. No later proof unfolds a record update.
-/
namespace Sys2Proof.Machine

/-- `wr` writes `regs` only. -/
@[simp] theorem State.wr_fields (s : State) (a : Nat) (v : Word) :
    (s.wr a v).pending = s.pending ∧ (s.wr a v).freeCount = s.freeCount ∧ (s.wr a v).outbox = s.outbox ∧
    (s.wr a v).supply = s.supply ∧ (s.wr a v).supplyBack = s.supplyBack ∧ (s.wr a v).rstLow = s.rstLow ∧
    (s.wr a v).resetting = s.resetting ∧ (s.wr a v).pstate = s.pstate ∧ (s.wr a v).mstate = s.mstate ∧
    (s.wr a v).bootPh = s.bootPh ∧ (s.wr a v).bootFrom = s.bootFrom ∧ (s.wr a v).safeLatch = s.safeLatch ∧
    (s.wr a v).imgRun = s.imgRun ∧ (s.wr a v).imgSealed = s.imgSealed ∧ (s.wr a v).now = s.now ∧
    (s.wr a v).frac = s.frac ∧ (s.wr a v).tables = s.tables ∧ (s.wr a v).pim = s.pim ∧ (s.wr a v).notice = s.notice ∧
    (s.wr a v).cfgFlash = s.cfgFlash ∧ (s.wr a v).freshAt = s.freshAt ∧ (s.wr a v).eng = s.eng ∧
    (s.wr a v).lanes = s.lanes ∧ (s.wr a v).pimc = s.pimc ∧ (s.wr a v).sett = s.sett ∧ (s.wr a v).fio = s.fio ∧
    (s.wr a v).fside = s.fside ∧ (s.wr a v).rfx = s.rfx ∧ (s.wr a v).mot = s.mot ∧ (s.wr a v).pins = s.pins ∧
    (s.wr a v).ptp = s.ptp ∧ (s.wr a v).planes = s.planes ∧ (s.wr a v).trdp = s.trdp ∧ (s.wr a v).cans = s.cans ∧
    (s.wr a v).mvb = s.mvb ∧ (s.wr a v).brg = s.brg ∧ (s.wr a v).host = s.host ∧ (s.wr a v).dec = s.dec ∧
    (s.wr a v).pow = s.pow ∧ (s.wr a v).rtc = s.rtc ∧ (s.wr a v).dorm = s.dorm ∧ (s.wr a v).chain = s.chain ∧
    (s.wr a v).upd = s.upd ∧ (s.wr a v).twn = s.twn ∧ (s.wr a v).alive = s.alive ∧ (s.wr a v).booted = s.booted := by
  and_intros <;> rfl

/-- `wr64` writes `regs` only. -/
@[simp] theorem State.wr64_fields (s : State) (a n : Nat) :
    (s.wr64 a n).pending = s.pending ∧ (s.wr64 a n).freeCount = s.freeCount ∧ (s.wr64 a n).outbox = s.outbox ∧
    (s.wr64 a n).supply = s.supply ∧ (s.wr64 a n).supplyBack = s.supplyBack ∧ (s.wr64 a n).rstLow = s.rstLow ∧
    (s.wr64 a n).resetting = s.resetting ∧ (s.wr64 a n).pstate = s.pstate ∧ (s.wr64 a n).mstate = s.mstate ∧
    (s.wr64 a n).bootPh = s.bootPh ∧ (s.wr64 a n).bootFrom = s.bootFrom ∧ (s.wr64 a n).safeLatch = s.safeLatch ∧
    (s.wr64 a n).imgRun = s.imgRun ∧ (s.wr64 a n).imgSealed = s.imgSealed ∧ (s.wr64 a n).now = s.now ∧
    (s.wr64 a n).frac = s.frac ∧ (s.wr64 a n).tables = s.tables ∧ (s.wr64 a n).pim = s.pim ∧
    (s.wr64 a n).notice = s.notice ∧ (s.wr64 a n).cfgFlash = s.cfgFlash ∧ (s.wr64 a n).freshAt = s.freshAt ∧
    (s.wr64 a n).eng = s.eng ∧ (s.wr64 a n).lanes = s.lanes ∧ (s.wr64 a n).pimc = s.pimc ∧ (s.wr64 a n).sett = s.sett ∧
    (s.wr64 a n).fio = s.fio ∧ (s.wr64 a n).fside = s.fside ∧ (s.wr64 a n).rfx = s.rfx ∧ (s.wr64 a n).mot = s.mot ∧
    (s.wr64 a n).pins = s.pins ∧ (s.wr64 a n).ptp = s.ptp ∧ (s.wr64 a n).planes = s.planes ∧
    (s.wr64 a n).trdp = s.trdp ∧ (s.wr64 a n).cans = s.cans ∧ (s.wr64 a n).mvb = s.mvb ∧ (s.wr64 a n).brg = s.brg ∧
    (s.wr64 a n).host = s.host ∧ (s.wr64 a n).dec = s.dec ∧ (s.wr64 a n).pow = s.pow ∧ (s.wr64 a n).rtc = s.rtc ∧
    (s.wr64 a n).dorm = s.dorm ∧ (s.wr64 a n).chain = s.chain ∧ (s.wr64 a n).upd = s.upd ∧ (s.wr64 a n).twn = s.twn ∧
    (s.wr64 a n).alive = s.alive ∧ (s.wr64 a n).booted = s.booted := by
  and_intros <;> rfl

/-- `count` writes `regs` only. -/
@[simp] theorem State.count_fields (s : State) (a : Nat) :
    (s.count a).pending = s.pending ∧ (s.count a).freeCount = s.freeCount ∧ (s.count a).outbox = s.outbox ∧
    (s.count a).supply = s.supply ∧ (s.count a).supplyBack = s.supplyBack ∧ (s.count a).rstLow = s.rstLow ∧
    (s.count a).resetting = s.resetting ∧ (s.count a).pstate = s.pstate ∧ (s.count a).mstate = s.mstate ∧
    (s.count a).bootPh = s.bootPh ∧ (s.count a).bootFrom = s.bootFrom ∧ (s.count a).safeLatch = s.safeLatch ∧
    (s.count a).imgRun = s.imgRun ∧ (s.count a).imgSealed = s.imgSealed ∧ (s.count a).now = s.now ∧
    (s.count a).frac = s.frac ∧ (s.count a).tables = s.tables ∧ (s.count a).pim = s.pim ∧
    (s.count a).notice = s.notice ∧ (s.count a).cfgFlash = s.cfgFlash ∧ (s.count a).freshAt = s.freshAt ∧
    (s.count a).eng = s.eng ∧ (s.count a).lanes = s.lanes ∧ (s.count a).pimc = s.pimc ∧ (s.count a).sett = s.sett ∧
    (s.count a).fio = s.fio ∧ (s.count a).fside = s.fside ∧ (s.count a).rfx = s.rfx ∧ (s.count a).mot = s.mot ∧
    (s.count a).pins = s.pins ∧ (s.count a).ptp = s.ptp ∧ (s.count a).planes = s.planes ∧ (s.count a).trdp = s.trdp ∧
    (s.count a).cans = s.cans ∧ (s.count a).mvb = s.mvb ∧ (s.count a).brg = s.brg ∧ (s.count a).host = s.host ∧
    (s.count a).dec = s.dec ∧ (s.count a).pow = s.pow ∧ (s.count a).rtc = s.rtc ∧ (s.count a).dorm = s.dorm ∧
    (s.count a).chain = s.chain ∧ (s.count a).upd = s.upd ∧ (s.count a).twn = s.twn ∧ (s.count a).alive = s.alive ∧
    (s.count a).booted = s.booted := by
  and_intros <;> rfl

/-- `evt` writes `regs` only. -/
@[simp] theorem State.evt_fields (s : State) (p : Nat) (b : Word) :
    (s.evt p b).pending = s.pending ∧ (s.evt p b).freeCount = s.freeCount ∧ (s.evt p b).outbox = s.outbox ∧
    (s.evt p b).supply = s.supply ∧ (s.evt p b).supplyBack = s.supplyBack ∧ (s.evt p b).rstLow = s.rstLow ∧
    (s.evt p b).resetting = s.resetting ∧ (s.evt p b).pstate = s.pstate ∧ (s.evt p b).mstate = s.mstate ∧
    (s.evt p b).bootPh = s.bootPh ∧ (s.evt p b).bootFrom = s.bootFrom ∧ (s.evt p b).safeLatch = s.safeLatch ∧
    (s.evt p b).imgRun = s.imgRun ∧ (s.evt p b).imgSealed = s.imgSealed ∧ (s.evt p b).now = s.now ∧
    (s.evt p b).frac = s.frac ∧ (s.evt p b).tables = s.tables ∧ (s.evt p b).pim = s.pim ∧
    (s.evt p b).notice = s.notice ∧ (s.evt p b).cfgFlash = s.cfgFlash ∧ (s.evt p b).freshAt = s.freshAt ∧
    (s.evt p b).eng = s.eng ∧ (s.evt p b).lanes = s.lanes ∧ (s.evt p b).pimc = s.pimc ∧ (s.evt p b).sett = s.sett ∧
    (s.evt p b).fio = s.fio ∧ (s.evt p b).fside = s.fside ∧ (s.evt p b).rfx = s.rfx ∧ (s.evt p b).mot = s.mot ∧
    (s.evt p b).pins = s.pins ∧ (s.evt p b).ptp = s.ptp ∧ (s.evt p b).planes = s.planes ∧ (s.evt p b).trdp = s.trdp ∧
    (s.evt p b).cans = s.cans ∧ (s.evt p b).mvb = s.mvb ∧ (s.evt p b).brg = s.brg ∧ (s.evt p b).host = s.host ∧
    (s.evt p b).dec = s.dec ∧ (s.evt p b).pow = s.pow ∧ (s.evt p b).rtc = s.rtc ∧ (s.evt p b).dorm = s.dorm ∧
    (s.evt p b).chain = s.chain ∧ (s.evt p b).upd = s.upd ∧ (s.evt p b).twn = s.twn ∧ (s.evt p b).alive = s.alive ∧
    (s.evt p b).booted = s.booted := by
  and_intros <;> rfl

/-- `refuse` writes `regs` only. -/
@[simp] theorem State.refuse_fields (s : State) (p : Nat) :
    (s.refuse p).pending = s.pending ∧ (s.refuse p).freeCount = s.freeCount ∧ (s.refuse p).outbox = s.outbox ∧
    (s.refuse p).supply = s.supply ∧ (s.refuse p).supplyBack = s.supplyBack ∧ (s.refuse p).rstLow = s.rstLow ∧
    (s.refuse p).resetting = s.resetting ∧ (s.refuse p).pstate = s.pstate ∧ (s.refuse p).mstate = s.mstate ∧
    (s.refuse p).bootPh = s.bootPh ∧ (s.refuse p).bootFrom = s.bootFrom ∧ (s.refuse p).safeLatch = s.safeLatch ∧
    (s.refuse p).imgRun = s.imgRun ∧ (s.refuse p).imgSealed = s.imgSealed ∧ (s.refuse p).now = s.now ∧
    (s.refuse p).frac = s.frac ∧ (s.refuse p).tables = s.tables ∧ (s.refuse p).pim = s.pim ∧
    (s.refuse p).notice = s.notice ∧ (s.refuse p).cfgFlash = s.cfgFlash ∧ (s.refuse p).freshAt = s.freshAt ∧
    (s.refuse p).eng = s.eng ∧ (s.refuse p).lanes = s.lanes ∧ (s.refuse p).pimc = s.pimc ∧ (s.refuse p).sett = s.sett ∧
    (s.refuse p).fio = s.fio ∧ (s.refuse p).fside = s.fside ∧ (s.refuse p).rfx = s.rfx ∧ (s.refuse p).mot = s.mot ∧
    (s.refuse p).pins = s.pins ∧ (s.refuse p).ptp = s.ptp ∧ (s.refuse p).planes = s.planes ∧
    (s.refuse p).trdp = s.trdp ∧ (s.refuse p).cans = s.cans ∧ (s.refuse p).mvb = s.mvb ∧ (s.refuse p).brg = s.brg ∧
    (s.refuse p).host = s.host ∧ (s.refuse p).dec = s.dec ∧ (s.refuse p).pow = s.pow ∧ (s.refuse p).rtc = s.rtc ∧
    (s.refuse p).dorm = s.dorm ∧ (s.refuse p).chain = s.chain ∧ (s.refuse p).upd = s.upd ∧ (s.refuse p).twn = s.twn ∧
    (s.refuse p).alive = s.alive ∧ (s.refuse p).booted = s.booted := by
  and_intros <;> rfl

/-- `conflict` writes `regs` only. -/
@[simp] theorem State.conflict_fields (s : State) (p : Nat) :
    (s.conflict p).pending = s.pending ∧ (s.conflict p).freeCount = s.freeCount ∧ (s.conflict p).outbox = s.outbox ∧
    (s.conflict p).supply = s.supply ∧ (s.conflict p).supplyBack = s.supplyBack ∧ (s.conflict p).rstLow = s.rstLow ∧
    (s.conflict p).resetting = s.resetting ∧ (s.conflict p).pstate = s.pstate ∧ (s.conflict p).mstate = s.mstate ∧
    (s.conflict p).bootPh = s.bootPh ∧ (s.conflict p).bootFrom = s.bootFrom ∧ (s.conflict p).safeLatch = s.safeLatch ∧
    (s.conflict p).imgRun = s.imgRun ∧ (s.conflict p).imgSealed = s.imgSealed ∧ (s.conflict p).now = s.now ∧
    (s.conflict p).frac = s.frac ∧ (s.conflict p).tables = s.tables ∧ (s.conflict p).pim = s.pim ∧
    (s.conflict p).notice = s.notice ∧ (s.conflict p).cfgFlash = s.cfgFlash ∧ (s.conflict p).freshAt = s.freshAt ∧
    (s.conflict p).eng = s.eng ∧ (s.conflict p).lanes = s.lanes ∧ (s.conflict p).pimc = s.pimc ∧
    (s.conflict p).sett = s.sett ∧ (s.conflict p).fio = s.fio ∧ (s.conflict p).fside = s.fside ∧
    (s.conflict p).rfx = s.rfx ∧ (s.conflict p).mot = s.mot ∧ (s.conflict p).pins = s.pins ∧
    (s.conflict p).ptp = s.ptp ∧ (s.conflict p).planes = s.planes ∧ (s.conflict p).trdp = s.trdp ∧
    (s.conflict p).cans = s.cans ∧ (s.conflict p).mvb = s.mvb ∧ (s.conflict p).brg = s.brg ∧
    (s.conflict p).host = s.host ∧ (s.conflict p).dec = s.dec ∧ (s.conflict p).pow = s.pow ∧
    (s.conflict p).rtc = s.rtc ∧ (s.conflict p).dorm = s.dorm ∧ (s.conflict p).chain = s.chain ∧
    (s.conflict p).upd = s.upd ∧ (s.conflict p).twn = s.twn ∧ (s.conflict p).alive = s.alive ∧
    (s.conflict p).booted = s.booted := by
  and_intros <;> rfl

/-- `setTbl` writes `tables` only. -/
@[simp] theorem State.setTbl_fields (s : State) (t i j : Nat) (v : Word) :
    (s.setTbl t i j v).pending = s.pending ∧ (s.setTbl t i j v).freeCount = s.freeCount ∧
    (s.setTbl t i j v).outbox = s.outbox ∧ (s.setTbl t i j v).supply = s.supply ∧
    (s.setTbl t i j v).supplyBack = s.supplyBack ∧ (s.setTbl t i j v).rstLow = s.rstLow ∧
    (s.setTbl t i j v).resetting = s.resetting ∧ (s.setTbl t i j v).pstate = s.pstate ∧
    (s.setTbl t i j v).mstate = s.mstate ∧ (s.setTbl t i j v).bootPh = s.bootPh ∧
    (s.setTbl t i j v).bootFrom = s.bootFrom ∧ (s.setTbl t i j v).safeLatch = s.safeLatch ∧
    (s.setTbl t i j v).imgRun = s.imgRun ∧ (s.setTbl t i j v).imgSealed = s.imgSealed ∧
    (s.setTbl t i j v).now = s.now ∧ (s.setTbl t i j v).frac = s.frac ∧ (s.setTbl t i j v).regs = s.regs ∧
    (s.setTbl t i j v).pim = s.pim ∧ (s.setTbl t i j v).notice = s.notice ∧ (s.setTbl t i j v).cfgFlash = s.cfgFlash ∧
    (s.setTbl t i j v).freshAt = s.freshAt ∧ (s.setTbl t i j v).eng = s.eng ∧ (s.setTbl t i j v).lanes = s.lanes ∧
    (s.setTbl t i j v).pimc = s.pimc ∧ (s.setTbl t i j v).sett = s.sett ∧ (s.setTbl t i j v).fio = s.fio ∧
    (s.setTbl t i j v).fside = s.fside ∧ (s.setTbl t i j v).rfx = s.rfx ∧ (s.setTbl t i j v).mot = s.mot ∧
    (s.setTbl t i j v).pins = s.pins ∧ (s.setTbl t i j v).ptp = s.ptp ∧ (s.setTbl t i j v).planes = s.planes ∧
    (s.setTbl t i j v).trdp = s.trdp ∧ (s.setTbl t i j v).cans = s.cans ∧ (s.setTbl t i j v).mvb = s.mvb ∧
    (s.setTbl t i j v).brg = s.brg ∧ (s.setTbl t i j v).host = s.host ∧ (s.setTbl t i j v).dec = s.dec ∧
    (s.setTbl t i j v).pow = s.pow ∧ (s.setTbl t i j v).rtc = s.rtc ∧ (s.setTbl t i j v).dorm = s.dorm ∧
    (s.setTbl t i j v).chain = s.chain ∧ (s.setTbl t i j v).upd = s.upd ∧ (s.setTbl t i j v).twn = s.twn ∧
    (s.setTbl t i j v).alive = s.alive ∧ (s.setTbl t i j v).booted = s.booted := by
  and_intros <;> rfl

/-- `emit` writes `outbox` only. -/
@[simp] theorem State.emit_fields (s : State) (o : Out) :
    (s.emit o).pending = s.pending ∧ (s.emit o).freeCount = s.freeCount ∧ (s.emit o).supply = s.supply ∧
    (s.emit o).supplyBack = s.supplyBack ∧ (s.emit o).rstLow = s.rstLow ∧ (s.emit o).resetting = s.resetting ∧
    (s.emit o).pstate = s.pstate ∧ (s.emit o).mstate = s.mstate ∧ (s.emit o).bootPh = s.bootPh ∧
    (s.emit o).bootFrom = s.bootFrom ∧ (s.emit o).safeLatch = s.safeLatch ∧ (s.emit o).imgRun = s.imgRun ∧
    (s.emit o).imgSealed = s.imgSealed ∧ (s.emit o).now = s.now ∧ (s.emit o).frac = s.frac ∧ (s.emit o).regs = s.regs ∧
    (s.emit o).tables = s.tables ∧ (s.emit o).pim = s.pim ∧ (s.emit o).notice = s.notice ∧
    (s.emit o).cfgFlash = s.cfgFlash ∧ (s.emit o).freshAt = s.freshAt ∧ (s.emit o).eng = s.eng ∧
    (s.emit o).lanes = s.lanes ∧ (s.emit o).pimc = s.pimc ∧ (s.emit o).sett = s.sett ∧ (s.emit o).fio = s.fio ∧
    (s.emit o).fside = s.fside ∧ (s.emit o).rfx = s.rfx ∧ (s.emit o).mot = s.mot ∧ (s.emit o).pins = s.pins ∧
    (s.emit o).ptp = s.ptp ∧ (s.emit o).planes = s.planes ∧ (s.emit o).trdp = s.trdp ∧ (s.emit o).cans = s.cans ∧
    (s.emit o).mvb = s.mvb ∧ (s.emit o).brg = s.brg ∧ (s.emit o).host = s.host ∧ (s.emit o).dec = s.dec ∧
    (s.emit o).pow = s.pow ∧ (s.emit o).rtc = s.rtc ∧ (s.emit o).dorm = s.dorm ∧ (s.emit o).chain = s.chain ∧
    (s.emit o).upd = s.upd ∧ (s.emit o).twn = s.twn ∧ (s.emit o).alive = s.alive ∧ (s.emit o).booted = s.booted := by
  and_intros <;> rfl

/-- `drawn` writes `freeCount` only. -/
@[simp] theorem State.drawn_fields (s : State) :
    (s.drawn).pending = s.pending ∧ (s.drawn).outbox = s.outbox ∧ (s.drawn).supply = s.supply ∧
    (s.drawn).supplyBack = s.supplyBack ∧ (s.drawn).rstLow = s.rstLow ∧ (s.drawn).resetting = s.resetting ∧
    (s.drawn).pstate = s.pstate ∧ (s.drawn).mstate = s.mstate ∧ (s.drawn).bootPh = s.bootPh ∧
    (s.drawn).bootFrom = s.bootFrom ∧ (s.drawn).safeLatch = s.safeLatch ∧ (s.drawn).imgRun = s.imgRun ∧
    (s.drawn).imgSealed = s.imgSealed ∧ (s.drawn).now = s.now ∧ (s.drawn).frac = s.frac ∧ (s.drawn).regs = s.regs ∧
    (s.drawn).tables = s.tables ∧ (s.drawn).pim = s.pim ∧ (s.drawn).notice = s.notice ∧
    (s.drawn).cfgFlash = s.cfgFlash ∧ (s.drawn).freshAt = s.freshAt ∧ (s.drawn).eng = s.eng ∧
    (s.drawn).lanes = s.lanes ∧ (s.drawn).pimc = s.pimc ∧ (s.drawn).sett = s.sett ∧ (s.drawn).fio = s.fio ∧
    (s.drawn).fside = s.fside ∧ (s.drawn).rfx = s.rfx ∧ (s.drawn).mot = s.mot ∧ (s.drawn).pins = s.pins ∧
    (s.drawn).ptp = s.ptp ∧ (s.drawn).planes = s.planes ∧ (s.drawn).trdp = s.trdp ∧ (s.drawn).cans = s.cans ∧
    (s.drawn).mvb = s.mvb ∧ (s.drawn).brg = s.brg ∧ (s.drawn).host = s.host ∧ (s.drawn).dec = s.dec ∧
    (s.drawn).pow = s.pow ∧ (s.drawn).rtc = s.rtc ∧ (s.drawn).dorm = s.dorm ∧ (s.drawn).chain = s.chain ∧
    (s.drawn).upd = s.upd ∧ (s.drawn).twn = s.twn ∧ (s.drawn).alive = s.alive ∧ (s.drawn).booted = s.booted := by
  and_intros <;> rfl

/-- `modTwn` writes `twn` only. -/
@[simp] theorem State.modTwn_fields (s : State) (f : Twn → Twn) :
    (s.modTwn f).pending = s.pending ∧ (s.modTwn f).freeCount = s.freeCount ∧ (s.modTwn f).outbox = s.outbox ∧
    (s.modTwn f).supply = s.supply ∧ (s.modTwn f).supplyBack = s.supplyBack ∧ (s.modTwn f).rstLow = s.rstLow ∧
    (s.modTwn f).resetting = s.resetting ∧ (s.modTwn f).pstate = s.pstate ∧ (s.modTwn f).mstate = s.mstate ∧
    (s.modTwn f).bootPh = s.bootPh ∧ (s.modTwn f).bootFrom = s.bootFrom ∧ (s.modTwn f).safeLatch = s.safeLatch ∧
    (s.modTwn f).imgRun = s.imgRun ∧ (s.modTwn f).imgSealed = s.imgSealed ∧ (s.modTwn f).now = s.now ∧
    (s.modTwn f).frac = s.frac ∧ (s.modTwn f).regs = s.regs ∧ (s.modTwn f).tables = s.tables ∧
    (s.modTwn f).pim = s.pim ∧ (s.modTwn f).notice = s.notice ∧ (s.modTwn f).cfgFlash = s.cfgFlash ∧
    (s.modTwn f).freshAt = s.freshAt ∧ (s.modTwn f).eng = s.eng ∧ (s.modTwn f).lanes = s.lanes ∧
    (s.modTwn f).pimc = s.pimc ∧ (s.modTwn f).sett = s.sett ∧ (s.modTwn f).fio = s.fio ∧ (s.modTwn f).fside = s.fside ∧
    (s.modTwn f).rfx = s.rfx ∧ (s.modTwn f).mot = s.mot ∧ (s.modTwn f).pins = s.pins ∧ (s.modTwn f).ptp = s.ptp ∧
    (s.modTwn f).planes = s.planes ∧ (s.modTwn f).trdp = s.trdp ∧ (s.modTwn f).cans = s.cans ∧
    (s.modTwn f).mvb = s.mvb ∧ (s.modTwn f).brg = s.brg ∧ (s.modTwn f).host = s.host ∧ (s.modTwn f).dec = s.dec ∧
    (s.modTwn f).pow = s.pow ∧ (s.modTwn f).rtc = s.rtc ∧ (s.modTwn f).dorm = s.dorm ∧ (s.modTwn f).chain = s.chain ∧
    (s.modTwn f).upd = s.upd ∧ (s.modTwn f).alive = s.alive ∧ (s.modTwn f).booted = s.booted := by
  and_intros <;> rfl

/-- `modFn` writes `host` only. -/
@[simp] theorem State.modFn_fields (s : State) (k : Nat) (f : HostFn → HostFn) :
    (s.modFn k f).pending = s.pending ∧ (s.modFn k f).freeCount = s.freeCount ∧ (s.modFn k f).outbox = s.outbox ∧
    (s.modFn k f).supply = s.supply ∧ (s.modFn k f).supplyBack = s.supplyBack ∧ (s.modFn k f).rstLow = s.rstLow ∧
    (s.modFn k f).resetting = s.resetting ∧ (s.modFn k f).pstate = s.pstate ∧ (s.modFn k f).mstate = s.mstate ∧
    (s.modFn k f).bootPh = s.bootPh ∧ (s.modFn k f).bootFrom = s.bootFrom ∧ (s.modFn k f).safeLatch = s.safeLatch ∧
    (s.modFn k f).imgRun = s.imgRun ∧ (s.modFn k f).imgSealed = s.imgSealed ∧ (s.modFn k f).now = s.now ∧
    (s.modFn k f).frac = s.frac ∧ (s.modFn k f).regs = s.regs ∧ (s.modFn k f).tables = s.tables ∧
    (s.modFn k f).pim = s.pim ∧ (s.modFn k f).notice = s.notice ∧ (s.modFn k f).cfgFlash = s.cfgFlash ∧
    (s.modFn k f).freshAt = s.freshAt ∧ (s.modFn k f).eng = s.eng ∧ (s.modFn k f).lanes = s.lanes ∧
    (s.modFn k f).pimc = s.pimc ∧ (s.modFn k f).sett = s.sett ∧ (s.modFn k f).fio = s.fio ∧
    (s.modFn k f).fside = s.fside ∧ (s.modFn k f).rfx = s.rfx ∧ (s.modFn k f).mot = s.mot ∧
    (s.modFn k f).pins = s.pins ∧ (s.modFn k f).ptp = s.ptp ∧ (s.modFn k f).planes = s.planes ∧
    (s.modFn k f).trdp = s.trdp ∧ (s.modFn k f).cans = s.cans ∧ (s.modFn k f).mvb = s.mvb ∧ (s.modFn k f).brg = s.brg ∧
    (s.modFn k f).dec = s.dec ∧ (s.modFn k f).pow = s.pow ∧ (s.modFn k f).rtc = s.rtc ∧ (s.modFn k f).dorm = s.dorm ∧
    (s.modFn k f).chain = s.chain ∧ (s.modFn k f).upd = s.upd ∧ (s.modFn k f).twn = s.twn ∧
    (s.modFn k f).alive = s.alive ∧ (s.modFn k f).booted = s.booted := by
  and_intros <;> rfl

/-- `report` writes `eng` only. -/
@[simp] theorem State.report_fields (s : State) (i : Nat) (v : Word) :
    (s.report i v).pending = s.pending ∧ (s.report i v).freeCount = s.freeCount ∧ (s.report i v).outbox = s.outbox ∧
    (s.report i v).supply = s.supply ∧ (s.report i v).supplyBack = s.supplyBack ∧ (s.report i v).rstLow = s.rstLow ∧
    (s.report i v).resetting = s.resetting ∧ (s.report i v).pstate = s.pstate ∧ (s.report i v).mstate = s.mstate ∧
    (s.report i v).bootPh = s.bootPh ∧ (s.report i v).bootFrom = s.bootFrom ∧ (s.report i v).safeLatch = s.safeLatch ∧
    (s.report i v).imgRun = s.imgRun ∧ (s.report i v).imgSealed = s.imgSealed ∧ (s.report i v).now = s.now ∧
    (s.report i v).frac = s.frac ∧ (s.report i v).regs = s.regs ∧ (s.report i v).tables = s.tables ∧
    (s.report i v).pim = s.pim ∧ (s.report i v).notice = s.notice ∧ (s.report i v).cfgFlash = s.cfgFlash ∧
    (s.report i v).freshAt = s.freshAt ∧ (s.report i v).lanes = s.lanes ∧ (s.report i v).pimc = s.pimc ∧
    (s.report i v).sett = s.sett ∧ (s.report i v).fio = s.fio ∧ (s.report i v).fside = s.fside ∧
    (s.report i v).rfx = s.rfx ∧ (s.report i v).mot = s.mot ∧ (s.report i v).pins = s.pins ∧
    (s.report i v).ptp = s.ptp ∧ (s.report i v).planes = s.planes ∧ (s.report i v).trdp = s.trdp ∧
    (s.report i v).cans = s.cans ∧ (s.report i v).mvb = s.mvb ∧ (s.report i v).brg = s.brg ∧
    (s.report i v).host = s.host ∧ (s.report i v).dec = s.dec ∧ (s.report i v).pow = s.pow ∧
    (s.report i v).rtc = s.rtc ∧ (s.report i v).dorm = s.dorm ∧ (s.report i v).chain = s.chain ∧
    (s.report i v).upd = s.upd ∧ (s.report i v).twn = s.twn ∧ (s.report i v).alive = s.alive ∧
    (s.report i v).booted = s.booted := by
  and_intros <;> rfl

/-- `modTask` writes `eng` only. -/
@[simp] theorem State.modTask_fields (s : State) (t : Fin 8) (f : Task → Task) :
    (s.modTask t f).pending = s.pending ∧ (s.modTask t f).freeCount = s.freeCount ∧ (s.modTask t f).outbox = s.outbox ∧
    (s.modTask t f).supply = s.supply ∧ (s.modTask t f).supplyBack = s.supplyBack ∧ (s.modTask t f).rstLow = s.rstLow ∧
    (s.modTask t f).resetting = s.resetting ∧ (s.modTask t f).pstate = s.pstate ∧ (s.modTask t f).mstate = s.mstate ∧
    (s.modTask t f).bootPh = s.bootPh ∧ (s.modTask t f).bootFrom = s.bootFrom ∧
    (s.modTask t f).safeLatch = s.safeLatch ∧ (s.modTask t f).imgRun = s.imgRun ∧
    (s.modTask t f).imgSealed = s.imgSealed ∧ (s.modTask t f).now = s.now ∧ (s.modTask t f).frac = s.frac ∧
    (s.modTask t f).regs = s.regs ∧ (s.modTask t f).tables = s.tables ∧ (s.modTask t f).pim = s.pim ∧
    (s.modTask t f).notice = s.notice ∧ (s.modTask t f).cfgFlash = s.cfgFlash ∧ (s.modTask t f).freshAt = s.freshAt ∧
    (s.modTask t f).lanes = s.lanes ∧ (s.modTask t f).pimc = s.pimc ∧ (s.modTask t f).sett = s.sett ∧
    (s.modTask t f).fio = s.fio ∧ (s.modTask t f).fside = s.fside ∧ (s.modTask t f).rfx = s.rfx ∧
    (s.modTask t f).mot = s.mot ∧ (s.modTask t f).pins = s.pins ∧ (s.modTask t f).ptp = s.ptp ∧
    (s.modTask t f).planes = s.planes ∧ (s.modTask t f).trdp = s.trdp ∧ (s.modTask t f).cans = s.cans ∧
    (s.modTask t f).mvb = s.mvb ∧ (s.modTask t f).brg = s.brg ∧ (s.modTask t f).host = s.host ∧
    (s.modTask t f).dec = s.dec ∧ (s.modTask t f).pow = s.pow ∧ (s.modTask t f).rtc = s.rtc ∧
    (s.modTask t f).dorm = s.dorm ∧ (s.modTask t f).chain = s.chain ∧ (s.modTask t f).upd = s.upd ∧
    (s.modTask t f).twn = s.twn ∧ (s.modTask t f).alive = s.alive ∧ (s.modTask t f).booted = s.booted := by
  and_intros <;> rfl

/-- `modAct` writes `eng` only. -/
@[simp] theorem State.modAct_fields (s : State) (t : Fin 8) (f : Act → Act) :
    (s.modAct t f).pending = s.pending ∧ (s.modAct t f).freeCount = s.freeCount ∧ (s.modAct t f).outbox = s.outbox ∧
    (s.modAct t f).supply = s.supply ∧ (s.modAct t f).supplyBack = s.supplyBack ∧ (s.modAct t f).rstLow = s.rstLow ∧
    (s.modAct t f).resetting = s.resetting ∧ (s.modAct t f).pstate = s.pstate ∧ (s.modAct t f).mstate = s.mstate ∧
    (s.modAct t f).bootPh = s.bootPh ∧ (s.modAct t f).bootFrom = s.bootFrom ∧ (s.modAct t f).safeLatch = s.safeLatch ∧
    (s.modAct t f).imgRun = s.imgRun ∧ (s.modAct t f).imgSealed = s.imgSealed ∧ (s.modAct t f).now = s.now ∧
    (s.modAct t f).frac = s.frac ∧ (s.modAct t f).regs = s.regs ∧ (s.modAct t f).tables = s.tables ∧
    (s.modAct t f).pim = s.pim ∧ (s.modAct t f).notice = s.notice ∧ (s.modAct t f).cfgFlash = s.cfgFlash ∧
    (s.modAct t f).freshAt = s.freshAt ∧ (s.modAct t f).lanes = s.lanes ∧ (s.modAct t f).pimc = s.pimc ∧
    (s.modAct t f).sett = s.sett ∧ (s.modAct t f).fio = s.fio ∧ (s.modAct t f).fside = s.fside ∧
    (s.modAct t f).rfx = s.rfx ∧ (s.modAct t f).mot = s.mot ∧ (s.modAct t f).pins = s.pins ∧
    (s.modAct t f).ptp = s.ptp ∧ (s.modAct t f).planes = s.planes ∧ (s.modAct t f).trdp = s.trdp ∧
    (s.modAct t f).cans = s.cans ∧ (s.modAct t f).mvb = s.mvb ∧ (s.modAct t f).brg = s.brg ∧
    (s.modAct t f).host = s.host ∧ (s.modAct t f).dec = s.dec ∧ (s.modAct t f).pow = s.pow ∧
    (s.modAct t f).rtc = s.rtc ∧ (s.modAct t f).dorm = s.dorm ∧ (s.modAct t f).chain = s.chain ∧
    (s.modAct t f).upd = s.upd ∧ (s.modAct t f).twn = s.twn ∧ (s.modAct t f).alive = s.alive ∧
    (s.modAct t f).booted = s.booted := by
  and_intros <;> rfl

/-- `modFio` writes `fio` only. -/
@[simp] theorem State.modFio_fields (s : State) (g : Nat) (f : Fio → Fio) :
    (s.modFio g f).pending = s.pending ∧ (s.modFio g f).freeCount = s.freeCount ∧ (s.modFio g f).outbox = s.outbox ∧
    (s.modFio g f).supply = s.supply ∧ (s.modFio g f).supplyBack = s.supplyBack ∧ (s.modFio g f).rstLow = s.rstLow ∧
    (s.modFio g f).resetting = s.resetting ∧ (s.modFio g f).pstate = s.pstate ∧ (s.modFio g f).mstate = s.mstate ∧
    (s.modFio g f).bootPh = s.bootPh ∧ (s.modFio g f).bootFrom = s.bootFrom ∧ (s.modFio g f).safeLatch = s.safeLatch ∧
    (s.modFio g f).imgRun = s.imgRun ∧ (s.modFio g f).imgSealed = s.imgSealed ∧ (s.modFio g f).now = s.now ∧
    (s.modFio g f).frac = s.frac ∧ (s.modFio g f).regs = s.regs ∧ (s.modFio g f).tables = s.tables ∧
    (s.modFio g f).pim = s.pim ∧ (s.modFio g f).notice = s.notice ∧ (s.modFio g f).cfgFlash = s.cfgFlash ∧
    (s.modFio g f).freshAt = s.freshAt ∧ (s.modFio g f).eng = s.eng ∧ (s.modFio g f).lanes = s.lanes ∧
    (s.modFio g f).pimc = s.pimc ∧ (s.modFio g f).sett = s.sett ∧ (s.modFio g f).fside = s.fside ∧
    (s.modFio g f).rfx = s.rfx ∧ (s.modFio g f).mot = s.mot ∧ (s.modFio g f).pins = s.pins ∧
    (s.modFio g f).ptp = s.ptp ∧ (s.modFio g f).planes = s.planes ∧ (s.modFio g f).trdp = s.trdp ∧
    (s.modFio g f).cans = s.cans ∧ (s.modFio g f).mvb = s.mvb ∧ (s.modFio g f).brg = s.brg ∧
    (s.modFio g f).host = s.host ∧ (s.modFio g f).dec = s.dec ∧ (s.modFio g f).pow = s.pow ∧
    (s.modFio g f).rtc = s.rtc ∧ (s.modFio g f).dorm = s.dorm ∧ (s.modFio g f).chain = s.chain ∧
    (s.modFio g f).upd = s.upd ∧ (s.modFio g f).twn = s.twn ∧ (s.modFio g f).alive = s.alive ∧
    (s.modFio g f).booted = s.booted := by
  and_intros <;> rfl

/-- `modFside` writes `fside` only. -/
@[simp] theorem State.modFside_fields (s : State) (g : Nat) (f : FieldSide → FieldSide) :
    (s.modFside g f).pending = s.pending ∧ (s.modFside g f).freeCount = s.freeCount ∧
    (s.modFside g f).outbox = s.outbox ∧ (s.modFside g f).supply = s.supply ∧
    (s.modFside g f).supplyBack = s.supplyBack ∧ (s.modFside g f).rstLow = s.rstLow ∧
    (s.modFside g f).resetting = s.resetting ∧ (s.modFside g f).pstate = s.pstate ∧
    (s.modFside g f).mstate = s.mstate ∧ (s.modFside g f).bootPh = s.bootPh ∧ (s.modFside g f).bootFrom = s.bootFrom ∧
    (s.modFside g f).safeLatch = s.safeLatch ∧ (s.modFside g f).imgRun = s.imgRun ∧
    (s.modFside g f).imgSealed = s.imgSealed ∧ (s.modFside g f).now = s.now ∧ (s.modFside g f).frac = s.frac ∧
    (s.modFside g f).regs = s.regs ∧ (s.modFside g f).tables = s.tables ∧ (s.modFside g f).pim = s.pim ∧
    (s.modFside g f).notice = s.notice ∧ (s.modFside g f).cfgFlash = s.cfgFlash ∧
    (s.modFside g f).freshAt = s.freshAt ∧ (s.modFside g f).eng = s.eng ∧ (s.modFside g f).lanes = s.lanes ∧
    (s.modFside g f).pimc = s.pimc ∧ (s.modFside g f).sett = s.sett ∧ (s.modFside g f).fio = s.fio ∧
    (s.modFside g f).rfx = s.rfx ∧ (s.modFside g f).mot = s.mot ∧ (s.modFside g f).pins = s.pins ∧
    (s.modFside g f).ptp = s.ptp ∧ (s.modFside g f).planes = s.planes ∧ (s.modFside g f).trdp = s.trdp ∧
    (s.modFside g f).cans = s.cans ∧ (s.modFside g f).mvb = s.mvb ∧ (s.modFside g f).brg = s.brg ∧
    (s.modFside g f).host = s.host ∧ (s.modFside g f).dec = s.dec ∧ (s.modFside g f).pow = s.pow ∧
    (s.modFside g f).rtc = s.rtc ∧ (s.modFside g f).dorm = s.dorm ∧ (s.modFside g f).chain = s.chain ∧
    (s.modFside g f).upd = s.upd ∧ (s.modFside g f).twn = s.twn ∧ (s.modFside g f).alive = s.alive ∧
    (s.modFside g f).booted = s.booted := by
  and_intros <;> rfl

/-- `modPulse` writes `fio` only. -/
@[simp] theorem State.modPulse_fields (s : State) (g k : Nat) (f : TestPulse → TestPulse) :
    (s.modPulse g k f).pending = s.pending ∧ (s.modPulse g k f).freeCount = s.freeCount ∧
    (s.modPulse g k f).outbox = s.outbox ∧ (s.modPulse g k f).supply = s.supply ∧
    (s.modPulse g k f).supplyBack = s.supplyBack ∧ (s.modPulse g k f).rstLow = s.rstLow ∧
    (s.modPulse g k f).resetting = s.resetting ∧ (s.modPulse g k f).pstate = s.pstate ∧
    (s.modPulse g k f).mstate = s.mstate ∧ (s.modPulse g k f).bootPh = s.bootPh ∧
    (s.modPulse g k f).bootFrom = s.bootFrom ∧ (s.modPulse g k f).safeLatch = s.safeLatch ∧
    (s.modPulse g k f).imgRun = s.imgRun ∧ (s.modPulse g k f).imgSealed = s.imgSealed ∧
    (s.modPulse g k f).now = s.now ∧ (s.modPulse g k f).frac = s.frac ∧ (s.modPulse g k f).regs = s.regs ∧
    (s.modPulse g k f).tables = s.tables ∧ (s.modPulse g k f).pim = s.pim ∧ (s.modPulse g k f).notice = s.notice ∧
    (s.modPulse g k f).cfgFlash = s.cfgFlash ∧ (s.modPulse g k f).freshAt = s.freshAt ∧
    (s.modPulse g k f).eng = s.eng ∧ (s.modPulse g k f).lanes = s.lanes ∧ (s.modPulse g k f).pimc = s.pimc ∧
    (s.modPulse g k f).sett = s.sett ∧ (s.modPulse g k f).fside = s.fside ∧ (s.modPulse g k f).rfx = s.rfx ∧
    (s.modPulse g k f).mot = s.mot ∧ (s.modPulse g k f).pins = s.pins ∧ (s.modPulse g k f).ptp = s.ptp ∧
    (s.modPulse g k f).planes = s.planes ∧ (s.modPulse g k f).trdp = s.trdp ∧ (s.modPulse g k f).cans = s.cans ∧
    (s.modPulse g k f).mvb = s.mvb ∧ (s.modPulse g k f).brg = s.brg ∧ (s.modPulse g k f).host = s.host ∧
    (s.modPulse g k f).dec = s.dec ∧ (s.modPulse g k f).pow = s.pow ∧ (s.modPulse g k f).rtc = s.rtc ∧
    (s.modPulse g k f).dorm = s.dorm ∧ (s.modPulse g k f).chain = s.chain ∧ (s.modPulse g k f).upd = s.upd ∧
    (s.modPulse g k f).twn = s.twn ∧ (s.modPulse g k f).alive = s.alive ∧ (s.modPulse g k f).booted = s.booted := by
  and_intros <;> rfl

/-- `modSource` writes `fio` only. -/
@[simp] theorem State.modSource_fields (s : State) (g k : Nat) (f : SrcPulse → SrcPulse) :
    (s.modSource g k f).pending = s.pending ∧ (s.modSource g k f).freeCount = s.freeCount ∧
    (s.modSource g k f).outbox = s.outbox ∧ (s.modSource g k f).supply = s.supply ∧
    (s.modSource g k f).supplyBack = s.supplyBack ∧ (s.modSource g k f).rstLow = s.rstLow ∧
    (s.modSource g k f).resetting = s.resetting ∧ (s.modSource g k f).pstate = s.pstate ∧
    (s.modSource g k f).mstate = s.mstate ∧ (s.modSource g k f).bootPh = s.bootPh ∧
    (s.modSource g k f).bootFrom = s.bootFrom ∧ (s.modSource g k f).safeLatch = s.safeLatch ∧
    (s.modSource g k f).imgRun = s.imgRun ∧ (s.modSource g k f).imgSealed = s.imgSealed ∧
    (s.modSource g k f).now = s.now ∧ (s.modSource g k f).frac = s.frac ∧ (s.modSource g k f).regs = s.regs ∧
    (s.modSource g k f).tables = s.tables ∧ (s.modSource g k f).pim = s.pim ∧ (s.modSource g k f).notice = s.notice ∧
    (s.modSource g k f).cfgFlash = s.cfgFlash ∧ (s.modSource g k f).freshAt = s.freshAt ∧
    (s.modSource g k f).eng = s.eng ∧ (s.modSource g k f).lanes = s.lanes ∧ (s.modSource g k f).pimc = s.pimc ∧
    (s.modSource g k f).sett = s.sett ∧ (s.modSource g k f).fside = s.fside ∧ (s.modSource g k f).rfx = s.rfx ∧
    (s.modSource g k f).mot = s.mot ∧ (s.modSource g k f).pins = s.pins ∧ (s.modSource g k f).ptp = s.ptp ∧
    (s.modSource g k f).planes = s.planes ∧ (s.modSource g k f).trdp = s.trdp ∧ (s.modSource g k f).cans = s.cans ∧
    (s.modSource g k f).mvb = s.mvb ∧ (s.modSource g k f).brg = s.brg ∧ (s.modSource g k f).host = s.host ∧
    (s.modSource g k f).dec = s.dec ∧ (s.modSource g k f).pow = s.pow ∧ (s.modSource g k f).rtc = s.rtc ∧
    (s.modSource g k f).dorm = s.dorm ∧ (s.modSource g k f).chain = s.chain ∧ (s.modSource g k f).upd = s.upd ∧
    (s.modSource g k f).twn = s.twn ∧ (s.modSource g k f).alive = s.alive ∧ (s.modSource g k f).booted = s.booted := by
  and_intros <;> rfl

/-- `modAxis` writes `mot` only. -/
@[simp] theorem State.modAxis_fields (s : State) (x : Nat) (f : Axis → Axis) :
    (s.modAxis x f).pending = s.pending ∧ (s.modAxis x f).freeCount = s.freeCount ∧ (s.modAxis x f).outbox = s.outbox ∧
    (s.modAxis x f).supply = s.supply ∧ (s.modAxis x f).supplyBack = s.supplyBack ∧ (s.modAxis x f).rstLow = s.rstLow ∧
    (s.modAxis x f).resetting = s.resetting ∧ (s.modAxis x f).pstate = s.pstate ∧ (s.modAxis x f).mstate = s.mstate ∧
    (s.modAxis x f).bootPh = s.bootPh ∧ (s.modAxis x f).bootFrom = s.bootFrom ∧
    (s.modAxis x f).safeLatch = s.safeLatch ∧ (s.modAxis x f).imgRun = s.imgRun ∧
    (s.modAxis x f).imgSealed = s.imgSealed ∧ (s.modAxis x f).now = s.now ∧ (s.modAxis x f).frac = s.frac ∧
    (s.modAxis x f).regs = s.regs ∧ (s.modAxis x f).tables = s.tables ∧ (s.modAxis x f).pim = s.pim ∧
    (s.modAxis x f).notice = s.notice ∧ (s.modAxis x f).cfgFlash = s.cfgFlash ∧ (s.modAxis x f).freshAt = s.freshAt ∧
    (s.modAxis x f).eng = s.eng ∧ (s.modAxis x f).lanes = s.lanes ∧ (s.modAxis x f).pimc = s.pimc ∧
    (s.modAxis x f).sett = s.sett ∧ (s.modAxis x f).fio = s.fio ∧ (s.modAxis x f).fside = s.fside ∧
    (s.modAxis x f).rfx = s.rfx ∧ (s.modAxis x f).pins = s.pins ∧ (s.modAxis x f).ptp = s.ptp ∧
    (s.modAxis x f).planes = s.planes ∧ (s.modAxis x f).trdp = s.trdp ∧ (s.modAxis x f).cans = s.cans ∧
    (s.modAxis x f).mvb = s.mvb ∧ (s.modAxis x f).brg = s.brg ∧ (s.modAxis x f).host = s.host ∧
    (s.modAxis x f).dec = s.dec ∧ (s.modAxis x f).pow = s.pow ∧ (s.modAxis x f).rtc = s.rtc ∧
    (s.modAxis x f).dorm = s.dorm ∧ (s.modAxis x f).chain = s.chain ∧ (s.modAxis x f).upd = s.upd ∧
    (s.modAxis x f).twn = s.twn ∧ (s.modAxis x f).alive = s.alive ∧ (s.modAxis x f).booted = s.booted := by
  and_intros <;> rfl

/-- `modSlot` writes `mot` only. -/
@[simp] theorem State.modSlot_fields (s : State) (x k : Nat) (f : Slot → Slot) :
    (s.modSlot x k f).pending = s.pending ∧ (s.modSlot x k f).freeCount = s.freeCount ∧
    (s.modSlot x k f).outbox = s.outbox ∧ (s.modSlot x k f).supply = s.supply ∧
    (s.modSlot x k f).supplyBack = s.supplyBack ∧ (s.modSlot x k f).rstLow = s.rstLow ∧
    (s.modSlot x k f).resetting = s.resetting ∧ (s.modSlot x k f).pstate = s.pstate ∧
    (s.modSlot x k f).mstate = s.mstate ∧ (s.modSlot x k f).bootPh = s.bootPh ∧
    (s.modSlot x k f).bootFrom = s.bootFrom ∧ (s.modSlot x k f).safeLatch = s.safeLatch ∧
    (s.modSlot x k f).imgRun = s.imgRun ∧ (s.modSlot x k f).imgSealed = s.imgSealed ∧ (s.modSlot x k f).now = s.now ∧
    (s.modSlot x k f).frac = s.frac ∧ (s.modSlot x k f).regs = s.regs ∧ (s.modSlot x k f).tables = s.tables ∧
    (s.modSlot x k f).pim = s.pim ∧ (s.modSlot x k f).notice = s.notice ∧ (s.modSlot x k f).cfgFlash = s.cfgFlash ∧
    (s.modSlot x k f).freshAt = s.freshAt ∧ (s.modSlot x k f).eng = s.eng ∧ (s.modSlot x k f).lanes = s.lanes ∧
    (s.modSlot x k f).pimc = s.pimc ∧ (s.modSlot x k f).sett = s.sett ∧ (s.modSlot x k f).fio = s.fio ∧
    (s.modSlot x k f).fside = s.fside ∧ (s.modSlot x k f).rfx = s.rfx ∧ (s.modSlot x k f).pins = s.pins ∧
    (s.modSlot x k f).ptp = s.ptp ∧ (s.modSlot x k f).planes = s.planes ∧ (s.modSlot x k f).trdp = s.trdp ∧
    (s.modSlot x k f).cans = s.cans ∧ (s.modSlot x k f).mvb = s.mvb ∧ (s.modSlot x k f).brg = s.brg ∧
    (s.modSlot x k f).host = s.host ∧ (s.modSlot x k f).dec = s.dec ∧ (s.modSlot x k f).pow = s.pow ∧
    (s.modSlot x k f).rtc = s.rtc ∧ (s.modSlot x k f).dorm = s.dorm ∧ (s.modSlot x k f).chain = s.chain ∧
    (s.modSlot x k f).upd = s.upd ∧ (s.modSlot x k f).twn = s.twn ∧ (s.modSlot x k f).alive = s.alive ∧
    (s.modSlot x k f).booted = s.booted := by
  and_intros <;> rfl

/-- `modSmo` writes `mot` only. -/
@[simp] theorem State.modSmo_fields (s : State) (m : Nat) (f : Smo → Smo) :
    (s.modSmo m f).pending = s.pending ∧ (s.modSmo m f).freeCount = s.freeCount ∧ (s.modSmo m f).outbox = s.outbox ∧
    (s.modSmo m f).supply = s.supply ∧ (s.modSmo m f).supplyBack = s.supplyBack ∧ (s.modSmo m f).rstLow = s.rstLow ∧
    (s.modSmo m f).resetting = s.resetting ∧ (s.modSmo m f).pstate = s.pstate ∧ (s.modSmo m f).mstate = s.mstate ∧
    (s.modSmo m f).bootPh = s.bootPh ∧ (s.modSmo m f).bootFrom = s.bootFrom ∧ (s.modSmo m f).safeLatch = s.safeLatch ∧
    (s.modSmo m f).imgRun = s.imgRun ∧ (s.modSmo m f).imgSealed = s.imgSealed ∧ (s.modSmo m f).now = s.now ∧
    (s.modSmo m f).frac = s.frac ∧ (s.modSmo m f).regs = s.regs ∧ (s.modSmo m f).tables = s.tables ∧
    (s.modSmo m f).pim = s.pim ∧ (s.modSmo m f).notice = s.notice ∧ (s.modSmo m f).cfgFlash = s.cfgFlash ∧
    (s.modSmo m f).freshAt = s.freshAt ∧ (s.modSmo m f).eng = s.eng ∧ (s.modSmo m f).lanes = s.lanes ∧
    (s.modSmo m f).pimc = s.pimc ∧ (s.modSmo m f).sett = s.sett ∧ (s.modSmo m f).fio = s.fio ∧
    (s.modSmo m f).fside = s.fside ∧ (s.modSmo m f).rfx = s.rfx ∧ (s.modSmo m f).pins = s.pins ∧
    (s.modSmo m f).ptp = s.ptp ∧ (s.modSmo m f).planes = s.planes ∧ (s.modSmo m f).trdp = s.trdp ∧
    (s.modSmo m f).cans = s.cans ∧ (s.modSmo m f).mvb = s.mvb ∧ (s.modSmo m f).brg = s.brg ∧
    (s.modSmo m f).host = s.host ∧ (s.modSmo m f).dec = s.dec ∧ (s.modSmo m f).pow = s.pow ∧
    (s.modSmo m f).rtc = s.rtc ∧ (s.modSmo m f).dorm = s.dorm ∧ (s.modSmo m f).chain = s.chain ∧
    (s.modSmo m f).upd = s.upd ∧ (s.modSmo m f).twn = s.twn ∧ (s.modSmo m f).alive = s.alive ∧
    (s.modSmo m f).booted = s.booted := by
  and_intros <;> rfl

/-- `modRule` writes `rfx` only. -/
@[simp] theorem State.modRule_fields (s : State) (l r : Nat) (f : Rule → Rule) :
    (s.modRule l r f).pending = s.pending ∧ (s.modRule l r f).freeCount = s.freeCount ∧
    (s.modRule l r f).outbox = s.outbox ∧ (s.modRule l r f).supply = s.supply ∧
    (s.modRule l r f).supplyBack = s.supplyBack ∧ (s.modRule l r f).rstLow = s.rstLow ∧
    (s.modRule l r f).resetting = s.resetting ∧ (s.modRule l r f).pstate = s.pstate ∧
    (s.modRule l r f).mstate = s.mstate ∧ (s.modRule l r f).bootPh = s.bootPh ∧
    (s.modRule l r f).bootFrom = s.bootFrom ∧ (s.modRule l r f).safeLatch = s.safeLatch ∧
    (s.modRule l r f).imgRun = s.imgRun ∧ (s.modRule l r f).imgSealed = s.imgSealed ∧ (s.modRule l r f).now = s.now ∧
    (s.modRule l r f).frac = s.frac ∧ (s.modRule l r f).regs = s.regs ∧ (s.modRule l r f).tables = s.tables ∧
    (s.modRule l r f).pim = s.pim ∧ (s.modRule l r f).notice = s.notice ∧ (s.modRule l r f).cfgFlash = s.cfgFlash ∧
    (s.modRule l r f).freshAt = s.freshAt ∧ (s.modRule l r f).eng = s.eng ∧ (s.modRule l r f).lanes = s.lanes ∧
    (s.modRule l r f).pimc = s.pimc ∧ (s.modRule l r f).sett = s.sett ∧ (s.modRule l r f).fio = s.fio ∧
    (s.modRule l r f).fside = s.fside ∧ (s.modRule l r f).mot = s.mot ∧ (s.modRule l r f).pins = s.pins ∧
    (s.modRule l r f).ptp = s.ptp ∧ (s.modRule l r f).planes = s.planes ∧ (s.modRule l r f).trdp = s.trdp ∧
    (s.modRule l r f).cans = s.cans ∧ (s.modRule l r f).mvb = s.mvb ∧ (s.modRule l r f).brg = s.brg ∧
    (s.modRule l r f).host = s.host ∧ (s.modRule l r f).dec = s.dec ∧ (s.modRule l r f).pow = s.pow ∧
    (s.modRule l r f).rtc = s.rtc ∧ (s.modRule l r f).dorm = s.dorm ∧ (s.modRule l r f).chain = s.chain ∧
    (s.modRule l r f).upd = s.upd ∧ (s.modRule l r f).twn = s.twn ∧ (s.modRule l r f).alive = s.alive ∧
    (s.modRule l r f).booted = s.booted := by
  and_intros <;> rfl

/-- `modCopies` writes `fio` only. -/
@[simp] theorem State.modCopies_fields (s : State) (g : Nat) (h : FioCopy → FioCopy) :
    (s.modCopies g h).pending = s.pending ∧ (s.modCopies g h).freeCount = s.freeCount ∧
    (s.modCopies g h).outbox = s.outbox ∧ (s.modCopies g h).supply = s.supply ∧
    (s.modCopies g h).supplyBack = s.supplyBack ∧ (s.modCopies g h).rstLow = s.rstLow ∧
    (s.modCopies g h).resetting = s.resetting ∧ (s.modCopies g h).pstate = s.pstate ∧
    (s.modCopies g h).mstate = s.mstate ∧ (s.modCopies g h).bootPh = s.bootPh ∧
    (s.modCopies g h).bootFrom = s.bootFrom ∧ (s.modCopies g h).safeLatch = s.safeLatch ∧
    (s.modCopies g h).imgRun = s.imgRun ∧ (s.modCopies g h).imgSealed = s.imgSealed ∧ (s.modCopies g h).now = s.now ∧
    (s.modCopies g h).frac = s.frac ∧ (s.modCopies g h).regs = s.regs ∧ (s.modCopies g h).tables = s.tables ∧
    (s.modCopies g h).pim = s.pim ∧ (s.modCopies g h).notice = s.notice ∧ (s.modCopies g h).cfgFlash = s.cfgFlash ∧
    (s.modCopies g h).freshAt = s.freshAt ∧ (s.modCopies g h).eng = s.eng ∧ (s.modCopies g h).lanes = s.lanes ∧
    (s.modCopies g h).pimc = s.pimc ∧ (s.modCopies g h).sett = s.sett ∧ (s.modCopies g h).fside = s.fside ∧
    (s.modCopies g h).rfx = s.rfx ∧ (s.modCopies g h).mot = s.mot ∧ (s.modCopies g h).pins = s.pins ∧
    (s.modCopies g h).ptp = s.ptp ∧ (s.modCopies g h).planes = s.planes ∧ (s.modCopies g h).trdp = s.trdp ∧
    (s.modCopies g h).cans = s.cans ∧ (s.modCopies g h).mvb = s.mvb ∧ (s.modCopies g h).brg = s.brg ∧
    (s.modCopies g h).host = s.host ∧ (s.modCopies g h).dec = s.dec ∧ (s.modCopies g h).pow = s.pow ∧
    (s.modCopies g h).rtc = s.rtc ∧ (s.modCopies g h).dorm = s.dorm ∧ (s.modCopies g h).chain = s.chain ∧
    (s.modCopies g h).upd = s.upd ∧ (s.modCopies g h).twn = s.twn ∧ (s.modCopies g h).alive = s.alive ∧
    (s.modCopies g h).booted = s.booted := by
  and_intros <;> rfl

/-- `modLanes` writes `lanes` only. -/
@[simp] theorem State.modLanes_fields (s : State) (f : Lanes → Lanes) :
    (s.modLanes f).pending = s.pending ∧ (s.modLanes f).freeCount = s.freeCount ∧ (s.modLanes f).outbox = s.outbox ∧
    (s.modLanes f).supply = s.supply ∧ (s.modLanes f).supplyBack = s.supplyBack ∧ (s.modLanes f).rstLow = s.rstLow ∧
    (s.modLanes f).resetting = s.resetting ∧ (s.modLanes f).pstate = s.pstate ∧ (s.modLanes f).mstate = s.mstate ∧
    (s.modLanes f).bootPh = s.bootPh ∧ (s.modLanes f).bootFrom = s.bootFrom ∧ (s.modLanes f).safeLatch = s.safeLatch ∧
    (s.modLanes f).imgRun = s.imgRun ∧ (s.modLanes f).imgSealed = s.imgSealed ∧ (s.modLanes f).now = s.now ∧
    (s.modLanes f).frac = s.frac ∧ (s.modLanes f).regs = s.regs ∧ (s.modLanes f).tables = s.tables ∧
    (s.modLanes f).pim = s.pim ∧ (s.modLanes f).notice = s.notice ∧ (s.modLanes f).cfgFlash = s.cfgFlash ∧
    (s.modLanes f).freshAt = s.freshAt ∧ (s.modLanes f).eng = s.eng ∧ (s.modLanes f).pimc = s.pimc ∧
    (s.modLanes f).sett = s.sett ∧ (s.modLanes f).fio = s.fio ∧ (s.modLanes f).fside = s.fside ∧
    (s.modLanes f).rfx = s.rfx ∧ (s.modLanes f).mot = s.mot ∧ (s.modLanes f).pins = s.pins ∧
    (s.modLanes f).ptp = s.ptp ∧ (s.modLanes f).planes = s.planes ∧ (s.modLanes f).trdp = s.trdp ∧
    (s.modLanes f).cans = s.cans ∧ (s.modLanes f).mvb = s.mvb ∧ (s.modLanes f).brg = s.brg ∧
    (s.modLanes f).host = s.host ∧ (s.modLanes f).dec = s.dec ∧ (s.modLanes f).pow = s.pow ∧
    (s.modLanes f).rtc = s.rtc ∧ (s.modLanes f).dorm = s.dorm ∧ (s.modLanes f).chain = s.chain ∧
    (s.modLanes f).upd = s.upd ∧ (s.modLanes f).twn = s.twn ∧ (s.modLanes f).alive = s.alive ∧
    (s.modLanes f).booted = s.booted := by
  and_intros <;> rfl

/-- `modPtp` writes `ptp` only. -/
@[simp] theorem State.modPtp_fields (s : State) (f : Ptp → Ptp) :
    (s.modPtp f).pending = s.pending ∧ (s.modPtp f).freeCount = s.freeCount ∧ (s.modPtp f).outbox = s.outbox ∧
    (s.modPtp f).supply = s.supply ∧ (s.modPtp f).supplyBack = s.supplyBack ∧ (s.modPtp f).rstLow = s.rstLow ∧
    (s.modPtp f).resetting = s.resetting ∧ (s.modPtp f).pstate = s.pstate ∧ (s.modPtp f).mstate = s.mstate ∧
    (s.modPtp f).bootPh = s.bootPh ∧ (s.modPtp f).bootFrom = s.bootFrom ∧ (s.modPtp f).safeLatch = s.safeLatch ∧
    (s.modPtp f).imgRun = s.imgRun ∧ (s.modPtp f).imgSealed = s.imgSealed ∧ (s.modPtp f).now = s.now ∧
    (s.modPtp f).frac = s.frac ∧ (s.modPtp f).regs = s.regs ∧ (s.modPtp f).tables = s.tables ∧
    (s.modPtp f).pim = s.pim ∧ (s.modPtp f).notice = s.notice ∧ (s.modPtp f).cfgFlash = s.cfgFlash ∧
    (s.modPtp f).freshAt = s.freshAt ∧ (s.modPtp f).eng = s.eng ∧ (s.modPtp f).lanes = s.lanes ∧
    (s.modPtp f).pimc = s.pimc ∧ (s.modPtp f).sett = s.sett ∧ (s.modPtp f).fio = s.fio ∧ (s.modPtp f).fside = s.fside ∧
    (s.modPtp f).rfx = s.rfx ∧ (s.modPtp f).mot = s.mot ∧ (s.modPtp f).pins = s.pins ∧ (s.modPtp f).planes = s.planes ∧
    (s.modPtp f).trdp = s.trdp ∧ (s.modPtp f).cans = s.cans ∧ (s.modPtp f).mvb = s.mvb ∧ (s.modPtp f).brg = s.brg ∧
    (s.modPtp f).host = s.host ∧ (s.modPtp f).dec = s.dec ∧ (s.modPtp f).pow = s.pow ∧ (s.modPtp f).rtc = s.rtc ∧
    (s.modPtp f).dorm = s.dorm ∧ (s.modPtp f).chain = s.chain ∧ (s.modPtp f).upd = s.upd ∧ (s.modPtp f).twn = s.twn ∧
    (s.modPtp f).alive = s.alive ∧ (s.modPtp f).booted = s.booted := by
  and_intros <;> rfl

/-- `modSett` writes `sett` only. -/
@[simp] theorem State.modSett_fields (s : State) (f : Sett → Sett) :
    (s.modSett f).pending = s.pending ∧ (s.modSett f).freeCount = s.freeCount ∧ (s.modSett f).outbox = s.outbox ∧
    (s.modSett f).supply = s.supply ∧ (s.modSett f).supplyBack = s.supplyBack ∧ (s.modSett f).rstLow = s.rstLow ∧
    (s.modSett f).resetting = s.resetting ∧ (s.modSett f).pstate = s.pstate ∧ (s.modSett f).mstate = s.mstate ∧
    (s.modSett f).bootPh = s.bootPh ∧ (s.modSett f).bootFrom = s.bootFrom ∧ (s.modSett f).safeLatch = s.safeLatch ∧
    (s.modSett f).imgRun = s.imgRun ∧ (s.modSett f).imgSealed = s.imgSealed ∧ (s.modSett f).now = s.now ∧
    (s.modSett f).frac = s.frac ∧ (s.modSett f).regs = s.regs ∧ (s.modSett f).tables = s.tables ∧
    (s.modSett f).pim = s.pim ∧ (s.modSett f).notice = s.notice ∧ (s.modSett f).cfgFlash = s.cfgFlash ∧
    (s.modSett f).freshAt = s.freshAt ∧ (s.modSett f).eng = s.eng ∧ (s.modSett f).lanes = s.lanes ∧
    (s.modSett f).pimc = s.pimc ∧ (s.modSett f).fio = s.fio ∧ (s.modSett f).fside = s.fside ∧
    (s.modSett f).rfx = s.rfx ∧ (s.modSett f).mot = s.mot ∧ (s.modSett f).pins = s.pins ∧ (s.modSett f).ptp = s.ptp ∧
    (s.modSett f).planes = s.planes ∧ (s.modSett f).trdp = s.trdp ∧ (s.modSett f).cans = s.cans ∧
    (s.modSett f).mvb = s.mvb ∧ (s.modSett f).brg = s.brg ∧ (s.modSett f).host = s.host ∧ (s.modSett f).dec = s.dec ∧
    (s.modSett f).pow = s.pow ∧ (s.modSett f).rtc = s.rtc ∧ (s.modSett f).dorm = s.dorm ∧
    (s.modSett f).chain = s.chain ∧ (s.modSett f).upd = s.upd ∧ (s.modSett f).twn = s.twn ∧
    (s.modSett f).alive = s.alive ∧ (s.modSett f).booted = s.booted := by
  and_intros <;> rfl

/-- `setFlips` writes `pimc` only. -/
@[simp] theorem State.setFlips_fields (s : State) (l k : Nat) (v : BitVec 72) :
    (s.setFlips l k v).pending = s.pending ∧ (s.setFlips l k v).freeCount = s.freeCount ∧
    (s.setFlips l k v).outbox = s.outbox ∧ (s.setFlips l k v).supply = s.supply ∧
    (s.setFlips l k v).supplyBack = s.supplyBack ∧ (s.setFlips l k v).rstLow = s.rstLow ∧
    (s.setFlips l k v).resetting = s.resetting ∧ (s.setFlips l k v).pstate = s.pstate ∧
    (s.setFlips l k v).mstate = s.mstate ∧ (s.setFlips l k v).bootPh = s.bootPh ∧
    (s.setFlips l k v).bootFrom = s.bootFrom ∧ (s.setFlips l k v).safeLatch = s.safeLatch ∧
    (s.setFlips l k v).imgRun = s.imgRun ∧ (s.setFlips l k v).imgSealed = s.imgSealed ∧
    (s.setFlips l k v).now = s.now ∧ (s.setFlips l k v).frac = s.frac ∧ (s.setFlips l k v).regs = s.regs ∧
    (s.setFlips l k v).tables = s.tables ∧ (s.setFlips l k v).pim = s.pim ∧ (s.setFlips l k v).notice = s.notice ∧
    (s.setFlips l k v).cfgFlash = s.cfgFlash ∧ (s.setFlips l k v).freshAt = s.freshAt ∧
    (s.setFlips l k v).eng = s.eng ∧ (s.setFlips l k v).lanes = s.lanes ∧ (s.setFlips l k v).sett = s.sett ∧
    (s.setFlips l k v).fio = s.fio ∧ (s.setFlips l k v).fside = s.fside ∧ (s.setFlips l k v).rfx = s.rfx ∧
    (s.setFlips l k v).mot = s.mot ∧ (s.setFlips l k v).pins = s.pins ∧ (s.setFlips l k v).ptp = s.ptp ∧
    (s.setFlips l k v).planes = s.planes ∧ (s.setFlips l k v).trdp = s.trdp ∧ (s.setFlips l k v).cans = s.cans ∧
    (s.setFlips l k v).mvb = s.mvb ∧ (s.setFlips l k v).brg = s.brg ∧ (s.setFlips l k v).host = s.host ∧
    (s.setFlips l k v).dec = s.dec ∧ (s.setFlips l k v).pow = s.pow ∧ (s.setFlips l k v).rtc = s.rtc ∧
    (s.setFlips l k v).dorm = s.dorm ∧ (s.setFlips l k v).chain = s.chain ∧ (s.setFlips l k v).upd = s.upd ∧
    (s.setFlips l k v).twn = s.twn ∧ (s.setFlips l k v).alive = s.alive ∧ (s.setFlips l k v).booted = s.booted := by
  and_intros <;> rfl

/-- `modDec` writes `dec` only. -/
@[simp] theorem State.modDec_fields (s : State) (f : Dec → Dec) :
    (s.modDec f).pending = s.pending ∧ (s.modDec f).freeCount = s.freeCount ∧ (s.modDec f).outbox = s.outbox ∧
    (s.modDec f).supply = s.supply ∧ (s.modDec f).supplyBack = s.supplyBack ∧ (s.modDec f).rstLow = s.rstLow ∧
    (s.modDec f).resetting = s.resetting ∧ (s.modDec f).pstate = s.pstate ∧ (s.modDec f).mstate = s.mstate ∧
    (s.modDec f).bootPh = s.bootPh ∧ (s.modDec f).bootFrom = s.bootFrom ∧ (s.modDec f).safeLatch = s.safeLatch ∧
    (s.modDec f).imgRun = s.imgRun ∧ (s.modDec f).imgSealed = s.imgSealed ∧ (s.modDec f).now = s.now ∧
    (s.modDec f).frac = s.frac ∧ (s.modDec f).regs = s.regs ∧ (s.modDec f).tables = s.tables ∧
    (s.modDec f).pim = s.pim ∧ (s.modDec f).notice = s.notice ∧ (s.modDec f).cfgFlash = s.cfgFlash ∧
    (s.modDec f).freshAt = s.freshAt ∧ (s.modDec f).eng = s.eng ∧ (s.modDec f).lanes = s.lanes ∧
    (s.modDec f).pimc = s.pimc ∧ (s.modDec f).sett = s.sett ∧ (s.modDec f).fio = s.fio ∧ (s.modDec f).fside = s.fside ∧
    (s.modDec f).rfx = s.rfx ∧ (s.modDec f).mot = s.mot ∧ (s.modDec f).pins = s.pins ∧ (s.modDec f).ptp = s.ptp ∧
    (s.modDec f).planes = s.planes ∧ (s.modDec f).trdp = s.trdp ∧ (s.modDec f).cans = s.cans ∧
    (s.modDec f).mvb = s.mvb ∧ (s.modDec f).brg = s.brg ∧ (s.modDec f).host = s.host ∧ (s.modDec f).pow = s.pow ∧
    (s.modDec f).rtc = s.rtc ∧ (s.modDec f).dorm = s.dorm ∧ (s.modDec f).chain = s.chain ∧ (s.modDec f).upd = s.upd ∧
    (s.modDec f).twn = s.twn ∧ (s.modDec f).alive = s.alive ∧ (s.modDec f).booted = s.booted := by
  and_intros <;> rfl

/-- `modDs` writes `dec` only. -/
@[simp] theorem State.modDs_fields (s : State) (k : Nat) (f : DsCh → DsCh) :
    (s.modDs k f).pending = s.pending ∧ (s.modDs k f).freeCount = s.freeCount ∧ (s.modDs k f).outbox = s.outbox ∧
    (s.modDs k f).supply = s.supply ∧ (s.modDs k f).supplyBack = s.supplyBack ∧ (s.modDs k f).rstLow = s.rstLow ∧
    (s.modDs k f).resetting = s.resetting ∧ (s.modDs k f).pstate = s.pstate ∧ (s.modDs k f).mstate = s.mstate ∧
    (s.modDs k f).bootPh = s.bootPh ∧ (s.modDs k f).bootFrom = s.bootFrom ∧ (s.modDs k f).safeLatch = s.safeLatch ∧
    (s.modDs k f).imgRun = s.imgRun ∧ (s.modDs k f).imgSealed = s.imgSealed ∧ (s.modDs k f).now = s.now ∧
    (s.modDs k f).frac = s.frac ∧ (s.modDs k f).regs = s.regs ∧ (s.modDs k f).tables = s.tables ∧
    (s.modDs k f).pim = s.pim ∧ (s.modDs k f).notice = s.notice ∧ (s.modDs k f).cfgFlash = s.cfgFlash ∧
    (s.modDs k f).freshAt = s.freshAt ∧ (s.modDs k f).eng = s.eng ∧ (s.modDs k f).lanes = s.lanes ∧
    (s.modDs k f).pimc = s.pimc ∧ (s.modDs k f).sett = s.sett ∧ (s.modDs k f).fio = s.fio ∧
    (s.modDs k f).fside = s.fside ∧ (s.modDs k f).rfx = s.rfx ∧ (s.modDs k f).mot = s.mot ∧
    (s.modDs k f).pins = s.pins ∧ (s.modDs k f).ptp = s.ptp ∧ (s.modDs k f).planes = s.planes ∧
    (s.modDs k f).trdp = s.trdp ∧ (s.modDs k f).cans = s.cans ∧ (s.modDs k f).mvb = s.mvb ∧ (s.modDs k f).brg = s.brg ∧
    (s.modDs k f).host = s.host ∧ (s.modDs k f).pow = s.pow ∧ (s.modDs k f).rtc = s.rtc ∧ (s.modDs k f).dorm = s.dorm ∧
    (s.modDs k f).chain = s.chain ∧ (s.modDs k f).upd = s.upd ∧ (s.modDs k f).twn = s.twn ∧
    (s.modDs k f).alive = s.alive ∧ (s.modDs k f).booted = s.booted := by
  and_intros <;> rfl

/-- `modPlane` writes `planes` only. -/
@[simp] theorem State.modPlane_fields (s : State) (x : Nat) (f : NetPlane → NetPlane) :
    (s.modPlane x f).pending = s.pending ∧ (s.modPlane x f).freeCount = s.freeCount ∧
    (s.modPlane x f).outbox = s.outbox ∧ (s.modPlane x f).supply = s.supply ∧
    (s.modPlane x f).supplyBack = s.supplyBack ∧ (s.modPlane x f).rstLow = s.rstLow ∧
    (s.modPlane x f).resetting = s.resetting ∧ (s.modPlane x f).pstate = s.pstate ∧
    (s.modPlane x f).mstate = s.mstate ∧ (s.modPlane x f).bootPh = s.bootPh ∧ (s.modPlane x f).bootFrom = s.bootFrom ∧
    (s.modPlane x f).safeLatch = s.safeLatch ∧ (s.modPlane x f).imgRun = s.imgRun ∧
    (s.modPlane x f).imgSealed = s.imgSealed ∧ (s.modPlane x f).now = s.now ∧ (s.modPlane x f).frac = s.frac ∧
    (s.modPlane x f).regs = s.regs ∧ (s.modPlane x f).tables = s.tables ∧ (s.modPlane x f).pim = s.pim ∧
    (s.modPlane x f).notice = s.notice ∧ (s.modPlane x f).cfgFlash = s.cfgFlash ∧
    (s.modPlane x f).freshAt = s.freshAt ∧ (s.modPlane x f).eng = s.eng ∧ (s.modPlane x f).lanes = s.lanes ∧
    (s.modPlane x f).pimc = s.pimc ∧ (s.modPlane x f).sett = s.sett ∧ (s.modPlane x f).fio = s.fio ∧
    (s.modPlane x f).fside = s.fside ∧ (s.modPlane x f).rfx = s.rfx ∧ (s.modPlane x f).mot = s.mot ∧
    (s.modPlane x f).pins = s.pins ∧ (s.modPlane x f).ptp = s.ptp ∧ (s.modPlane x f).trdp = s.trdp ∧
    (s.modPlane x f).cans = s.cans ∧ (s.modPlane x f).mvb = s.mvb ∧ (s.modPlane x f).brg = s.brg ∧
    (s.modPlane x f).host = s.host ∧ (s.modPlane x f).dec = s.dec ∧ (s.modPlane x f).pow = s.pow ∧
    (s.modPlane x f).rtc = s.rtc ∧ (s.modPlane x f).dorm = s.dorm ∧ (s.modPlane x f).chain = s.chain ∧
    (s.modPlane x f).upd = s.upd ∧ (s.modPlane x f).twn = s.twn ∧ (s.modPlane x f).alive = s.alive ∧
    (s.modPlane x f).booted = s.booted := by
  and_intros <;> rfl

/-- `modSub` writes `trdp` only. -/
@[simp] theorem State.modSub_fields (s : State) (e : Nat) (f : SubSt → SubSt) :
    (s.modSub e f).pending = s.pending ∧ (s.modSub e f).freeCount = s.freeCount ∧ (s.modSub e f).outbox = s.outbox ∧
    (s.modSub e f).supply = s.supply ∧ (s.modSub e f).supplyBack = s.supplyBack ∧ (s.modSub e f).rstLow = s.rstLow ∧
    (s.modSub e f).resetting = s.resetting ∧ (s.modSub e f).pstate = s.pstate ∧ (s.modSub e f).mstate = s.mstate ∧
    (s.modSub e f).bootPh = s.bootPh ∧ (s.modSub e f).bootFrom = s.bootFrom ∧ (s.modSub e f).safeLatch = s.safeLatch ∧
    (s.modSub e f).imgRun = s.imgRun ∧ (s.modSub e f).imgSealed = s.imgSealed ∧ (s.modSub e f).now = s.now ∧
    (s.modSub e f).frac = s.frac ∧ (s.modSub e f).regs = s.regs ∧ (s.modSub e f).tables = s.tables ∧
    (s.modSub e f).pim = s.pim ∧ (s.modSub e f).notice = s.notice ∧ (s.modSub e f).cfgFlash = s.cfgFlash ∧
    (s.modSub e f).freshAt = s.freshAt ∧ (s.modSub e f).eng = s.eng ∧ (s.modSub e f).lanes = s.lanes ∧
    (s.modSub e f).pimc = s.pimc ∧ (s.modSub e f).sett = s.sett ∧ (s.modSub e f).fio = s.fio ∧
    (s.modSub e f).fside = s.fside ∧ (s.modSub e f).rfx = s.rfx ∧ (s.modSub e f).mot = s.mot ∧
    (s.modSub e f).pins = s.pins ∧ (s.modSub e f).ptp = s.ptp ∧ (s.modSub e f).planes = s.planes ∧
    (s.modSub e f).cans = s.cans ∧ (s.modSub e f).mvb = s.mvb ∧ (s.modSub e f).brg = s.brg ∧
    (s.modSub e f).host = s.host ∧ (s.modSub e f).dec = s.dec ∧ (s.modSub e f).pow = s.pow ∧
    (s.modSub e f).rtc = s.rtc ∧ (s.modSub e f).dorm = s.dorm ∧ (s.modSub e f).chain = s.chain ∧
    (s.modSub e f).upd = s.upd ∧ (s.modSub e f).twn = s.twn ∧ (s.modSub e f).alive = s.alive ∧
    (s.modSub e f).booted = s.booted := by
  and_intros <;> rfl

/-- `modTel` writes `trdp` only. -/
@[simp] theorem State.modTel_fields (s : State) (t : Nat) (f : TelSt → TelSt) :
    (s.modTel t f).pending = s.pending ∧ (s.modTel t f).freeCount = s.freeCount ∧ (s.modTel t f).outbox = s.outbox ∧
    (s.modTel t f).supply = s.supply ∧ (s.modTel t f).supplyBack = s.supplyBack ∧ (s.modTel t f).rstLow = s.rstLow ∧
    (s.modTel t f).resetting = s.resetting ∧ (s.modTel t f).pstate = s.pstate ∧ (s.modTel t f).mstate = s.mstate ∧
    (s.modTel t f).bootPh = s.bootPh ∧ (s.modTel t f).bootFrom = s.bootFrom ∧ (s.modTel t f).safeLatch = s.safeLatch ∧
    (s.modTel t f).imgRun = s.imgRun ∧ (s.modTel t f).imgSealed = s.imgSealed ∧ (s.modTel t f).now = s.now ∧
    (s.modTel t f).frac = s.frac ∧ (s.modTel t f).regs = s.regs ∧ (s.modTel t f).tables = s.tables ∧
    (s.modTel t f).pim = s.pim ∧ (s.modTel t f).notice = s.notice ∧ (s.modTel t f).cfgFlash = s.cfgFlash ∧
    (s.modTel t f).freshAt = s.freshAt ∧ (s.modTel t f).eng = s.eng ∧ (s.modTel t f).lanes = s.lanes ∧
    (s.modTel t f).pimc = s.pimc ∧ (s.modTel t f).sett = s.sett ∧ (s.modTel t f).fio = s.fio ∧
    (s.modTel t f).fside = s.fside ∧ (s.modTel t f).rfx = s.rfx ∧ (s.modTel t f).mot = s.mot ∧
    (s.modTel t f).pins = s.pins ∧ (s.modTel t f).ptp = s.ptp ∧ (s.modTel t f).planes = s.planes ∧
    (s.modTel t f).cans = s.cans ∧ (s.modTel t f).mvb = s.mvb ∧ (s.modTel t f).brg = s.brg ∧
    (s.modTel t f).host = s.host ∧ (s.modTel t f).dec = s.dec ∧ (s.modTel t f).pow = s.pow ∧
    (s.modTel t f).rtc = s.rtc ∧ (s.modTel t f).dorm = s.dorm ∧ (s.modTel t f).chain = s.chain ∧
    (s.modTel t f).upd = s.upd ∧ (s.modTel t f).twn = s.twn ∧ (s.modTel t f).alive = s.alive ∧
    (s.modTel t f).booted = s.booted := by
  and_intros <;> rfl

/-- `modCan` writes `cans` only. -/
@[simp] theorem State.modCan_fields (s : State) (c : Nat) (f : Can → Can) :
    (s.modCan c f).pending = s.pending ∧ (s.modCan c f).freeCount = s.freeCount ∧ (s.modCan c f).outbox = s.outbox ∧
    (s.modCan c f).supply = s.supply ∧ (s.modCan c f).supplyBack = s.supplyBack ∧ (s.modCan c f).rstLow = s.rstLow ∧
    (s.modCan c f).resetting = s.resetting ∧ (s.modCan c f).pstate = s.pstate ∧ (s.modCan c f).mstate = s.mstate ∧
    (s.modCan c f).bootPh = s.bootPh ∧ (s.modCan c f).bootFrom = s.bootFrom ∧ (s.modCan c f).safeLatch = s.safeLatch ∧
    (s.modCan c f).imgRun = s.imgRun ∧ (s.modCan c f).imgSealed = s.imgSealed ∧ (s.modCan c f).now = s.now ∧
    (s.modCan c f).frac = s.frac ∧ (s.modCan c f).regs = s.regs ∧ (s.modCan c f).tables = s.tables ∧
    (s.modCan c f).pim = s.pim ∧ (s.modCan c f).notice = s.notice ∧ (s.modCan c f).cfgFlash = s.cfgFlash ∧
    (s.modCan c f).freshAt = s.freshAt ∧ (s.modCan c f).eng = s.eng ∧ (s.modCan c f).lanes = s.lanes ∧
    (s.modCan c f).pimc = s.pimc ∧ (s.modCan c f).sett = s.sett ∧ (s.modCan c f).fio = s.fio ∧
    (s.modCan c f).fside = s.fside ∧ (s.modCan c f).rfx = s.rfx ∧ (s.modCan c f).mot = s.mot ∧
    (s.modCan c f).pins = s.pins ∧ (s.modCan c f).ptp = s.ptp ∧ (s.modCan c f).planes = s.planes ∧
    (s.modCan c f).trdp = s.trdp ∧ (s.modCan c f).mvb = s.mvb ∧ (s.modCan c f).brg = s.brg ∧
    (s.modCan c f).host = s.host ∧ (s.modCan c f).dec = s.dec ∧ (s.modCan c f).pow = s.pow ∧
    (s.modCan c f).rtc = s.rtc ∧ (s.modCan c f).dorm = s.dorm ∧ (s.modCan c f).chain = s.chain ∧
    (s.modCan c f).upd = s.upd ∧ (s.modCan c f).twn = s.twn ∧ (s.modCan c f).alive = s.alive ∧
    (s.modCan c f).booted = s.booted := by
  and_intros <;> rfl

/-- `modEnt` writes `brg` only. -/
@[simp] theorem State.modEnt_fields (s : State) (e : Nat) (f : EntSt → EntSt) :
    (s.modEnt e f).pending = s.pending ∧ (s.modEnt e f).freeCount = s.freeCount ∧ (s.modEnt e f).outbox = s.outbox ∧
    (s.modEnt e f).supply = s.supply ∧ (s.modEnt e f).supplyBack = s.supplyBack ∧ (s.modEnt e f).rstLow = s.rstLow ∧
    (s.modEnt e f).resetting = s.resetting ∧ (s.modEnt e f).pstate = s.pstate ∧ (s.modEnt e f).mstate = s.mstate ∧
    (s.modEnt e f).bootPh = s.bootPh ∧ (s.modEnt e f).bootFrom = s.bootFrom ∧ (s.modEnt e f).safeLatch = s.safeLatch ∧
    (s.modEnt e f).imgRun = s.imgRun ∧ (s.modEnt e f).imgSealed = s.imgSealed ∧ (s.modEnt e f).now = s.now ∧
    (s.modEnt e f).frac = s.frac ∧ (s.modEnt e f).regs = s.regs ∧ (s.modEnt e f).tables = s.tables ∧
    (s.modEnt e f).pim = s.pim ∧ (s.modEnt e f).notice = s.notice ∧ (s.modEnt e f).cfgFlash = s.cfgFlash ∧
    (s.modEnt e f).freshAt = s.freshAt ∧ (s.modEnt e f).eng = s.eng ∧ (s.modEnt e f).lanes = s.lanes ∧
    (s.modEnt e f).pimc = s.pimc ∧ (s.modEnt e f).sett = s.sett ∧ (s.modEnt e f).fio = s.fio ∧
    (s.modEnt e f).fside = s.fside ∧ (s.modEnt e f).rfx = s.rfx ∧ (s.modEnt e f).mot = s.mot ∧
    (s.modEnt e f).pins = s.pins ∧ (s.modEnt e f).ptp = s.ptp ∧ (s.modEnt e f).planes = s.planes ∧
    (s.modEnt e f).trdp = s.trdp ∧ (s.modEnt e f).cans = s.cans ∧ (s.modEnt e f).mvb = s.mvb ∧
    (s.modEnt e f).host = s.host ∧ (s.modEnt e f).dec = s.dec ∧ (s.modEnt e f).pow = s.pow ∧
    (s.modEnt e f).rtc = s.rtc ∧ (s.modEnt e f).dorm = s.dorm ∧ (s.modEnt e f).chain = s.chain ∧
    (s.modEnt e f).upd = s.upd ∧ (s.modEnt e f).twn = s.twn ∧ (s.modEnt e f).alive = s.alive ∧
    (s.modEnt e f).booted = s.booted := by
  and_intros <;> rfl

/-- `setBuf` writes `brg` only. -/
@[simp] theorem State.setBuf_fields (s : State) (a b : Nat) (l : List BMsg) :
    (s.setBuf a b l).pending = s.pending ∧ (s.setBuf a b l).freeCount = s.freeCount ∧
    (s.setBuf a b l).outbox = s.outbox ∧ (s.setBuf a b l).supply = s.supply ∧
    (s.setBuf a b l).supplyBack = s.supplyBack ∧ (s.setBuf a b l).rstLow = s.rstLow ∧
    (s.setBuf a b l).resetting = s.resetting ∧ (s.setBuf a b l).pstate = s.pstate ∧
    (s.setBuf a b l).mstate = s.mstate ∧ (s.setBuf a b l).bootPh = s.bootPh ∧ (s.setBuf a b l).bootFrom = s.bootFrom ∧
    (s.setBuf a b l).safeLatch = s.safeLatch ∧ (s.setBuf a b l).imgRun = s.imgRun ∧
    (s.setBuf a b l).imgSealed = s.imgSealed ∧ (s.setBuf a b l).now = s.now ∧ (s.setBuf a b l).frac = s.frac ∧
    (s.setBuf a b l).regs = s.regs ∧ (s.setBuf a b l).tables = s.tables ∧ (s.setBuf a b l).pim = s.pim ∧
    (s.setBuf a b l).notice = s.notice ∧ (s.setBuf a b l).cfgFlash = s.cfgFlash ∧
    (s.setBuf a b l).freshAt = s.freshAt ∧ (s.setBuf a b l).eng = s.eng ∧ (s.setBuf a b l).lanes = s.lanes ∧
    (s.setBuf a b l).pimc = s.pimc ∧ (s.setBuf a b l).sett = s.sett ∧ (s.setBuf a b l).fio = s.fio ∧
    (s.setBuf a b l).fside = s.fside ∧ (s.setBuf a b l).rfx = s.rfx ∧ (s.setBuf a b l).mot = s.mot ∧
    (s.setBuf a b l).pins = s.pins ∧ (s.setBuf a b l).ptp = s.ptp ∧ (s.setBuf a b l).planes = s.planes ∧
    (s.setBuf a b l).trdp = s.trdp ∧ (s.setBuf a b l).cans = s.cans ∧ (s.setBuf a b l).mvb = s.mvb ∧
    (s.setBuf a b l).host = s.host ∧ (s.setBuf a b l).dec = s.dec ∧ (s.setBuf a b l).pow = s.pow ∧
    (s.setBuf a b l).rtc = s.rtc ∧ (s.setBuf a b l).dorm = s.dorm ∧ (s.setBuf a b l).chain = s.chain ∧
    (s.setBuf a b l).upd = s.upd ∧ (s.setBuf a b l).twn = s.twn ∧ (s.setBuf a b l).alive = s.alive ∧
    (s.setBuf a b l).booted = s.booted := by
  and_intros <;> rfl

/-- `modChan` writes `host` only. -/
@[simp] theorem State.modChan_fields (s : State) (n : Nat) (f : Chan → Chan) :
    (s.modChan n f).pending = s.pending ∧ (s.modChan n f).freeCount = s.freeCount ∧ (s.modChan n f).outbox = s.outbox ∧
    (s.modChan n f).supply = s.supply ∧ (s.modChan n f).supplyBack = s.supplyBack ∧ (s.modChan n f).rstLow = s.rstLow ∧
    (s.modChan n f).resetting = s.resetting ∧ (s.modChan n f).pstate = s.pstate ∧ (s.modChan n f).mstate = s.mstate ∧
    (s.modChan n f).bootPh = s.bootPh ∧ (s.modChan n f).bootFrom = s.bootFrom ∧
    (s.modChan n f).safeLatch = s.safeLatch ∧ (s.modChan n f).imgRun = s.imgRun ∧
    (s.modChan n f).imgSealed = s.imgSealed ∧ (s.modChan n f).now = s.now ∧ (s.modChan n f).frac = s.frac ∧
    (s.modChan n f).regs = s.regs ∧ (s.modChan n f).tables = s.tables ∧ (s.modChan n f).pim = s.pim ∧
    (s.modChan n f).notice = s.notice ∧ (s.modChan n f).cfgFlash = s.cfgFlash ∧ (s.modChan n f).freshAt = s.freshAt ∧
    (s.modChan n f).eng = s.eng ∧ (s.modChan n f).lanes = s.lanes ∧ (s.modChan n f).pimc = s.pimc ∧
    (s.modChan n f).sett = s.sett ∧ (s.modChan n f).fio = s.fio ∧ (s.modChan n f).fside = s.fside ∧
    (s.modChan n f).rfx = s.rfx ∧ (s.modChan n f).mot = s.mot ∧ (s.modChan n f).pins = s.pins ∧
    (s.modChan n f).ptp = s.ptp ∧ (s.modChan n f).planes = s.planes ∧ (s.modChan n f).trdp = s.trdp ∧
    (s.modChan n f).cans = s.cans ∧ (s.modChan n f).mvb = s.mvb ∧ (s.modChan n f).brg = s.brg ∧
    (s.modChan n f).dec = s.dec ∧ (s.modChan n f).pow = s.pow ∧ (s.modChan n f).rtc = s.rtc ∧
    (s.modChan n f).dorm = s.dorm ∧ (s.modChan n f).chain = s.chain ∧ (s.modChan n f).upd = s.upd ∧
    (s.modChan n f).twn = s.twn ∧ (s.modChan n f).alive = s.alive ∧ (s.modChan n f).booted = s.booted := by
  and_intros <;> rfl

/-- `modPow` writes `pow` only. -/
@[simp] theorem State.modPow_fields (s : State) (f : Pow → Pow) :
    (s.modPow f).pending = s.pending ∧ (s.modPow f).freeCount = s.freeCount ∧ (s.modPow f).outbox = s.outbox ∧
    (s.modPow f).supply = s.supply ∧ (s.modPow f).supplyBack = s.supplyBack ∧ (s.modPow f).rstLow = s.rstLow ∧
    (s.modPow f).resetting = s.resetting ∧ (s.modPow f).pstate = s.pstate ∧ (s.modPow f).mstate = s.mstate ∧
    (s.modPow f).bootPh = s.bootPh ∧ (s.modPow f).bootFrom = s.bootFrom ∧ (s.modPow f).safeLatch = s.safeLatch ∧
    (s.modPow f).imgRun = s.imgRun ∧ (s.modPow f).imgSealed = s.imgSealed ∧ (s.modPow f).now = s.now ∧
    (s.modPow f).frac = s.frac ∧ (s.modPow f).regs = s.regs ∧ (s.modPow f).tables = s.tables ∧
    (s.modPow f).pim = s.pim ∧ (s.modPow f).notice = s.notice ∧ (s.modPow f).cfgFlash = s.cfgFlash ∧
    (s.modPow f).freshAt = s.freshAt ∧ (s.modPow f).eng = s.eng ∧ (s.modPow f).lanes = s.lanes ∧
    (s.modPow f).pimc = s.pimc ∧ (s.modPow f).sett = s.sett ∧ (s.modPow f).fio = s.fio ∧ (s.modPow f).fside = s.fside ∧
    (s.modPow f).rfx = s.rfx ∧ (s.modPow f).mot = s.mot ∧ (s.modPow f).pins = s.pins ∧ (s.modPow f).ptp = s.ptp ∧
    (s.modPow f).planes = s.planes ∧ (s.modPow f).trdp = s.trdp ∧ (s.modPow f).cans = s.cans ∧
    (s.modPow f).mvb = s.mvb ∧ (s.modPow f).brg = s.brg ∧ (s.modPow f).host = s.host ∧ (s.modPow f).dec = s.dec ∧
    (s.modPow f).rtc = s.rtc ∧ (s.modPow f).dorm = s.dorm ∧ (s.modPow f).chain = s.chain ∧ (s.modPow f).upd = s.upd ∧
    (s.modPow f).twn = s.twn ∧ (s.modPow f).alive = s.alive ∧ (s.modPow f).booted = s.booted := by
  and_intros <;> rfl

/-- `modUpd` writes `upd` only. -/
@[simp] theorem State.modUpd_fields (s : State) (f : Upd → Upd) :
    (s.modUpd f).pending = s.pending ∧ (s.modUpd f).freeCount = s.freeCount ∧ (s.modUpd f).outbox = s.outbox ∧
    (s.modUpd f).supply = s.supply ∧ (s.modUpd f).supplyBack = s.supplyBack ∧ (s.modUpd f).rstLow = s.rstLow ∧
    (s.modUpd f).resetting = s.resetting ∧ (s.modUpd f).pstate = s.pstate ∧ (s.modUpd f).mstate = s.mstate ∧
    (s.modUpd f).bootPh = s.bootPh ∧ (s.modUpd f).bootFrom = s.bootFrom ∧ (s.modUpd f).safeLatch = s.safeLatch ∧
    (s.modUpd f).imgRun = s.imgRun ∧ (s.modUpd f).imgSealed = s.imgSealed ∧ (s.modUpd f).now = s.now ∧
    (s.modUpd f).frac = s.frac ∧ (s.modUpd f).regs = s.regs ∧ (s.modUpd f).tables = s.tables ∧
    (s.modUpd f).pim = s.pim ∧ (s.modUpd f).notice = s.notice ∧ (s.modUpd f).cfgFlash = s.cfgFlash ∧
    (s.modUpd f).freshAt = s.freshAt ∧ (s.modUpd f).eng = s.eng ∧ (s.modUpd f).lanes = s.lanes ∧
    (s.modUpd f).pimc = s.pimc ∧ (s.modUpd f).sett = s.sett ∧ (s.modUpd f).fio = s.fio ∧ (s.modUpd f).fside = s.fside ∧
    (s.modUpd f).rfx = s.rfx ∧ (s.modUpd f).mot = s.mot ∧ (s.modUpd f).pins = s.pins ∧ (s.modUpd f).ptp = s.ptp ∧
    (s.modUpd f).planes = s.planes ∧ (s.modUpd f).trdp = s.trdp ∧ (s.modUpd f).cans = s.cans ∧
    (s.modUpd f).mvb = s.mvb ∧ (s.modUpd f).brg = s.brg ∧ (s.modUpd f).host = s.host ∧ (s.modUpd f).dec = s.dec ∧
    (s.modUpd f).pow = s.pow ∧ (s.modUpd f).rtc = s.rtc ∧ (s.modUpd f).dorm = s.dorm ∧ (s.modUpd f).chain = s.chain ∧
    (s.modUpd f).twn = s.twn ∧ (s.modUpd f).alive = s.alive ∧ (s.modUpd f).booted = s.booted := by
  and_intros <;> rfl

/-- `modPin` writes `pins` only. -/
@[simp] theorem State.modPin_fields (s : State) (n : Nat) (f : TPin → TPin) :
    (s.modPin n f).pending = s.pending ∧ (s.modPin n f).freeCount = s.freeCount ∧ (s.modPin n f).outbox = s.outbox ∧
    (s.modPin n f).supply = s.supply ∧ (s.modPin n f).supplyBack = s.supplyBack ∧ (s.modPin n f).rstLow = s.rstLow ∧
    (s.modPin n f).resetting = s.resetting ∧ (s.modPin n f).pstate = s.pstate ∧ (s.modPin n f).mstate = s.mstate ∧
    (s.modPin n f).bootPh = s.bootPh ∧ (s.modPin n f).bootFrom = s.bootFrom ∧ (s.modPin n f).safeLatch = s.safeLatch ∧
    (s.modPin n f).imgRun = s.imgRun ∧ (s.modPin n f).imgSealed = s.imgSealed ∧ (s.modPin n f).now = s.now ∧
    (s.modPin n f).frac = s.frac ∧ (s.modPin n f).regs = s.regs ∧ (s.modPin n f).tables = s.tables ∧
    (s.modPin n f).pim = s.pim ∧ (s.modPin n f).notice = s.notice ∧ (s.modPin n f).cfgFlash = s.cfgFlash ∧
    (s.modPin n f).freshAt = s.freshAt ∧ (s.modPin n f).eng = s.eng ∧ (s.modPin n f).lanes = s.lanes ∧
    (s.modPin n f).pimc = s.pimc ∧ (s.modPin n f).sett = s.sett ∧ (s.modPin n f).fio = s.fio ∧
    (s.modPin n f).fside = s.fside ∧ (s.modPin n f).rfx = s.rfx ∧ (s.modPin n f).mot = s.mot ∧
    (s.modPin n f).ptp = s.ptp ∧ (s.modPin n f).planes = s.planes ∧ (s.modPin n f).trdp = s.trdp ∧
    (s.modPin n f).cans = s.cans ∧ (s.modPin n f).mvb = s.mvb ∧ (s.modPin n f).brg = s.brg ∧
    (s.modPin n f).host = s.host ∧ (s.modPin n f).dec = s.dec ∧ (s.modPin n f).pow = s.pow ∧
    (s.modPin n f).rtc = s.rtc ∧ (s.modPin n f).dorm = s.dorm ∧ (s.modPin n f).chain = s.chain ∧
    (s.modPin n f).upd = s.upd ∧ (s.modPin n f).twn = s.twn ∧ (s.modPin n f).alive = s.alive ∧
    (s.modPin n f).booted = s.booted := by
  and_intros <;> rfl

/-- `setPst` writes `regs` only. -/
@[simp] theorem State.setPst_fields (s : State) (b : Nat) (v : Bool) :
    (s.setPst b v).pending = s.pending ∧ (s.setPst b v).freeCount = s.freeCount ∧ (s.setPst b v).outbox = s.outbox ∧
    (s.setPst b v).supply = s.supply ∧ (s.setPst b v).supplyBack = s.supplyBack ∧ (s.setPst b v).rstLow = s.rstLow ∧
    (s.setPst b v).resetting = s.resetting ∧ (s.setPst b v).pstate = s.pstate ∧ (s.setPst b v).mstate = s.mstate ∧
    (s.setPst b v).bootPh = s.bootPh ∧ (s.setPst b v).bootFrom = s.bootFrom ∧ (s.setPst b v).safeLatch = s.safeLatch ∧
    (s.setPst b v).imgRun = s.imgRun ∧ (s.setPst b v).imgSealed = s.imgSealed ∧ (s.setPst b v).now = s.now ∧
    (s.setPst b v).frac = s.frac ∧ (s.setPst b v).tables = s.tables ∧ (s.setPst b v).pim = s.pim ∧
    (s.setPst b v).notice = s.notice ∧ (s.setPst b v).cfgFlash = s.cfgFlash ∧ (s.setPst b v).freshAt = s.freshAt ∧
    (s.setPst b v).eng = s.eng ∧ (s.setPst b v).lanes = s.lanes ∧ (s.setPst b v).pimc = s.pimc ∧
    (s.setPst b v).sett = s.sett ∧ (s.setPst b v).fio = s.fio ∧ (s.setPst b v).fside = s.fside ∧
    (s.setPst b v).rfx = s.rfx ∧ (s.setPst b v).mot = s.mot ∧ (s.setPst b v).pins = s.pins ∧
    (s.setPst b v).ptp = s.ptp ∧ (s.setPst b v).planes = s.planes ∧ (s.setPst b v).trdp = s.trdp ∧
    (s.setPst b v).cans = s.cans ∧ (s.setPst b v).mvb = s.mvb ∧ (s.setPst b v).brg = s.brg ∧
    (s.setPst b v).host = s.host ∧ (s.setPst b v).dec = s.dec ∧ (s.setPst b v).pow = s.pow ∧
    (s.setPst b v).rtc = s.rtc ∧ (s.setPst b v).dorm = s.dorm ∧ (s.setPst b v).chain = s.chain ∧
    (s.setPst b v).upd = s.upd ∧ (s.setPst b v).twn = s.twn ∧ (s.setPst b v).alive = s.alive ∧
    (s.setPst b v).booted = s.booted := by
  and_intros <;> rfl

/-- `setClk` writes `regs` only. -/
@[simp] theorem State.setClk_fields (s : State) (b : Nat) (v : Bool) :
    (s.setClk b v).pending = s.pending ∧ (s.setClk b v).freeCount = s.freeCount ∧ (s.setClk b v).outbox = s.outbox ∧
    (s.setClk b v).supply = s.supply ∧ (s.setClk b v).supplyBack = s.supplyBack ∧ (s.setClk b v).rstLow = s.rstLow ∧
    (s.setClk b v).resetting = s.resetting ∧ (s.setClk b v).pstate = s.pstate ∧ (s.setClk b v).mstate = s.mstate ∧
    (s.setClk b v).bootPh = s.bootPh ∧ (s.setClk b v).bootFrom = s.bootFrom ∧ (s.setClk b v).safeLatch = s.safeLatch ∧
    (s.setClk b v).imgRun = s.imgRun ∧ (s.setClk b v).imgSealed = s.imgSealed ∧ (s.setClk b v).now = s.now ∧
    (s.setClk b v).frac = s.frac ∧ (s.setClk b v).tables = s.tables ∧ (s.setClk b v).pim = s.pim ∧
    (s.setClk b v).notice = s.notice ∧ (s.setClk b v).cfgFlash = s.cfgFlash ∧ (s.setClk b v).freshAt = s.freshAt ∧
    (s.setClk b v).eng = s.eng ∧ (s.setClk b v).lanes = s.lanes ∧ (s.setClk b v).pimc = s.pimc ∧
    (s.setClk b v).sett = s.sett ∧ (s.setClk b v).fio = s.fio ∧ (s.setClk b v).fside = s.fside ∧
    (s.setClk b v).rfx = s.rfx ∧ (s.setClk b v).mot = s.mot ∧ (s.setClk b v).pins = s.pins ∧
    (s.setClk b v).ptp = s.ptp ∧ (s.setClk b v).planes = s.planes ∧ (s.setClk b v).trdp = s.trdp ∧
    (s.setClk b v).cans = s.cans ∧ (s.setClk b v).mvb = s.mvb ∧ (s.setClk b v).brg = s.brg ∧
    (s.setClk b v).host = s.host ∧ (s.setClk b v).dec = s.dec ∧ (s.setClk b v).pow = s.pow ∧
    (s.setClk b v).rtc = s.rtc ∧ (s.setClk b v).dorm = s.dorm ∧ (s.setClk b v).chain = s.chain ∧
    (s.setClk b v).upd = s.upd ∧ (s.setClk b v).twn = s.twn ∧ (s.setClk b v).alive = s.alive ∧
    (s.setClk b v).booted = s.booted := by
  and_intros <;> rfl

end Sys2Proof.Machine
end

