-- ==== Sys2Proof/Laws/Store.lean ====
section
/-!
SUPPORT. The laws of the sparse stores: a read after a write to the same address gives the value written, a write leaves
every other address alone, and every write keeps the canonical form.
-/
namespace Sys2Proof.Machine

section
variable {α : Type} [DecidableEq α] {d : Nat → α}

/-- The canonical form of the rest of a store. -/
theorem Store.wfFrom_tail {lo : Option Nat} {a : Nat} {v : α} {r : Store α} (h : Store.wfFrom d lo ((a, v) :: r) = true) :
    Store.wfFrom d (some a) r = true := by
  simp only [Store.wfFrom, Bool.and_eq_true] at h
  exact h.2

/-- A listed value is no default. -/
theorem Store.wfFrom_head {lo : Option Nat} {a : Nat} {v : α} {r : Store α} (h : Store.wfFrom d lo ((a, v) :: r) = true) :
    v ≠ d a := by
  simp only [Store.wfFrom, Bool.and_eq_true, decide_eq_true_eq] at h
  exact h.1.2

/-- The first address of a store is above its bound. -/
theorem Store.wfFrom_lt {l a : Nat} {v : α} {r : Store α} (h : Store.wfFrom d (some l) ((a, v) :: r) = true) : l < a := by
  simp only [Store.wfFrom, Bool.and_eq_true, decide_eq_true_eq] at h
  exact h.1.1

/-- A lower bound may be lowered. -/
theorem Store.wfFrom_mono {l a : Nat} {m : Store α} (hl : l < a) (h : Store.wfFrom d (some a) m = true) :
    Store.wfFrom d (some l) m = true := by
  cases m with
  | nil => rfl
  | cons c r =>
    obtain ⟨b, w⟩ := c
    have hb := Store.wfFrom_lt h
    simp only [Store.wfFrom, Bool.and_eq_true, decide_eq_true_eq] at h ⊢
    exact ⟨⟨by omega, h.1.2⟩, h.2⟩

/-- A bounded store is a canonical one. -/
theorem Store.wf_of_wfFrom {a : Nat} {m : Store α} (h : Store.wfFrom d (some a) m = true) : Store.wf d m = true := by
  cases m with
  | nil => rfl
  | cons c r =>
    obtain ⟨b, w⟩ := c
    simp only [Store.wf, Store.wfFrom, Bool.and_eq_true, decide_eq_true_eq] at h ⊢
    exact ⟨⟨trivial, h.1.2⟩, h.2⟩

/-- A store whose addresses all lie above `a` does not list `a`. -/
theorem Store.get_of_lt {a : Nat} {m : Store α} (h : Store.wfFrom d (some a) m = true) : Store.get d m a = d a := by
  cases m with
  | nil => rfl
  | cons c r =>
    obtain ⟨b, w⟩ := c
    have hb := Store.wfFrom_lt h
    have hne : a ≠ b := by omega
    simp [Store.get, hne, hb]

/-- Below every listed address a store reads its default. -/
theorem Store.get_below {l a : Nat} {m : Store α} (h : Store.wfFrom d (some l) m = true) (ha : a ≤ l) :
    Store.get d m a = d a := by
  cases m with
  | nil => rfl
  | cons c r =>
    obtain ⟨b, w⟩ := c
    have hb := Store.wfFrom_lt h
    have hne : a ≠ b := by omega
    have hlt : a < b := by omega
    simp [Store.get, hne, hlt]

theorem Store.put_wfFrom {lo : Option Nat} {m : Store α} {a : Nat} {v : α} (h : Store.wfFrom d lo m = true)
    (hlo : ∀ l, lo = some l → l < a) : Store.wfFrom d lo (Store.put d m a v) = true := by
  induction m generalizing lo with
  | nil =>
    simp only [Store.put]
    split
    · rfl
    · rename_i hv
      cases lo with
      | none => simp [Store.wfFrom, hv]
      | some l => simp [Store.wfFrom, hv, hlo l rfl]
  | cons c r ih =>
    obtain ⟨b, w⟩ := c
    simp only [Store.put]
    split
    · rename_i hab
      split
      · exact h
      · rename_i hv
        have h2 : Store.wfFrom d (some a) ((b, w) :: r) = true := by
          simp only [Store.wfFrom, Bool.and_eq_true, decide_eq_true_eq] at h ⊢
          exact ⟨⟨hab, h.1.2⟩, h.2⟩
        cases lo with
        | none => rw [Store.wfFrom]; simp [hv, h2]
        | some l => rw [Store.wfFrom]; simp [hv, h2, hlo l rfl]
    · rename_i hab
      split
      · rename_i heq
        subst heq
        split
        · have ht := Store.wfFrom_tail h
          cases lo with
          | none => exact Store.wf_of_wfFrom ht
          | some l => exact Store.wfFrom_mono (hlo l rfl) ht
        · rename_i hv
          have ht := Store.wfFrom_tail h
          cases lo with
          | none => rw [Store.wfFrom]; simp [hv, ht]
          | some l => rw [Store.wfFrom]; simp [hv, ht, hlo l rfl]
      · rename_i hne
        have hba : b < a := by omega
        have ht := ih (Store.wfFrom_tail h) (lo := some b) (fun l hl => by cases hl; exact hba)
        simp only [Store.wfFrom, Bool.and_eq_true, decide_eq_true_eq] at h ⊢
        exact ⟨h.1, ht⟩

/-- A write keeps the canonical form. -/
theorem Store.put_wf {m : Store α} {a : Nat} {v : α} (h : Store.wf d m = true) : Store.wf d (Store.put d m a v) = true :=
  Store.put_wfFrom h (fun _ hl => by cases hl)

theorem Store.get_put_same_from {lo : Option Nat} {m : Store α} {a : Nat} {v : α} (h : Store.wfFrom d lo m = true) :
    Store.get d (Store.put d m a v) a = v := by
  induction m generalizing lo with
  | nil =>
    simp only [Store.put]
    split
    · rename_i hv; simp [Store.get, hv]
    · simp [Store.get]
  | cons c r ih =>
    obtain ⟨b, w⟩ := c
    simp only [Store.put]
    split
    · rename_i hab
      split
      · rename_i hv
        have hne : a ≠ b := by omega
        simp [Store.get, hne, hab, hv]
      · simp [Store.get]
    · split
      · rename_i heq
        subst heq
        split
        · rename_i hv
          rw [Store.get_of_lt (Store.wfFrom_tail h), hv]
        · simp [Store.get]
      · rename_i hab hne
        simp only [Store.get, hne, if_false, hab]
        exact ih (Store.wfFrom_tail h)

/-- A read after a write to the same address gives the value written. -/
theorem Store.get_put_same {m : Store α} {a : Nat} {v : α} (h : Store.wf d m = true) :
    Store.get d (Store.put d m a v) a = v := Store.get_put_same_from h

theorem Store.get_put_ne_from {lo : Option Nat} {m : Store α} {a b : Nat} {v : α} (h : Store.wfFrom d lo m = true)
    (hb : b ≠ a) : Store.get d (Store.put d m a v) b = Store.get d m b := by
  induction m generalizing lo with
  | nil =>
    simp only [Store.put]
    split
    · rfl
    · simp [Store.get, hb]
  | cons c r ih =>
    obtain ⟨e, w⟩ := c
    simp only [Store.put]
    split
    · rename_i hae
      split
      · rfl
      · simp only [Store.get, hb, if_false]
        split
        · rename_i hba
          have h1 : b ≠ e := by omega
          have h2 : b < e := by omega
          simp [h1, h2]
        · rfl
    · split
      · rename_i heq
        subst heq
        split
        · simp only [Store.get, hb, if_false]
          split
          · rename_i hba
            exact Store.get_below (Store.wfFrom_tail h) (by omega)
          · rfl
        · simp [Store.get, hb]
      · simp only [Store.get]
        split
        · rfl
        · split
          · rfl
          · exact ih (Store.wfFrom_tail h)

/-- A write leaves every other address alone. -/
theorem Store.get_put_ne {m : Store α} {a b : Nat} {v : α} (h : Store.wf d m = true) (hb : b ≠ a) :
    Store.get d (Store.put d m a v) b = Store.get d m b := Store.get_put_ne_from h hb

end

/-- A byte write keeps the canonical form of a memory. -/
theorem Memory.write_wf {e : Byte} {m : Memory} {a : Nat} {v : Byte} (h : Memory.wf e m = true) :
    Memory.wf e (m.write e a v) = true := Store.put_wf h

/-- A byte written is read back. -/
theorem Memory.read_write_same {e : Byte} {m : Memory} {a : Nat} {v : Byte} (h : Memory.wf e m = true) :
    (m.write e a v).read e a = v := Store.get_put_same h

/-- A byte write leaves the other bytes alone. -/
theorem Memory.read_write_ne {e : Byte} {m : Memory} {a b : Nat} {v : Byte} (h : Memory.wf e m = true) (hb : b ≠ a) :
    (m.write e a v).read e b = m.read e b := Store.get_put_ne h hb

/-- Writing bytes keeps the canonical form of a memory. -/
theorem Memory.writeBytes_wf {e : Byte} {m : Memory} {a : Nat} {bs : List Byte} (h : Memory.wf e m = true) :
    Memory.wf e (m.writeBytes e a bs) = true := by
  induction bs generalizing m a with
  | nil => exact h
  | cons b r ih => exact ih (Memory.write_wf h)

/-- Writing bytes leaves every byte outside them alone. -/
theorem Memory.read_writeBytes_ne {e : Byte} {m : Memory} {a b : Nat} {bs : List Byte} (h : Memory.wf e m = true)
    (hb : b < a ∨ a + bs.length ≤ b) : (m.writeBytes e a bs).read e b = m.read e b := by
  induction bs generalizing m a with
  | nil => rfl
  | cons c r ih =>
    simp only [List.length_cons] at hb
    rw [Memory.writeBytes, ih (Memory.write_wf h) (by omega), Memory.read_write_ne h (by omega)]

/-- Writing a word keeps the canonical form of a memory. -/
theorem Memory.writeWord_wf {e : Byte} {m : Memory} {a : Nat} {v : Word} (h : Memory.wf e m = true) :
    Memory.wf e (m.writeWord e a v) = true := Memory.writeBytes_wf h

/-- The byte at offset `i` of the bytes written. -/
theorem Memory.read_writeBytes_at {e : Byte} {m : Memory} {a i : Nat} {bs : List Byte} (h : Memory.wf e m = true)
    (hi : i < bs.length) : (m.writeBytes e a bs).read e (a + i) = bs[i] := by
  induction bs generalizing m a i with
  | nil => simp at hi
  | cons c r ih =>
    rw [Memory.writeBytes]
    cases i with
    | zero =>
      rw [Memory.read_writeBytes_ne (Memory.write_wf h) (by omega)]
      exact Memory.read_write_same h
    | succ k =>
      have := ih (m := m.write e a c) (a := a + 1) (i := k) (Memory.write_wf h) (by simpa using hi)
      rw [show a + (k + 1) = a + 1 + k by omega, this]
      rfl

/-- The word in four bytes, least significant first. -/
theorem leNat_bytesLE (v : Word) : leNat (bytesLE v 4) = v.toNat := by
  have h := v.isLt
  simp only [bytesLE, leNat, byteOf, List.range_succ, List.range_zero, List.nil_append, List.map_append, List.map_cons,
    List.map_nil, List.foldr_append, List.foldr_cons, List.foldr_nil, BitVec.toNat_ofNat, Nat.shiftRight_eq_div_pow]
  omega

/-- A word written is read back. -/
theorem Memory.readWord_writeWord_same {e : Byte} {m : Memory} {a : Nat} {v : Word} (h : Memory.wf e m = true) :
    (m.writeWord e a v).readWord e a = v := by
  have hl : (bytesLE v 4).length = 4 := by simp [bytesLE]
  have hb : (m.writeWord e a v).readBytes e a 4 = bytesLE v 4 := by
    apply List.ext_getElem
    · simp [Memory.readBytes, hl]
    · intro i h1 h2
      simp only [Memory.readBytes, List.getElem_map, List.getElem_range]
      exact Memory.read_writeBytes_at h h2
  unfold Memory.readWord
  rw [hb, leNat_bytesLE]
  simp [wd]

/-- A word write leaves every word outside its four bytes alone. -/
theorem Memory.readWord_writeWord_ne {e : Byte} {m : Memory} {a b : Nat} {v : Word} (h : Memory.wf e m = true)
    (hb : b + 4 ≤ a ∨ a + 4 ≤ b) : (m.writeWord e a v).readWord e b = m.readWord e b := by
  have hl : (bytesLE v 4).length = 4 := by simp [bytesLE]
  have hx : (m.writeWord e a v).readBytes e b 4 = m.readBytes e b 4 := by
    unfold Memory.readBytes
    apply List.map_congr_left
    intro i hi
    have hi4 : i < 4 := by simpa using hi
    exact Memory.read_writeBytes_ne h (by omega)
  unfold Memory.readWord
  rw [hx]

end Sys2Proof.Machine
end

