-- ==== Sys2Proof/Laws/Regs.lean ====
section
/-!
SUPPORT. The register file under the updates: reads after writes, which need the canonical form of the file, and what a
report (`raise`) changes: the counters of DIA, the recorder's page when the event is lost, and the recorder.
-/
namespace Sys2Proof.Machine

theorem State.rd_wr_same {s : State} {a : Nat} {v : Word} (h : s.regsOk) : (s.wr a v).rd a = v := Store.get_put_same h
theorem State.rd_wr_ne {s : State} {a b : Nat} {v : Word} (h : s.regsOk) (hb : b ≠ a) : (s.wr a v).rd b = s.rd b :=
  Store.get_put_ne h hb
@[simp] theorem State.regsOk_wr {s : State} {a : Nat} {v : Word} (h : s.regsOk) : (s.wr a v).regsOk := Store.put_wf h
@[simp] theorem State.regsOk_wr64 {s : State} {a n : Nat} (h : s.regsOk) : (s.wr64 a n).regsOk :=
  State.regsOk_wr (State.regsOk_wr h)
@[simp] theorem State.regsOk_count {s : State} {a : Nat} (h : s.regsOk) : (s.count a).regsOk := State.regsOk_wr h
@[simp] theorem State.regsOk_evt {s : State} {p : Nat} {b : Word} (h : s.regsOk) : (s.evt p b).regsOk := State.regsOk_wr h
@[simp] theorem State.regsOk_refuse {s : State} {p : Nat} (h : s.regsOk) : (s.refuse p).regsOk := State.regsOk_evt h
@[simp] theorem State.regsOk_setPst {s : State} {b : Nat} {v : Bool} (h : s.regsOk) : (s.setPst b v).regsOk :=
  State.regsOk_wr h
@[simp] theorem State.regsOk_setClk {s : State} {b : Nat} {v : Bool} (h : s.regsOk) : (s.setClk b v).regsOk :=
  State.regsOk_wr h

theorem State.rd_evt_same {s : State} {p : Nat} {b : Word} (h : s.regsOk) :
    (s.evt p b).rd (p * 0x1000 + 0x10) = s.rd (p * 0x1000 + 0x10) ||| b := State.rd_wr_same h
theorem State.rd_evt_ne {s : State} {p a : Nat} {b : Word} (h : s.regsOk) (ha : a ≠ p * 0x1000 + 0x10) :
    (s.evt p b).rd a = s.rd a := State.rd_wr_ne h ha
theorem State.rd_count_same {s : State} {a : Nat} (h : s.regsOk) : (s.count a).rd a = satInc (s.rd a) 0xffffffff :=
  State.rd_wr_same h
theorem State.rd_count_ne {s : State} {a b : Nat} (h : s.regsOk) (hb : b ≠ a) : (s.count a).rd b = s.rd b :=
  State.rd_wr_ne h hb
theorem State.rd_wr64_lo {s : State} {a n : Nat} (h : s.regsOk) : (s.wr64 a n).rd a = loN n := by
  unfold State.wr64
  rw [State.rd_wr_ne (State.regsOk_wr h) (by omega), State.rd_wr_same h]
theorem State.rd_wr64_hi {s : State} {a n : Nat} (h : s.regsOk) : (s.wr64 a n).rd (a + 4) = hiN n :=
  State.rd_wr_same (State.regsOk_wr h)
theorem State.rd_wr64_ne {s : State} {a b n : Nat} (h : s.regsOk) (h1 : b ≠ a) (h2 : b ≠ a + 4) :
    (s.wr64 a n).rd b = s.rd b := by
  unfold State.wr64
  rw [State.rd_wr_ne (State.regsOk_wr h) h2, State.rd_wr_ne h h1]

/-! ## Reports -/

/-- Two states that differ in the register file at most. -/
def State.SameButRegs (s t : State) : Prop := t = { s with regs := t.regs }

theorem State.SameButRegs.refl (s : State) : State.SameButRegs s s := rfl
theorem State.SameButRegs.wr {s t : State} (h : State.SameButRegs s t) (a : Nat) (v : Word) :
    State.SameButRegs s (t.wr a v) := by
  unfold State.SameButRegs at h ⊢
  rw [h]
  rfl

/-- Counting a report changes the register file only. -/
theorem State.tally_regs (s : State) (c : Nat) : ∃ r, s.tally c = { s with regs := r } := by
  refine ⟨(s.tally c).regs, ?_⟩
  show State.SameButRegs s (s.tally c)
  unfold State.tally
  dsimp only
  generalize eventCodes.contains c = k
  cases k
  · exact (((((((State.SameButRegs.refl s).wr _ _).wr _ _).wr _ _).wr _ _).wr _ _).wr _ _)
  · exact ((State.SameButRegs.refl s).wr _ _).wr _ _

theorem State.handOver_free (s : State) (e : Event) (h : e.rep = none) :
    ∃ r x, s.handOver e = { s with regs := r, sett := x } := by
  unfold State.handOver
  split
  · exact ⟨s.regs, s.sett, rfl⟩
  · split
    · unfold State.loseEvent
      simp only [h]
      exact ⟨_, _, rfl⟩
    · exact ⟨s.regs, _, rfl⟩

/-- A report changes nothing but the register file and the recorder. -/
theorem State.raiseI_shape (s : State) (c i : Nat) (p : List Word) :
    ∃ r x, s.raiseI c i p = { s with regs := r, sett := x } := by
  unfold State.raiseI
  obtain ⟨r, hr⟩ := State.tally_regs s c
  rw [hr]
  obtain ⟨r', x, hx⟩ := State.handOver_free { s with regs := r }
    ⟨mkSource (c / 0x100) i s.synced, BitVec.ofNat 16 c, pay8 p, s.now, none⟩ rfl
  refine ⟨r', x, ?_⟩
  exact hx

@[simp] theorem State.raiseI_fields (s : State) (c i : Nat) (p : List Word) :
    (s.raiseI c i p).pending = s.pending ∧ (s.raiseI c i p).freeCount = s.freeCount ∧
    (s.raiseI c i p).outbox = s.outbox ∧ (s.raiseI c i p).supply = s.supply ∧
    (s.raiseI c i p).supplyBack = s.supplyBack ∧ (s.raiseI c i p).rstLow = s.rstLow ∧
    (s.raiseI c i p).resetting = s.resetting ∧ (s.raiseI c i p).pstate = s.pstate ∧
    (s.raiseI c i p).mstate = s.mstate ∧ (s.raiseI c i p).bootPh = s.bootPh ∧ (s.raiseI c i p).bootFrom = s.bootFrom ∧
    (s.raiseI c i p).safeLatch = s.safeLatch ∧ (s.raiseI c i p).imgRun = s.imgRun ∧
    (s.raiseI c i p).imgSealed = s.imgSealed ∧ (s.raiseI c i p).now = s.now ∧ (s.raiseI c i p).frac = s.frac ∧
    (s.raiseI c i p).tables = s.tables ∧ (s.raiseI c i p).pim = s.pim ∧ (s.raiseI c i p).notice = s.notice ∧
    (s.raiseI c i p).cfgFlash = s.cfgFlash ∧ (s.raiseI c i p).freshAt = s.freshAt ∧ (s.raiseI c i p).eng = s.eng ∧
    (s.raiseI c i p).lanes = s.lanes ∧ (s.raiseI c i p).pimc = s.pimc ∧ (s.raiseI c i p).fio = s.fio ∧
    (s.raiseI c i p).fside = s.fside ∧ (s.raiseI c i p).rfx = s.rfx ∧ (s.raiseI c i p).mot = s.mot ∧
    (s.raiseI c i p).pins = s.pins ∧ (s.raiseI c i p).ptp = s.ptp ∧ (s.raiseI c i p).planes = s.planes ∧
    (s.raiseI c i p).trdp = s.trdp ∧ (s.raiseI c i p).cans = s.cans ∧ (s.raiseI c i p).mvb = s.mvb ∧
    (s.raiseI c i p).brg = s.brg ∧ (s.raiseI c i p).host = s.host ∧ (s.raiseI c i p).dec = s.dec ∧
    (s.raiseI c i p).pow = s.pow ∧ (s.raiseI c i p).rtc = s.rtc ∧ (s.raiseI c i p).dorm = s.dorm ∧
    (s.raiseI c i p).chain = s.chain ∧ (s.raiseI c i p).upd = s.upd ∧ (s.raiseI c i p).twn = s.twn ∧
    (s.raiseI c i p).alive = s.alive ∧ (s.raiseI c i p).booted = s.booted := by
  obtain ⟨r, x, h⟩ := State.raiseI_shape s c i p
  rw [h]
  and_intros <;> rfl

@[simp] theorem State.raise_fields (s : State) (c : Nat) (p : List Word) :
    (s.raise c p).pending = s.pending ∧ (s.raise c p).freeCount = s.freeCount ∧ (s.raise c p).outbox = s.outbox ∧
    (s.raise c p).supply = s.supply ∧ (s.raise c p).supplyBack = s.supplyBack ∧ (s.raise c p).rstLow = s.rstLow ∧
    (s.raise c p).resetting = s.resetting ∧ (s.raise c p).pstate = s.pstate ∧ (s.raise c p).mstate = s.mstate ∧
    (s.raise c p).bootPh = s.bootPh ∧ (s.raise c p).bootFrom = s.bootFrom ∧ (s.raise c p).safeLatch = s.safeLatch ∧
    (s.raise c p).imgRun = s.imgRun ∧ (s.raise c p).imgSealed = s.imgSealed ∧ (s.raise c p).now = s.now ∧
    (s.raise c p).frac = s.frac ∧ (s.raise c p).tables = s.tables ∧ (s.raise c p).pim = s.pim ∧
    (s.raise c p).notice = s.notice ∧ (s.raise c p).cfgFlash = s.cfgFlash ∧ (s.raise c p).freshAt = s.freshAt ∧
    (s.raise c p).eng = s.eng ∧ (s.raise c p).lanes = s.lanes ∧ (s.raise c p).pimc = s.pimc ∧
    (s.raise c p).fio = s.fio ∧ (s.raise c p).fside = s.fside ∧ (s.raise c p).rfx = s.rfx ∧ (s.raise c p).mot = s.mot ∧
    (s.raise c p).pins = s.pins ∧ (s.raise c p).ptp = s.ptp ∧ (s.raise c p).planes = s.planes ∧
    (s.raise c p).trdp = s.trdp ∧ (s.raise c p).cans = s.cans ∧ (s.raise c p).mvb = s.mvb ∧ (s.raise c p).brg = s.brg ∧
    (s.raise c p).host = s.host ∧ (s.raise c p).dec = s.dec ∧ (s.raise c p).pow = s.pow ∧ (s.raise c p).rtc = s.rtc ∧
    (s.raise c p).dorm = s.dorm ∧ (s.raise c p).chain = s.chain ∧ (s.raise c p).upd = s.upd ∧
    (s.raise c p).twn = s.twn ∧ (s.raise c p).alive = s.alive ∧ (s.raise c p).booted = s.booted := State.raiseI_fields s c _ p


/-- A report writes registers of the pages DIA (0x04) and SETT (0x34) only. -/
theorem State.rd_raiseI {s : State} {c i a : Nat} {p : List Word} (h : s.regsOk)
    (h1 : a < 0x4000 ∨ 0x5000 ≤ a) (h2 : a < 0x34000 ∨ 0x35000 ≤ a) : (s.raiseI c i p).rd a = s.rd a := by
  have e1 : ∀ t : State, (t.raiseI c i p).rd a = Store.get regReset (t.raiseI c i p).regs a := fun _ => rfl
  unfold State.raiseI
  have ht : (s.tally c).regsOk ∧ (s.tally c).rd a = s.rd a := by
    have hf : a ≠ Reg.diaFcnt (c / 0x100 % 64) := by
      unfold Reg.diaFcnt
      omega
    have k1 : a ≠ Reg.diaEvtcnt := by unfold Reg.diaEvtcnt; omega
    have k2 : a ≠ Reg.diaFltcnt := by unfold Reg.diaFltcnt; omega
    have k3 : a ≠ Reg.diaLastflt := by unfold Reg.diaLastflt; omega
    have k4 : a ≠ Reg.diaLastfltTLo := by unfold Reg.diaLastfltTLo; omega
    have k5 : a ≠ Reg.diaLastfltTLo + 4 := by unfold Reg.diaLastfltTLo; omega
    unfold State.tally
    dsimp only
    generalize eventCodes.contains c = k
    cases k
    rotate_left
    · simp only [if_true]
      exact ⟨State.regsOk_wr (State.regsOk_count h), by
        rw [State.rd_wr_ne (State.regsOk_count h) hf, State.rd_count_ne h k1]⟩
    · have g1 : ((s.count Reg.diaFltcnt).wr (Reg.diaFcnt (c / 0x100 % 64)) (satIncFld (s.rd (Reg.diaFcnt (c / 0x100 % 64))) 0 16)).regsOk :=
        State.regsOk_wr (State.regsOk_count h)
      simp only [Bool.false_eq_true, if_false]
      refine ⟨State.regsOk_evt (State.regsOk_wr64 (State.regsOk_wr g1)), ?_⟩
      rw [State.rd_evt_ne (State.regsOk_wr64 (State.regsOk_wr g1)) (by omega), State.rd_wr64_ne (State.regsOk_wr g1) k4 k5,
        State.rd_wr_ne g1 k3, State.rd_wr_ne (State.regsOk_count h) hf, State.rd_count_ne h k2]
  unfold State.handOver
  split
  · exact ht.2
  · split
    · unfold State.loseEvent
      dsimp only
      have g2 : ∀ u : Sett, ({ s.tally c with sett := u } : State).regsOk := fun u => ht.1
      have k6 : a ≠ Reg.settLostcnt := by unfold Reg.settLostcnt; omega
      rw [State.rd_evt_ne (State.regsOk_count (g2 _)) (by omega), State.rd_count_ne (g2 _) k6]
      exact ht.2
    · exact ht.2

theorem State.rd_raise {s : State} {c a : Nat} {p : List Word} (h : s.regsOk)
    (h1 : a < 0x4000 ∨ 0x5000 ≤ a) (h2 : a < 0x34000 ∨ 0x35000 ≤ a) : (s.raise c p).rd a = s.rd a :=
  State.rd_raiseI h h1 h2

/-- A report keeps the canonical form of the register file. -/
@[simp] theorem State.regsOk_raiseI {s : State} {c i : Nat} {p : List Word} (h : s.regsOk) : (s.raiseI c i p).regsOk := by
  have ht : (s.tally c).regsOk := by
    unfold State.tally
    dsimp only
    generalize eventCodes.contains c = k
    cases k
    rotate_left
    · exact State.regsOk_wr (State.regsOk_count h)
    · exact State.regsOk_evt (State.regsOk_wr64 (State.regsOk_wr (State.regsOk_wr (State.regsOk_count h))))
  unfold State.raiseI State.handOver
  split
  · exact ht
  · split
    · unfold State.loseEvent
      dsimp only
      have g2 : ∀ u : Sett, ({ s.tally c with sett := u } : State).regsOk := fun u => ht
      exact State.regsOk_evt (State.regsOk_count (g2 _))
    · exact ht

@[simp] theorem State.regsOk_raise {s : State} {c : Nat} {p : List Word} (h : s.regsOk) : (s.raise c p).regsOk :=
  State.regsOk_raiseI h

/-- While the recorder takes events, a report stands at the end of its intake queue (R391). -/
theorem State.raise_intake {s : State} {c : Nat} {p : List Word} (h1 : s.sett.stopped = false) (h2 : s.sett.restart = false)
    (h3 : s.sett.intake.length < 1024) : (s.raise c p).sett.intake =
      s.sett.intake ++ [.event ⟨mkSource (c / 0x100) (pageInst (c / 0x100)) s.synced, BitVec.ofNat 16 c, pay8 p, s.now, none⟩] := by
  unfold State.raise State.raiseI
  obtain ⟨r, hr⟩ := State.tally_regs s c
  rw [hr]
  unfold State.handOver
  have h4 : ¬ (1024 ≤ s.sett.intake.length) := by omega
  simp [h1, h2, h4]

end Sys2Proof.Machine
end

