-- ==== Sys2Proof/Laws/Access.lean ====
section
/-!
SUPPORT. What a host write does (spec/02_register_pages.md R32, R39 to R43): where nothing bars it, the register's own
effect; where something does, WREFUSED.
-/
namespace Sys2Proof.Machine

/-- A write that nothing bars has the register's effect. -/
theorem State.hostWrite_put {s u : State} {pf : Pf} {a : Nat} {v : Word} {d : RegDef} (h : s.allowsWrite pf a v = true)
    (hd : regDef a = some d) (hp : s.regPut pf a (keepBits d v) d.acc = some u) : s.hostWrite pf a v = u := by
  simp only [State.allowsWrite, hd, Bool.and_eq_true, Bool.not_eq_true'] at h
  simp [State.hostWrite, hd, h.2, hp]

theorem State.hostCmd_put {s u : State} {pf : Pf} {a : Nat} {v : Word} {d : RegDef} (h : s.allowsWrite pf a v = true)
    (hd : regDef a = some d) (hp : s.regPut pf a (keepBits d v) d.acc = some u) : s.hostCmd pf a v = .next u := by
  have hb : s.booted = true := by
    simp only [State.allowsWrite, Bool.and_eq_true] at h
    exact h.1
  simp [State.hostCmd, hb, State.hostWrite_put h hd hp]

/-- A write that is barred is refused. -/
theorem State.hostWrite_barred {s : State} {pf : Pf} {a : Nat} {v : Word} {d : RegDef} (hd : regDef a = some d)
    (h : s.writeBarred pf a v d.acc = true) : s.hostWrite pf a v = s.refuseWrite a := by
  simp [State.hostWrite, hd, h]

end Sys2Proof.Machine
end

