-- ==== Sys2Proof/Laws/Crc.lean ====
section
/-!
SUPPORT. Codes over bits: two runs that differ once differ to the end, so that a signature of words that differ in one place
differs (spec/06_triplex_execution.md R171, R172).
-/
namespace Sys2Proof.Machine

/-- The polynomial of the task signatures. -/
abbrev sigPoly : Dword := 0x42f0e1eba9ea3693

/-- Whether the polynomial has entered shows in bit 0. -/
theorem crcStep_low (r : Dword) (b : Bool) : (crcStep sigPoly r b).getLsbD 0 = (r.msb != b) := by
  unfold crcStep
  split <;> simp_all [sigPoly]

/-- A step keeps two registers that differ apart. -/
theorem crcStep_inj {r q : Dword} {b : Bool} (h : crcStep sigPoly r b = crcStep sigPoly q b) : r = q := by
  have hl : (r.msb != b) = (q.msb != b) := by rw [← crcStep_low, ← crcStep_low, h]
  have hm : r.msb = q.msb := by
    cases hr : r.msb <;> cases hq : q.msb <;> cases b <;> simp_all
  have hs : r <<< 1 = q <<< 1 := by
    unfold crcStep at h
    rw [hl] at h
    split at h
    · have e := congrArg (· ^^^ sigPoly) h
      simpa [BitVec.xor_assoc] using e
    · exact h
  apply BitVec.eq_of_getLsbD_eq
  intro i hi
  by_cases h63 : i = 63
  · subst h63
    simpa [BitVec.msb_eq_getLsbD_last] using hm
  · have e := congrArg (fun x : Dword => x.getLsbD (i + 1)) hs
    have h1 : i + 1 < 64 := by omega
    simpa only [BitVec.getLsbD_shiftLeft, h1, decide_true, Nat.not_lt_zero, Bool.true_and, Nat.add_sub_cancel, decide_false,
      show ¬ i + 1 < 1 by omega, Bool.not_false] using e

/-- Bits that differ give different registers. -/
theorem crcStep_bit (r : Dword) : crcStep sigPoly r false ≠ crcStep sigPoly r true := by
  intro h
  have e := congrArg (fun x : Dword => x.getLsbD 0) h
  simp only [crcStep_low] at e
  cases r.msb <;> simp at e

theorem crcMsb_append (r : Dword) (xs ys : List Bool) :
    crcMsb sigPoly r (xs ++ ys) = crcMsb sigPoly (crcMsb sigPoly r xs) ys := List.foldl_append ..

/-- So does a run of bits. -/
theorem crcMsb_inj (bs : List Bool) : ∀ {r q : Dword}, crcMsb sigPoly r bs = crcMsb sigPoly q bs → r = q := by
  induction bs with
  | nil => intro r q h; exact h
  | cons b l ih => intro r q h; exact crcStep_inj (ih h)

/-- Words that begin alike but for their last bit give different signatures, whatever follows. -/
theorem sigWords_low_ne (r : Dword) (ws : List Word) : sigWords r (0 :: ws) ≠ sigWords r (1 :: ws) := by
  intro h
  unfold sigWords at h
  rw [List.flatMap_cons, List.flatMap_cons, crcMsb_append, crcMsb_append] at h
  have h1 := crcMsb_inj _ h
  have e0 : bitsMsb (0 : Word).toNat 32 = List.replicate 31 false ++ [false] := by decide
  have e1 : bitsMsb (1 : Word).toNat 32 = List.replicate 31 false ++ [true] := by decide
  rw [e0, e1, crcMsb_append, crcMsb_append] at h1
  exact crcStep_bit _ h1

/-- Lanes that hold the same form the same global signature. -/
theorem globalSig_same {s : State} {p : Fin 3 → Prop} (h : ∀ i j : Fin 3, p i → p j → s.globalOwn i = s.globalOwn j) :
    ∀ i j : Fin 3, p i → p j → s.globalSig i = s.globalSig j := by
  intro i j hi hj
  simp only [State.globalSig, h i j hi hj]

/-- A lane whose scheduler view differs in the last bit of its first word forms a different one. -/
theorem globalSig_odd {s : State} {l : Fin 3} (h : ∀ i : Fin 3, i ≠ l →
      s.globalOwn i = 0 :: (s.globalOwn i).tail ∧ s.globalOwn l = 1 :: (s.globalOwn i).tail) :
    ∀ i : Fin 3, i ≠ l → s.globalSig i ≠ s.globalSig l := by
  intro i hi
  simp only [State.globalSig]
  rw [(h i hi).1, (h i hi).2]
  exact sigWords_low_ne _ _

end Sys2Proof.Machine
end

