-- ==== Sys2Proof/Laws/Images.lean ====
section
/-!
SUPPORT. What a write to the process images can change: PIM and its controller, the fresh instants, the images being copied,
the twin unit's mirror and what leaves on it (spec/03_program_image.md R61, R74, R75, spec/05_tasks_and_modes.md R134,
spec/18_twin_modules.md R462).
-/
namespace Sys2Proof.Machine

/-- Two states that differ at most in what a write to the process images can change. -/
def State.SameButImages (s t : State) : Prop :=
  t = { s with pim := t.pim, pimc := t.pimc, freshAt := t.freshAt, eng := t.eng, twn := t.twn, outbox := t.outbox }

theorem State.SameButImages.refl (s : State) : State.SameButImages s s := rfl

theorem State.SameButImages.trans {s t u : State} (h : State.SameButImages s t) (k : State.SameButImages t u) :
    State.SameButImages s u := by
  unfold State.SameButImages at h k ⊢
  rw [k, h]

theorem State.SameButImages.foldl {α : Type} {f : State → α → State} (h : ∀ s x, State.SameButImages s (f s x)) (l : List α) :
    ∀ s, State.SameButImages s (l.foldl f s) := by
  induction l with
  | nil => intro s; rfl
  | cons x r ih => intro s; exact (h s x).trans (ih _)

/-- The fields that such a change leaves. -/
theorem State.SameButImages.fields {s t : State} (h : State.SameButImages s t) :
    t.pending = s.pending ∧ t.freeCount = s.freeCount ∧ t.supply = s.supply ∧ t.supplyBack = s.supplyBack ∧
    t.rstLow = s.rstLow ∧ t.resetting = s.resetting ∧ t.pstate = s.pstate ∧ t.mstate = s.mstate ∧ t.bootPh = s.bootPh ∧
    t.bootFrom = s.bootFrom ∧ t.safeLatch = s.safeLatch ∧ t.imgRun = s.imgRun ∧ t.imgSealed = s.imgSealed ∧
    t.now = s.now ∧ t.frac = s.frac ∧ t.regs = s.regs ∧ t.tables = s.tables ∧ t.notice = s.notice ∧
    t.cfgFlash = s.cfgFlash ∧ t.lanes = s.lanes ∧ t.sett = s.sett ∧ t.fio = s.fio ∧ t.fside = s.fside ∧ t.rfx = s.rfx ∧
    t.mot = s.mot ∧ t.pins = s.pins ∧ t.ptp = s.ptp ∧ t.planes = s.planes ∧ t.trdp = s.trdp ∧ t.cans = s.cans ∧
    t.mvb = s.mvb ∧ t.brg = s.brg ∧ t.host = s.host ∧ t.dec = s.dec ∧ t.pow = s.pow ∧ t.rtc = s.rtc ∧ t.dorm = s.dorm ∧
    t.chain = s.chain ∧ t.upd = s.upd ∧ t.alive = s.alive ∧ t.booted = s.booted := by
  unfold State.SameButImages at h
  rw [h]
  and_intros <;> rfl

/-- A PIM write. -/
theorem State.pimWr_images (s : State) (w : Nat) (v : Word) : State.SameButImages s (s.pimWr w v) := by
  unfold State.pimWr
  split <;> rfl

/-- A write of an input word (R74, R75). -/
theorem State.ipiSet_images (s : State) (n : Nat) (v st : Word) (f : Nat) : State.SameButImages s (s.ipiSet n v st f) := by
  have h1 : State.SameButImages s (s.saveOld n) := rfl
  have h2 := (h1.trans (State.pimWr_images _ (pimIpi + n) v)).trans (State.pimWr_images _ (pimIst + n) st)
  exact h2.trans rfl

/-- A source's write of an input word, in a unit of any role (R462). -/
theorem State.ipiFrom_images (s : State) (n : Nat) (v st : Word) (f : Nat) : State.SameButImages s (s.ipiFrom n v st f) := by
  unfold State.ipiFrom
  split
  · rfl
  · dsimp only
    split
    · exact (State.ipiSet_images s n v st f).trans rfl
    · exact State.ipiSet_images s n v st f

theorem State.ipiPut_images (s : State) (n : Nat) (v st : Word) : State.SameButImages s (s.ipiPut n v st) :=
  State.ipiFrom_images ..
theorem State.ipiGood_images (s : State) (n : Nat) (v : Word) : State.SameButImages s (s.ipiGood n v) :=
  State.ipiFrom_images ..
theorem State.ipiBad_images (s : State) (m : MapE) : State.SameButImages s (s.ipiBad m) := State.ipiPut_images ..

/-- The items of a source. -/
theorem State.putItems_images (s : State) (kind inst : Nat) (f : MapE → Word × Bool) :
    State.SameButImages s (s.putItems kind inst f) := by
  unfold State.putItems
  refine State.SameButImages.foldl (fun s m => ?_) _ s
  split
  · exact State.ipiGood_images ..
  · exact State.ipiBad_images ..

theorem State.putItemsAt_images (s : State) (kind inst f : Nat) (g : MapE → Word × Bool) :
    State.SameButImages s (s.putItemsAt kind inst f g) := by
  unfold State.putItemsAt
  refine State.SameButImages.foldl (fun s m => ?_) _ s
  split
  · exact State.ipiBad_images ..
  · split
    · exact State.ipiPut_images ..
    · exact State.ipiFrom_images ..

/-- The safe values of the outputs (R82, R141). -/
theorem State.opcSafe_images (s : State) : State.SameButImages s s.opcSafe :=
  State.SameButImages.foldl (fun s _ => (State.pimWr_images s _ _).trans (State.pimWr_images _ _ _)) _ s

/-- The words of a field group (spec/07_field_io.md R193, R219). -/
theorem State.fioPut_images (s : State) (g : Nat) (fresh : Bool) (m : MapE) : State.SameButImages s (s.fioPut g fresh m) := by
  unfold State.fioPut
  dsimp only
  split
  · split
    · exact State.ipiGood_images ..
    · exact State.ipiPut_images ..
  · split
    · exact State.ipiPut_images ..
    · exact State.ipiBad_images ..

theorem State.fioWrite_images (s : State) (g : Nat) (fresh : Bool) : State.SameButImages s (s.fioWrite g fresh) :=
  State.SameButImages.foldl (fun s m => State.fioPut_images s g fresh m) _ s

theorem State.fioLive_images (s : State) (g : Nat) : State.SameButImages s (s.fioLive g) :=
  State.SameButImages.foldl (fun s m => State.fioPut_images s g false m) _ s

end Sys2Proof.Machine
end

