-- ==== Sys2Proof/Laws/Pim.lean ====
section
/-!
SUPPORT. PIM words under writes (spec/03_program_image.md R59, R61), and the canonical form of the stores under the updates
that write them.
-/
namespace Sys2Proof.Machine

/-- A PIM word written is read back. -/
theorem State.pimRd_pimWr_same {s : State} {w : Nat} {v : Word} (h : Memory.wf ramFill s.pim = true) (hw : w < pimLimit) :
    (s.pimWr w v).pimRd w = v := by
  simp only [State.pimWr, State.pimRd, hw, if_true]
  exact Memory.readWord_writeWord_same h

/-- A PIM write leaves every other word alone. -/
theorem State.pimRd_pimWr_ne {s : State} {w u : Nat} {v : Word} (h : Memory.wf ramFill s.pim = true) (hw : w ≠ u) :
    (s.pimWr u v).pimRd w = s.pimRd w := by
  simp only [State.pimWr, State.pimRd]
  split
  · split
    · exact Memory.readWord_writeWord_ne h (by omega)
    · rfl
  · rfl

/-- A PIM write keeps the canonical form of PIM. -/
theorem State.pimWr_wf {s : State} {w : Nat} {v : Word} (h : Memory.wf ramFill s.pim = true) :
    Memory.wf ramFill (s.pimWr w v).pim = true := by
  unfold State.pimWr
  split
  · exact Memory.writeWord_wf h
  · exact h

/-- Writes of consecutive words keep the canonical form of PIM. -/
theorem State.pimWrs_wf {s : State} {w : Nat} {vs : List Word} (h : Memory.wf ramFill s.pim = true) :
    Memory.wf ramFill (s.pimWrs w vs).pim = true := by
  induction vs generalizing s w with
  | nil => exact h
  | cons v r ih => exact ih (State.pimWr_wf h)

/-- Writes of consecutive words leave every word outside them alone. -/
theorem State.pimRd_pimWrs_ne {s : State} {w u : Nat} {vs : List Word} (h : Memory.wf ramFill s.pim = true)
    (hw : w < u ∨ u + vs.length ≤ w) : (s.pimWrs u vs).pimRd w = s.pimRd w := by
  induction vs generalizing s u with
  | nil => rfl
  | cons v r ih =>
    simp only [List.length_cons] at hw
    rw [State.pimWrs, ih (State.pimWr_wf h) (by omega), State.pimRd_pimWr_ne h (by omega)]

/-- A table word written is read back. -/
theorem State.tbl_setTbl_same {s : State} {t i j : Nat} {v : Word} (h : Store.wf tableReset s.tables = true) :
    (s.setTbl t i j v).tbl t i j = v := Store.get_put_same h

/-- With no stored bit flipped, a write flips none. -/
theorem PimCtl.wrote_flips {c : PimCtl} {l : Nat} (h : c.flips = []) : (c.wrote l).flips = [] := by
  simp [PimCtl.wrote, h, List.range_succ, Store.get, Store.put, popCount]

/-- A write by a master keeps the canonical form of the flipped bits. -/
theorem PimCtl.wrote_wf {c : PimCtl} {l : Nat} (h : Store.wf (fun _ => 0) c.flips = true) :
    Store.wf (fun _ => 0) (c.wrote l).flips = true := by
  have k : ∀ (ks : List Nat) (f : Store (BitVec 72)), Store.wf (fun _ => 0) f = true → Store.wf (fun _ => 0)
      (ks.foldl (fun f k => if popCount (Store.get (fun _ => 0) f (4 * l + k)) ≤ 1 then
        Store.put (fun _ => 0) f (4 * l + k) 0 else f) f) = true := by
    intro ks
    induction ks with
    | nil => intro f hf; exact hf
    | cons k r ih =>
      intro f hf
      rw [List.foldl_cons]
      refine ih _ ?_
      split
      · exact Store.put_wf hf
      · exact hf
  exact k _ _ h

/-- The register file keeps its canonical form, and so do the tables and memories, when a register is written. -/
theorem State.canonical_wr {s : State} {a : Nat} {v : Word} (h : s.canonical) : (s.wr a v).canonical :=
  ⟨Store.put_wf h.1, h.2⟩

theorem State.canonical_setTbl {s : State} {t i j : Nat} {v : Word} (h : s.canonical) : (s.setTbl t i j v).canonical :=
  ⟨h.1, Store.put_wf h.2.1, h.2.2⟩

theorem State.canonical_pimWr {s : State} {w : Nat} {v : Word} (h : s.canonical) : (s.pimWr w v).canonical := by
  have hw := State.pimWr_wf (w := w) (v := v) h.2.2.1
  obtain ⟨h1, h2, h3, h4, h5, h6, h7⟩ := h
  unfold State.pimWr at hw ⊢
  split at hw
  · rename_i hl
    simp only [hl, if_true]
    exact ⟨h1, h2, hw, h4, h5, h6, PimCtl.wrote_wf h7⟩
  · rename_i hl
    simp only [hl, if_false]
    exact ⟨h1, h2, h3, h4, h5, h6, h7⟩

end Sys2Proof.Machine
end

