-- ==== Sys2Proof/Laws/Types.lean ====
section
/-!
SUPPORT. The data types of the block library: the word that holds an integer of a type stands for that integer modulo the
width of the type (spec/03_program_image.md R56, R57, spec/04_block_library.md R96).
-/
namespace Sys2Proof.Machine

theorem wi_toNat (v : Int) : ((wi v).toNat : Int) = v % 4294967296 := by
  simp [wi, BitVec.toNat_ofInt]
  omega

theorem wd_toNat (n : Nat) : (wd n).toNat = n % 4294967296 := by simp [wd]

theorem fld_eq {k : Nat} (w : BitVec k) (n : Nat) : fld w 0 n = w.toNat % 2 ^ n := by simp [fld]

/-- The integer types by name. -/
theorem tyINT_cases {t : Nat} (h : tyINT t = true) :
    t = 4 ∨ t = 5 ∨ t = 6 ∨ t = 7 ∨ t = 8 ∨ t = 9 ∨ t = 11 ∨ t = 12 := by
  simp [tyINT, tySI, tyUI] at h
  omega

/-- The value of a word of a signed type. -/
theorem tyVal_SI {t : Nat} (h : tySI t = true) (w : Word) :
    tyVal t w = if 2 ^ (tyWidth t - 1) ≤ w.toNat % 2 ^ tyWidth t then (w.toNat % 2 ^ tyWidth t : Nat) - (2 : Int) ^ tyWidth t
      else (w.toNat % 2 ^ tyWidth t : Nat) := by
  have p : 0 < tyWidth t := by simp only [tyWidth]; split <;> (try split) <;> (try split) <;> omega
  simp [tyVal, h, sfld, fld_eq, p]

/-- The value of a word of an unsigned type. -/
theorem tyVal_UI {t : Nat} (h : tySI t = false) (w : Word) : tyVal t w = (w.toNat % 2 ^ tyWidth t : Nat) := by
  simp [tyVal, h, fld_eq]

/-- The width of an integer type. -/
theorem tyWidth_INT {t : Nat} (h : tyINT t = true) : tyWidth t = 8 ∨ tyWidth t = 16 ∨ tyWidth t = 32 := by
  rcases tyINT_cases h with rfl | rfl | rfl | rfl | rfl | rfl | rfl | rfl <;> decide

/-- The value of a word lies in the range of its type. -/
theorem tyVal_range {t : Nat} (h : tyINT t = true) (w : Word) : tyMin t ≤ tyVal t w ∧ tyVal t w ≤ tyMax t := by
  have hw := tyWidth_INT h
  cases hs : tySI t
  · rw [tyVal_UI hs]
    simp only [tyMin, tyMax, hs]
    generalize tyWidth t = n at hw
    rcases hw with rfl | rfl | rfl <;> norm_num <;> omega
  · rw [tyVal_SI hs]
    simp only [tyMin, tyMax, hs]
    generalize tyWidth t = n at hw
    rcases hw with rfl | rfl | rfl <;> norm_num <;> split <;> constructor <;> omega

/-- The word of an integer stands for it modulo the width of the type. -/
theorem tyVal_tyOf_mod {t : Nat} (h : tyINT t = true) (v : Int) : (tyVal t (tyOf t v) - v) % 2 ^ tyWidth t = 0 := by
  have e := wi_toNat v
  have hw := tyWidth_INT h
  have n0 : t ≠ 0 := by rintro rfl; exact absurd h (by decide)
  cases hs : tySI t
  · rw [tyVal_UI hs]
    simp only [tyOf, tyExt, hs, n0, if_false, fld_eq, Bool.false_eq_true]
    rw [wd_toNat]
    generalize tyWidth t = n at hw
    generalize (wi v).toNat = x at *
    rcases hw with rfl | rfl | rfl <;> norm_num <;> omega
  · rw [tyVal_SI hs]
    have p : 0 < tyWidth t := by omega
    simp only [tyOf, tyExt, hs, n0, if_false, if_true, sfld, fld_eq, p, and_true]
    generalize tyWidth t = n at hw
    generalize (wi v).toNat = x at *
    have g := wi_toNat (if 2 ^ (n - 1) ≤ x % 2 ^ n then (x % 2 ^ n : Nat) - (2 : Int) ^ n else (x % 2 ^ n : Nat))
    generalize (wi _).toNat = y at *
    rcases hw with rfl | rfl | rfl <;> norm_num at * <;> split at g <;> split <;> omega

/-- The plain word of an integer in range stands for it. -/
theorem tyVal_wi {t : Nat} (h : tyINT t = true) {v : Int} (h1 : tyMin t ≤ v) (h2 : v ≤ tyMax t) :
    tyVal t (wi v) = v := by
  have e := wi_toNat v
  have hw := tyWidth_INT h
  generalize hx : wi v = w at *
  cases hs : tySI t
  · rw [tyVal_UI hs]
    simp only [tyMin, tyMax, hs] at h1 h2
    generalize tyWidth t = n at *
    rcases hw with rfl | rfl | rfl <;> norm_num at * <;> omega
  · rw [tyVal_SI hs]
    simp only [tyMin, tyMax, hs] at h1 h2
    generalize tyWidth t = n at *
    rcases hw with rfl | rfl | rfl <;> norm_num at * <;> split <;> omega

/-- The word of an integer in range stands for it. -/
theorem tyVal_tyOf {t : Nat} (h : tyINT t = true) {v : Int} (h1 : tyMin t ≤ v) (h2 : v ≤ tyMax t) :
    tyVal t (tyOf t v) = v := by
  have m := tyVal_tyOf_mod h v
  obtain ⟨r1, r2⟩ := tyVal_range h (tyOf t v)
  have hw := tyWidth_INT h
  generalize tyVal t (tyOf t v) = x at *
  cases hs : tySI t <;> simp only [tyMin, tyMax, hs] at h1 h2 r1 r2 <;>
    generalize tyWidth t = n at * <;> rcases hw with rfl | rfl | rfl <;> norm_num at * <;> omega

/-- The extension of a word is the word of its value. -/
theorem tyExt_eq {t : Nat} (h : tyINT t = true) (w : Word) : tyExt t w = wi (tyVal t w) := by
  have n0 : t ≠ 0 := by rintro rfl; exact absurd h (by decide)
  cases hs : tySI t
  · simp [tyExt, tyVal, hs, n0, wi, wd]
  · simp [tyExt, tyVal, hs, n0]

/-- The word of an integer is extended as its type requires (R57). -/
theorem tyExt_tyOf {t : Nat} (h : tyINT t = true) (v : Int) : tyExt t (tyOf t v) = tyOf t v := by
  obtain ⟨r1, r2⟩ := tyVal_range h (wi v)
  rw [show tyOf t v = tyOf t (tyVal t (wi v)) by
    rw [tyOf, tyExt_eq h, tyOf, tyExt_eq h]
    rw [tyVal_wi h r1 r2]]
  rw [tyExt_eq h, tyVal_tyOf h r1 r2, tyOf, tyExt_eq h, tyVal_wi h r1 r2]

end Sys2Proof.Machine
end

