-- ==== Sys2Proof/Laws/Vote.lean ====
section
/-!
SUPPORT. Votes and blocks with three undisturbed lanes: a vote answers the common value and changes nothing, and a block is
its library meaning, its requests in their order, its PE cost and the advance (spec/06_triplex_execution.md R162 to R165,
R171, R181).
-/
namespace Sys2Proof.Machine

/-- Three lanes that agree: the value takes effect and nothing else happens. -/
theorem State.vote_quiet {s : State} {c w : Nat} {x : Dword} (h : s.quiet) : s.vote c w ⟨x, x, x⟩ = (s, some x) := by
  obtain ⟨h1, h2, h3, -⟩ := h
  have hc : ∀ i, s.lanes.counts i = true := by
    intro i
    simp [Lanes.counts, h1, bit]
  simp [State.vote, Lanes.compare, hc, State.joinCheck, Lanes.joining, h2, h3]

theorem State.vote_none {s : State} {c w : Nat} (h : s.quiet) : s.vote c w Tri.none = (s, some 0) := State.vote_quiet h

/-- No lane makes a request alone. -/
theorem State.voteAlone_quiet {s : State} {w : Nat} (h : s.quiet) : s.voteAlone w 0 = s := by
  obtain ⟨-, h2, h3, -⟩ := h
  simp [State.voteAlone, State.joinCheck, Lanes.joining, bit, h2, h3]

/-- All lanes make the request. -/
theorem State.voteOmit_quiet {s : State} {w : Nat} (h : s.quiet) : s.voteOmit w 0 = (s, true) := by
  obtain ⟨-, h2, h3, -⟩ := h
  simp [State.voteOmit, State.joinCheck, Lanes.joining, bit, h2, h3]

/-- Undisturbed voter copies agree. -/
theorem State.voteCopies_quiet {s : State} {w : Nat} (h : s.quiet) : s.voteCopies w Tri.none = (s, true) := by
  obtain ⟨h1, -, h3, -⟩ := h
  have hc : s.lanes.counting = [0, 1, 2] := by
    unfold Lanes.counting
    simp only [Lanes.counts, h1, bit]
    decide
  simp [State.voteCopies, hc, h3, triLane, Tri.none]

/-- An undisturbed request passes the vote as it is (R164). -/
theorem State.voteWrite_quiet {s : State} {w : Nat} (h : s.quiet) :
    s.voteWrite w WriteUpset.none = (s, some Through.clean) := by
  simp only [State.voteWrite, WriteUpset.none, State.voteAlone_quiet h, State.voteOmit_quiet h, State.vote_none h,
    State.voteCopies_quiet h, h.2.2.1]
  rfl

/-- Undisturbed reads deliver (R181). -/
theorem State.pimCheck_quiet {s : State} {m : Nat} {l : List Nat} (h : s.quiet) :
    s.pimCheck m l PimErr.none = (s, true) := by
  simp [State.pimCheck, PimErr.none, State.pimStrike, State.linesCheck, h.2.2.2, bit, popCount]

/-- Undisturbed read addresses pass their votes (R162). -/
theorem State.voteReads_quiet {s : State} (h : s.quiet) : ∀ rs : List (Nat × Tri), (∀ r ∈ rs, r.2 = Tri.none) →
    s.voteReads rs = (s, some (rs.map fun _ => 0)) := by
  intro rs
  induction rs with
  | nil => intro _; rfl
  | cons r l ih =>
    intro hr
    obtain ⟨w, x⟩ := r
    have hx : x = Tri.none := hr _ (List.mem_cons_self ..)
    subst hx
    have hz : fld (0 : Dword) 0 23 = 0 := by decide
    simp only [State.voteReads, State.vote_none h, ih fun r hm => hr r (List.mem_cons_of_mem _ hm), List.map_cons, hz]

/-! ## What a request leaves -/

theorem State.quiet_pimWr {s : State} {w : Nat} {v : Word} (h : s.quiet) : (s.pimWr w v).quiet := by
  obtain ⟨h1, h2, h3, h4⟩ := h
  unfold State.pimWr
  split
  · exact ⟨h1, h2, h3, PimCtl.wrote_flips h4⟩
  · exact ⟨h1, h2, h3, h4⟩

theorem State.quiet_modAct {s : State} {k : Fin 8} {f : Act → Act} (h : s.quiet) : (s.modAct k f).quiet := h

theorem State.quiet_lcrStage {s : State} {i : Nat} {w : Word} {d : Tri} (h : s.quiet) : (s.lcrStage i w d).quiet := by
  unfold State.lcrStage
  split
  · exact h
  · exact h

/-- A fold of steps that leave the SAFE latches leaves them. -/
theorem State.latch_foldl {α : Type} {f : State → α → State} (h : ∀ s x, (f s x).safeLatch = s.safeLatch) (l : List α) :
    ∀ s, (l.foldl f s).safeLatch = s.safeLatch := by
  induction l with
  | nil => intro s; rfl
  | cons x r ih => intro s; rw [List.foldl_cons, ih, h]

@[simp] theorem State.pinsQuiet_latch (s : State) : s.pinsQuiet.safeLatch = s.safeLatch := by
  refine State.latch_foldl (fun s n => ?_) _ s
  split <;> rfl

@[simp] theorem State.updSafe_latch (s : State) : s.updSafe.safeLatch = s.safeLatch := by
  have h : ∀ s : State, (s.updAbort 4).safeLatch = s.safeLatch := by
    intro s
    unfold State.updAbort State.updEnd State.updRestore
    dsimp only
    split
    · split <;> simp
    · rfl
  unfold State.updSafe
  dsimp only
  split
  · exact h s
  · exact h s

@[simp] theorem State.trigger_latch (s : State) (k n : Nat) : (s.trigger k n).safeLatch = s.safeLatch := by
  have ht : ∀ (s : State) (t : Fin 8), (s.taskEvent t).safeLatch = s.safeLatch := by
    intro s t
    unfold State.taskEvent
    dsimp only
    split <;> simp
  unfold State.trigger
  split
  · rfl
  · refine State.latch_foldl (fun s t => ?_) _ s
    dsimp only
    split
    · exact ht s t
    · rfl

@[simp] theorem State.ring_latch (s : State) (m b : Nat) : (s.ring m b).safeLatch = s.safeLatch := by
  have hb : (s.ringBit m b).safeLatch = s.safeLatch := by
    unfold State.ringBit
    dsimp only
    split
    · split <;> simp
    · simp
  unfold State.ring
  dsimp only
  split <;> simp [hb]

@[simp] theorem State.mbPush_latch (s : State) (n : Nat) (a : Bool) (ws : List Word) :
    (s.mbPush n a ws).safeLatch = s.safeLatch := by
  have he : ∀ (s : State) (m : MbMsg), (s.mbEnter n a m).safeLatch = s.safeLatch := by
    intro s m
    have hw : ∀ s : State, (s.winTouch n a).safeLatch = s.safeLatch := by
      intro s
      have hb : ∀ f, (s.winBusy f n).safeLatch = s.safeLatch := by
        intro f
        unfold State.winBusy
        split <;> simp
      unfold State.winTouch
      dsimp only
      repeat' split
      all_goals simp [hb]
    unfold State.mbEnter
    dsimp only
    rw [State.ring_latch]
    split
    · rw [hw]
      rfl
    · rfl
  unfold State.mbPush
  dsimp only
  split
  · rfl
  · rw [he]
    split
    · exact State.latch_foldl (f := fun s f => s.emit (.twin f)) (fun _ _ => rfl) _ s
    · rfl

@[simp] theorem State.twnUnfit_latch (s : State) : s.twnUnfit.safeLatch = s.safeLatch := by
  have h : ∀ (s : State) (r : Role), (s.setTwnRole r).safeLatch = s.safeLatch := by
    intro s r
    unfold State.setTwnRole State.twnTell
    split
    · rfl
    · split
      · simp
      · split <;> simp
  unfold State.twnUnfit
  split
  · simp [h]
  · rfl

/-- A fault that takes the module to SAFE leaves every SAFE latch set (spec/19_faults_and_diagnostics.md R481). -/
theorem State.enterSafe_latch (s : State) (c i : Nat) (p : List Word) : (s.enterSafe c i p).safeLatch = true := by
  unfold State.enterSafe
  split
  · rename_i h
    simp [h]
  · have hm : ∀ (s : State) m, (s.setMState m).safeLatch = s.safeLatch := by
      intro s m
      unfold State.setMState
      split <;> rfl
    simp [State.safeEnds, State.bridgeEmpty, hm]

theorem State.pimFatal_latch (s : State) (c l m k w : Nat) : (s.pimFatal c l m k w).safeLatch = true :=
  State.enterSafe_latch _ _ _ _

/-- A voted write of undisturbed lanes leaves them undisturbed, or the module in SAFE. -/
theorem State.votedWr_quiet {s : State} {w : Nat} {v : Word} {x : Through} (h : s.quiet) :
    (s.votedWr w v x).safeLatch = true ∨ (s.votedWr w v x).quiet := by
  unfold State.votedWr
  dsimp only
  split
  · exact .inr h
  · split
    · exact .inl (State.pimFatal_latch ..)
    · exact .inr (State.quiet_pimWr h)

/-- So does every request of a block. -/
theorem State.doReq_quiet {s : State} {k : Fin 8} {a : Act} {r : WriteReq} {x : Through} {l : Tri} (h : s.quiet) :
    (s.doReq k a r x l).safeLatch = true ∨ (s.doReq k a r x l).quiet := by
  cases r with
  | slot w ty v =>
    simp only [State.doReq, State.writeSlot]
    split
    · exact State.votedWr_quiet h
    · split
      · split
        · exact .inr h
        · exact .inr (State.quiet_lcrStage (State.quiet_pimWr (State.quiet_modAct h)))
      · split
        · exact .inr h
        · exact .inr (State.quiet_modAct h)
      · split
        · exact .inr (State.quiet_pimWr h)
        · exact .inr h
      · exact .inr h
  | inst i v => exact State.votedWr_quiet h
  | ovf => exact State.votedWr_quiet h
  | stage e =>
    simp only [State.doReq]
    split
    · exact .inr h
    · exact .inr (State.quiet_modAct h)

/-- The requests of a block in undisturbed lanes. -/
theorem State.doReqs_quiet {k : Fin 8} {a : Act} {d : Nat} (rs : List WriteReq) : ∀ (s : State) (n : Nat),
    s.safeLatch = true ∨ s.quiet → s.doReqs k a d Upset.none (rs.zipIdx n) = s.doAll k a rs ∧
      ((s.doAll k a rs).safeLatch = true ∨ (s.doAll k a rs).quiet) := by
  induction rs with
  | nil => intro s n h; exact ⟨rfl, h⟩
  | cons r l ih =>
    intro s n h
    rw [List.zipIdx_cons]
    unfold State.doReqs State.doAll
    obtain h | h := h
    · simp [h]
    · have hu : Upset.none.wr.getD n WriteUpset.none = WriteUpset.none := by simp [Upset.none]
      have hl : Upset.none.lcr = Tri.none := rfl
      simp only [h.2.2.1, hu, hl, State.voteWrite_quiet h]
      exact ih _ _ (State.doReq_quiet h)

/-! ## The block -/

/-- The lanes execute the block they stand at. -/
theorem State.blockCmd_at {s : State} {b : BlockDef} {k : Fin 8} {a : Act} {d opc : Nat} {u : Upset}
    (h : s.atBlock k a d opc) (hb : b.opc opc = true) : s.blockCmd b u = s.runBlock b k a d u := by
  obtain ⟨h1, h2, h3, h4⟩ := h
  simp [State.blockCmd, h1, h2, h3, h4, hb]

/-- Reads without deviations take the addresses as they are. -/
theorem State.blockIn_zeros {s : State} {b : BlockDef} {k : Fin 8} {a : Act} {d n : Nat} :
    s.blockIn b k a d (List.replicate n 0) = s.blockIn b k a d [] := by
  have h : ∀ i, (List.replicate n 0).getD i 0 = ([] : List Nat).getD i 0 := by
    intro i
    simp only [List.getD_eq_getElem?_getD, List.getElem?_replicate, List.getElem?_nil]
    split <;> rfl
  unfold State.blockIn
  simp only [h]

/-- A block in undisturbed lanes: its library meaning, or fault 0x0803 where its instance header is wrong. -/
theorem State.runBlock_quiet {s : State} {b : BlockDef} {k : Fin 8} {a : Act} {d opc : Nat} (h : s.quiet)
    (ho : fld (s.pimRd (s.descAt d)) 0 12 = opc) :
    s.runBlock b k a d Upset.none =
      if 0 < b.words ∧ s.pimRd (s.irefAt d) ≠ wd opc then
        s.enterSafe 0x0803 k [wd d, wd (s.irefAt d), s.pimRd (s.irefAt d)] else s.ranBlock b k a d := by
  subst ho
  have hr : ∀ r ∈ s.blockReads d Upset.none, r.2 = Tri.none := by
    intro r hm
    simp only [State.blockReads, Upset.none, List.getD_eq_getElem?_getD, List.getElem?_nil, Option.getD_none, List.mem_cons,
      List.mem_map] at hm
    rcases hm with rfl | ⟨p, -, rfl⟩ <;> rfl
  have hp : Upset.none.pim = PimErr.none := rfl
  have hx : ((((s.blockReads d Upset.none).map fun _ => 0).drop 1).map fun x => x ^^^ pimEscape PimErr.none) =
      List.replicate ((s.blockReads d Upset.none).length - 1) 0 := by
    have e : pimEscape PimErr.none = 0 := by decide
    simp [e]
  unfold State.runBlock
  rw [hp, State.pimCheck_quiet h]
  simp only [State.voteReads_quiet h _ hr, hx, State.blockIn_zeros]
  split
  · rfl
  · obtain ⟨e1, e2⟩ := State.doReqs_quiet (k := k) (a := a) (d := d) (s.blockReqs b d (b.sem (s.blockIn b k a d []))) s 0 (.inr h)
    have e3 : Upset.none.extra = 0 := rfl
    rw [e1, e3]
    unfold State.ranBlock
    dsimp only
    obtain e2 | e2 := e2
    · simp [State.voteAlone, e2, bit]
    · rw [State.voteAlone_quiet e2]

end Sys2Proof.Machine
end

