-- ==== Sys2Proof/Machine/Lantern.lean ====
section
/-!
DEFINITION. What the four lantern LEDs show of the state (spec/20_hardware_reference.md R504). Nothing in the program or on the
host sets them, and no command reads them.
-/
namespace Sys2Proof.Machine

/-- What an LED shows: a steady colour, a blink of it, HOLD's alternation, and the flash of a degraded module. -/
inductive Lamp where
  | dark
  | red | amber | green
  | amberBlink2 | greenBlink1 | greenAmber2 | greenAmberFlash
deriving DecidableEq, Repr

/-- The LED test of BOOT's first 200 ms. -/
def State.lampTest (s : State) : Bool := s.mstate == .boot && decide (s.now < s.bootFrom + 200000000)

/-- All four LEDs are dark: in SLUMBER and HIBERNATE, and where nothing powers them. -/
def State.lampOff (s : State) : Bool := s.supply == .off || s.asleep

/-- An LED outside these two cases shows `l`. -/
def State.lamp (s : State) (l : Lamp) : Lamp := if s.lampOff then .dark else if s.lampTest then .amber else l

/-- STATE. -/
def State.ledState (s : State) : Lamp :=
  s.lamp (match s.mstate with
    | .safe => .red
    | .boot => .amber
    | .bare => .amberBlink2
    | .hold => .greenAmber2
    | .run => if s.degraded then .greenAmberFlash else .green
    | .stop => .greenBlink1)

/-- A group has an output in use (OUTEN, spec/07_field_io.md R222). -/
def State.fioUsed (s : State) (g : Fin 4) : Bool := (List.range 4).any fun k => s.fioOuten g k

/-- FIELD. -/
def State.ledField (s : State) : Lamp :=
  let groups := List.finRange 4
  let used := groups.filter fun (g : Fin 4) => s.fioUsed g
  s.lamp (if groups.any fun (g : Fin 4) => (s.fioG g).latch || (s.fioG g).latchFlt then .red
    else if bit s.rfxStat 0 then .amberBlink2
    else if used.any fun (g : Fin 4) => bit (s.fioStat g) 6 || !s.fioReady g then .amber
    else if used.isEmpty then .dark else .green)

/-- NET. -/
def State.ledNet (s : State) : Lamp :=
  let enabled := s.portEn 0 0 || s.portEn 0 1 || s.portEn 1 0 || s.portEn 1 1
  s.lamp (if !s.netUp 0 && !s.netUp 1 && enabled then .red
    else if s.entryAny 1 3 6 0 || s.entryAny 2 0 8 0 then .amberBlink2
    else if s.netUp 0 != s.netUp 1 then .amber
    else if s.netUp 0 then .green else .dark)

/-- TWIN. ALONE with TWN.CTRL.EN = 1 has no row of its own; the model shows it dark (log entry 48). -/
def State.ledTwin (s : State) : Lamp :=
  s.lamp (match s.twn.role with
    | .unfit => .red
    | .wait => .amber
    | .joining => .amber
    | .standby => .greenBlink1
    | .active => .green
    | .alone => .dark)

end Sys2Proof.Machine
end

