-- ==== Sys2Proof/WellFormed.lean ====
section
/-!
DEFINITION. Which commands the environment can send: the sizes of host accesses, the forms of frames, the ranges of sensor
values (spec/02_register_pages.md R42, spec/10_decimation.md R267, spec/11_train_network.md R286, spec/12_bridges.md R317,
R321, spec/13_time.md R342, spec/14_host_and_mailboxes.md R365, spec/16_clocks_and_power.md R429).
-/
namespace Sys2Proof

/-- A BAR0 write of 1, 2, 4 or 8 bytes inside the BAR (R42). -/
def regWriteOk (off : BitVec 20) (size : Nat) : Bool :=
  [1, 2, 4, 8].contains size && decide (off.toNat + size ≤ 0x100000)

/-- An AtomicOp of 32 or 64 bits, or a CAS of 128 (R365). -/
def atomicOk (r : AtomicReq) : Bool := r.width == 4 || r.width == 8 || (r.width == 16 && r.kind == .cas)

/-- A BAR2 write of at least one byte inside the BAR (R30). -/
def noticeWriteOk (off : BitVec 24) (data : List Byte) : Bool :=
  !data.isEmpty && decide (off.toNat + data.length ≤ 0x1000000)

/-- An Ethernet frame holds its content. -/
def ethOk (f : EthFrame) : Bool :=
  match f.body with
  | .arp _ => true
  | .pd p => decide (p.data.length ≤ f.len)
  | .ptp _ => true
  | .pause => true
  | .other _ bytes => decide (bytes.length ≤ f.len)

/-- A CAN or CAN FD frame: its length, format bits and identifier (R317). -/
def canOk (f : CanFrame) : Bool :=
  (decide (f.data.length ≤ 8) || (f.fd && [12, 16, 20, 24, 32, 48, 64].contains f.data.length)) && (!f.brs || f.fd) &&
    (!f.rtr || !f.fd) && (!f.esi || f.fd) && (f.ext || decide (f.id.toNat < 2048))

/-- A temperature in °C that TEMP can show (R429). -/
def celsiusOk (t : Int) : Bool := decide (-128 ≤ t) && decide (t ≤ 127)

/-- A command the environment can send. -/
def Instr.wellFormed (i : Instr) : Bool :=
  match i with
  | .mainSupplyUp | .rstNAssert | .rstNRelease | .resetRequest _ _ | .resetRingWritten => true
  | .supplyFail | .mainRailsFall | .bootClocksDone _ | .selfTestsDone _ | .addressingDone _ => true
  | .imageLoadDone _ _ | .safeHostNotify | .safeTwinRelinquish => true
  | .regWrite _ off size _ => regWriteOk off size
  | .pageLock _ _ _ | .winSelect _ _ _ | .winSelectDone _ | .forceCommit _ | .forceRelease _ => true
  | .forceReleaseAll _ | .trdWinCommit _ | .twpWinCommit _ | .brgWinCommit _ | .mvbWinCommit _ => true
  | .semWrite _ _ _ => true
  | .atomicOp _ r => atomicOk r
  | .noticeSramWrite _ off data => noticeWriteOk off data
  | .taskPeriodicTrigger _ | .triggerAdmit | .shadowCopyDone _ | .segmentCond _ => true
  | .activationComplete _ | .commit _ _ | .startCommand _ | .stopCommand _ | .breakpointHalt => true
  | .holdResume _ | .holdStep _ _ | .dbgStop _ | .changePauseBegin | .changePauseEnd | .bAnd _ => true
  | .bOr _ | .bXor _ | .bNot _ | .bShl _ | .bShr _ | .bRol _ | .bRor _ | .bMove _ | .bEq _ | .bNe _ => true
  | .bLt _ | .bLe _ | .bGt _ | .bGe _ | .bWin _ | .bHyst _ | .bAdd _ | .bSub _ | .bMul _ | .bDiv _ => true
  | .bMod _ | .bAddS _ | .bSubS _ | .bMulS _ | .bAbs _ | .bSqrt _ | .bMuldiv _ | .bTrunc _ => true
  | .bConv _ | .bSel _ | .bMux _ | .bMin _ | .bMax _ | .bLimit _ | .bRTrig _ | .bFTrig _ | .bSr _ => true
  | .bRs _ | .bTon _ | .bTof _ | .bTp _ | .bTacc _ | .bCtu _ | .bCtd _ | .bCtud _ | .bLag1 _ => true
  | .bDebnc _ | .bMavg _ | .bRatel _ | .bPi _ | .bPid _ | .bLin _ | .bScale _ | .bLookup _ => true
  | .bSeq _ | .bSeqt _ | .bGuard _ | .bReset _ | .bAntiv _ | .bEquiv _ | .bFbmon _ | .bSpeed _ => true
  | .bCmparm _ | .bSmosel _ | .bQchk _ | .bPack _ | .bUnpack _ | .bBswap _ | .bMbsend _ => true
  | .bMbrecv _ | .bRecev _ | .agreementEpoch _ | .inputAgreementOdd | .globalSignature _ => true
  | .resyncStart | .resyncEngineLoaded _ | .resyncK0Load _ | .laneRejoin _ | .resyncStarved => true
  | .signatureSnapshot _ | .pimWriteback | .pimRetryEnd _ | .scrubLine _ | .downstreamFrameTx _ => true
  | .fieldDownstreamRx _ _ _ | .fieldDownstreamMissing _ | .fieldLatchClear _ => true
  | .fieldUpstreamTx _ _ | .receiverLock _ _ | .upstreamFrameRx _ _ | .upstreamFrameMissing _ => true
  | .linkLoss _ | .linkAccept _ | .inputFilterAccept _ _ | .classMismatch _ | .laneWordInvalid _ _ => true
  | .fieldSideReset _ | .fieldSideRestart _ | .testSourcePulseStart _ _ | .testSourcePulseEnd _ _ => true
  | .comparatorTest _ _ | .testPulseStart _ _ | .testPulseEnd _ _ | .testPulseRequest _ _ _ => true
  | .outputStuckOn _ _ | .outputShort _ _ | .openLoad _ _ | .pairDiscrepancy _ _ => true
  | .outputTrip _ _ _ | .supplyThresholdCross _ _ | .supplyCutoff _ | .supplyReady _ => true
  | .reflexEvaluate _ | .resetButtonStuck _ | .axisEdge _ _ _ _ | .zMark _ _ | .ssiFrameStart _ _ => true
  | .ssiFrameEnd _ _ _ _ _ _ | .lineFault _ _ | .axisFaultClear _ | .slotEvaluate | .presetApply _ => true
  | .speedWindowUpdate _ | .monitorEvaluate _ | .monitorItemWrite => true
  | .conversionRound r => decide (r.bits.length = 16)
  | .dscfgWrite _ _ _ | .fillEnd _ | .dsStuck _ | .noclk _ | .noclkClear _ | .decTestStart _ _ => true
  | .decTestStop _ => true
  | .switchFrameRx _ _ f => ethOk f
  | .switchFrameTx _ _ => true
  | .p3FrameRx _ f => ethOk f
  | .pdPublish _ | .p3FrameTx _ | .pdTimeout _ | .telegramSend _ _ | .compareWindowClose _ => true
  | .telegramTimeout _ | .hostTxProduce _ _ _ | .hostTxSend _ | .hostRxConsume _ _ _ => true
  | .ethLinkChange _ _ _ | .addressAgeing _ _ | .netCounterClear _ _ => true
  | .canFrameRx _ f => canOk f
  | .canTxStart _ | .canTxDone _ _ => true
  | .canBusError _ e => decide (e.dTec ≤ 8) && decide (e.dRec ≤ 8)
  | .canBusoffRecovery _ | .canRecoveryCmd _ _ | .mvbMasterFrame _ _ => true
  | .mvbSlaveFrame _ _ data => [2, 4, 8, 16, 32].contains data.length
  | .mvbLineBad _ | .mvbSinkStale _ | .minivRelease _ | .bridgePoll | .ptpSyncRx _ _ _ _ => true
  | .ptpFollowUpRx _ _ | .ptpAnnounceRx _ _ | .ptpDelayRespRx _ _ => true
  | .ptpPdelayRx _ kind _ _ => kind == .pdelayReq || kind == .pdelayResp || kind == .pdelayRespFollowUp
  | .ptpSyncTx | .ptpAnnounceTx | .ptpDelayReqTx | .ptpMasterLost | .holdoverLong | .timeSetCmd _ => true
  | .timeSnapshot _ | .mtimeSnapshot _ | .tpinConfigWrite _ _ _ _ | .tpinPulseStart _ => true
  | .tpinPulseEnd _ | .tpinCaptureEdge _ _ _ _ _ | .rtcSet | .pcieLinkDown | .functionLevelReset _ => true
  | .perstAssert | .mbTxWord _ _ _ | .mbTxCommit _ _ _ | .mbTxDiscard _ _ | .mbRxSelect _ _ => true
  | .mbRxWindowReady _ | .mbRxPop _ _ | .mbEndReset _ _ | .mbBindWrite _ _ _ | .c0MessageSend _ => true
  | .privVectorSend _ _ | .statusBlockWrite _ | .msixUnmask _ _ | .recordIntake | .openRecordExpiry => true
  | .settSealCmd _ | .settRestartCmd _ | .settProtect _ _ | .settReleaseRange _ _ => true
  | .settRestartDone | .settSnapshot _ | .flashPageWrite _ | .flushTimeout | .blockErase _ => true
  | .storeScanDone _ | .recordRead _ _ | .recordReadDone _ | .extractRequest | .extractDone => true
  | .settMb2Command | .flashControllerFault | .pllLockLost _ | .pllReady _ | .pllOutOfTolerance => true
  | .tcxoFail | .rtcCrystalFail | .clockSwitchPllA _ | .clockSwitchPllB _ | .rtcSnapshot _ => true
  | .governorTempSample base die => celsiusOk base && celsiusOk die
  | .opPgood | .opDividerSwitch | .opResume | .opPgoodTimeout | .coreUndervoltage | .tokenFill _ => true
  | .powerStateExit | .powerStateEarlyExit | .slumberRequest _ | .hibernateRequest _ => true
  | .sleepRingWritten | .slumberWake _ | .wakeFallingEdge | .dormouseDelayEnd _ => true
  | .dormouseQuietClear | .chainTrainSend | .chainTrainRx _ _ _ _ | .chainAbsentTimeout | .updOpen => true
  | .updBlock | .updBlockDone _ | .updClose | .updAbort | .updKey | .updRevoke => true
  | .guardedVerifyDone _ | .imageActivationDone | .restoreDone _ | .loaderRestart _ => true
  | .otpProvision _ _ | .otpProgramDone | .twinHbSend | .twinHbRx _ | .twinMirRx _ | .twinTrgRx _ => true
  | .twinMbwRx _ | .twinCmpRx _ | .twinXfrRx _ | .joinPassEnd _ | .joinRestart | .mirrorOverrun => true
  | .twinGrantRequest | .heartbeatLost | .requestRepeat | .refGrantRx _ | .refDenyRx _ => true
  | .renewAckRx _ | .renewAckTimeout | .refereeRenewRx _ | .refereeRequestRx _ => true
  | .refereeRelinquishRx _ | .twinRejoin _ | .gsageHour | .diaCounterClear _ | .ptpDelayReqRx _ _ => true
  | .pcieLinkUp _ _ | .configSpaceWrite _ _ _ | .dsStuckClear _ | .refereeGrantExpiry _ => true
  | .twinMirRefresh | .rtcCrystalReady => true

end Sys2Proof
end

