-- ==== Sys2Proof/Tests/Slice0.lean ====
section
/-!
SUPPORT. Tests: an ill-formed command for each check of WellFormed, the reset state, and for every clause of every statement
with hypotheses a concrete state and operands that meet them together (test_w_ and test_v_, named after the statement), with
what the rules make of them.
-/
namespace Sys2Proof.Tests
open Sys2Proof Sys2Proof.Machine
set_option Elab.async false

/-- The state a command answers with. -/
def after (a : Answer) (s : State) : State := match a with
  | .next t => t
  | .fault _ => s
  | .refused _ => s
/-- A booted module in RUN with a running engine. -/
def live : State := { State.reset with mstate := .run, bootPh := .ended, eng := { Eng.reset with mode := .run } }
/-- A booted module in STOP. -/
def stopd : State := { State.reset with mstate := .stop, bootPh := .ended }
/-- An activation whose shadow image is being copied. -/
def wAct : Act :=
  { ts := 0, tc := 400000, dt := 0, eper := 0, stage := .copying, pos := .cond 0, pe := 0, est := none, staged := [], saved := []
    axSnap := [], mbSnap := [], rep := [], tsync := false, frc := []
    sig := 0, sigDev := Tri.none, pipe := Vector.replicate 3 Pipe.zero }
/-- An activation that stands at descriptor `d` of its first segment. -/
def blkAct (d : Nat) : Act := { wAct with stage := .running, pos := .desc 0 d }
/-- A running task 1 whose first segment holds one block: opcode, data type, instance address and operand slots. -/
def blkState (opc dty iref : Nat) (slots : List Word) : State :=
  let s := (live.modTask 1 fun k => { k with act := some (blkAct 0), rec' := ⟨0, 0, 0, 0, 0, 1, 100⟩ })
  let s := { s with eng := { s.eng with running := some 1 } }
  s.pimWrs 8 ([wd (opc + dty * 0x1000 + slots.length * 0x10000 + 0x3000000), wd iref] ++ slots)
/-- What a block with these operands sees. -/
def binOf (dty : Nat) (ins : List Word) : BIn :=
  { t := 1, d := 0, dty := dty, iref := 0x1000, dt := 0, ins := ins, inst := [], nout := 2, tabs := [], konst := fun _ => 0
    mb := [], rep := 0 }
/-- P3 takes no pause frame. -/
theorem p3Takes_pause (s : State) (x : Nat) (f : EthFrame) (h : f.body = .pause) : s.p3Takes x f = false := by
  simp [State.p3Takes, h]
/-- P3 takes a PD frame of a known ComId sent to it by either address. -/
theorem p3Takes_pd (s : State) (x : Nat) (f : EthFrame) (d : PdFrame) (h : f.body = .pd d) (h1 : s.ipAddr x ≠ 0)
    (h2 : s.groupKnown f.dst = true) (h3 : d.msgType = 0x5064) (h4 : (s.subOf d.comId).isSome = true) (h5 : d.dstPort = pdPort) :
    s.p3Takes x f = true := by
  have g : s.p3Addr x f = true := by
    unfold State.p3Addr
    split
    · exact bne_iff_ne.mpr h1
    · simp [h2]
  simp [State.p3Takes, h, g, h3, h4, h5]
/-- A booted module in STOP whose MB16 shows a request of `len` bytes with these header words, both kinds of session allowed. -/
def updState (len op sess a0 a1 a2 : Nat) : State :=
  let s := (stopd.modChan 16 fun c => { c with ab := [⟨0, [wd (0x1000 + 0x1000000 * (len % 256)), wd (len / 256 + 0x50000)]⟩] })
  let s := s.wr Reg.updCtrl 3
  { s with notice := [op, sess, a0, a1, a2].zipIdx.foldl (fun m p => m.writeWord ramFill (0x1000 + 4 * p.2) (wd p.1)) s.notice }
/-- The request of `updState`. -/
def updReqOf (len op sess a0 a1 a2 : Nat) : Req := ⟨0x1000, len, 5, wd op, wd sess, wd a0, wd a1, wd a2⟩
/-- A heartbeat of an ACTIVE unit with image identity `x`. -/
def idFrame (x : Word) : TwinFrame := ⟨BitVec.ofNat 128 (x.toNat * 2 ^ 96 + 0x201), true⟩
theorem idFrame_reads (x : Word) :
    twNum (idFrame x) 0 1 = 1 ∧ twNum (idFrame x) 1 1 % 8 = 2 ∧ wd (twNum (idFrame x) 12 4) = x := by
  have h := x.isLt
  refine ⟨?_, ?_, ?_⟩
  · simp [twNum, idFrame, fld]; omega
  · simp [twNum, idFrame, fld]; omega
  · apply BitVec.eq_of_toNat_eq
    simp [twNum, idFrame, fld, wd]; omega
/-- The command answers a next state. -/
def isNext (a : Answer) : Bool := match a with
  | .next _ => true
  | .fault _ => false
  | .refused _ => false
/-- Three lanes that receive one twin frame agree on it. -/
theorem twinMaj_same (l : Lanes) (f : TwinFrame) : l.twinMaj ⟨f, f, f⟩ = f := by
  simp [Lanes.twinMaj, maj3]
theorem idFrame_other (x : Word) : wd (twNum (idFrame (x + 1)) 12 4) ≠ x := by
  rw [(idFrame_reads _).2.2]
  bv_omega

/-- Each check of WellFormed refuses an ill-formed command, and lets a well-formed one through. -/
theorem test_wf_regWrite : (Instr.regWrite .pf0 0 3 0).wellFormed = false ∧ (Instr.regWrite .pf0 0xffffc 8 0).wellFormed = false ∧
    (Instr.regWrite .pf0 0 4 0).wellFormed = true := by decide
theorem test_wf_atomic : (Instr.atomicOp .pf0 ⟨.swap, 16, true, 0, 0, 0⟩).wellFormed = false ∧
    (Instr.atomicOp .pf0 ⟨.cas, 16, true, 0, 0, 0⟩).wellFormed = true := by decide
theorem test_wf_notice : (Instr.noticeSramWrite .pf0 0 []).wellFormed = false ∧
    (Instr.noticeSramWrite .pf0 0xffffff [1, 2]).wellFormed = false ∧
    (Instr.noticeSramWrite .pf0 0xfffffe [1, 2]).wellFormed = true := by decide
theorem test_wf_eth : (Instr.p3FrameRx .a ⟨0, 0, none, 0, true, .other 0x0800 [1]⟩).wellFormed = false ∧
    (Instr.switchFrameRx .a 0 ⟨0, 0, none, 0, true, .other 0x0800 [1]⟩).wellFormed = false ∧
    (Instr.switchFrameRx .a 0 ⟨0, 0, none, 64, true, .other 0x0800 [1]⟩).wellFormed = true := by decide
theorem test_wf_can : (Instr.canFrameRx 0 ⟨false, false, false, false, false, 0x800, []⟩).wellFormed = false ∧
    (Instr.canFrameRx 0 ⟨false, false, true, false, false, 1, []⟩).wellFormed = false ∧
    (Instr.canFrameRx 0 ⟨false, false, false, true, false, 1, []⟩).wellFormed = false ∧
    (Instr.canFrameRx 0 ⟨false, true, false, false, true, 1, []⟩).wellFormed = false ∧
    (Instr.canFrameRx 0 ⟨false, true, false, false, false, 1, List.replicate 9 0⟩).wellFormed = false ∧
    (Instr.canFrameRx 0 ⟨false, true, true, true, false, 1, List.replicate 12 0⟩).wellFormed = true := by decide
theorem test_wf_celsius : (Instr.governorTempSample 128 0).wellFormed = false ∧
    (Instr.governorTempSample 0 (-129)).wellFormed = false ∧ (Instr.governorTempSample (-40) 85).wellFormed = true := by decide
theorem test_wf_round : (Instr.conversionRound ⟨[], 0⟩).wellFormed = false ∧
    (Instr.conversionRound ⟨List.replicate 16 0, 0⟩).wellFormed = true := by decide
theorem test_wf_canErr : (Instr.canBusError 0 ⟨9, 0⟩).wellFormed = false ∧ (Instr.canBusError 0 ⟨0, 9⟩).wellFormed = false ∧
    (Instr.canBusError 0 ⟨8, 0⟩).wellFormed = true := by decide
theorem test_wf_mvb : (Instr.mvbSlaveFrame .a 0 [1]).wellFormed = false := by decide
theorem test_wf_ptp : (Instr.ptpPdelayRx ⟨.a, 0, 0, 0, 0⟩ .sync 0 0).wellFormed = false ∧
    (Instr.ptpPdelayRx ⟨.a, 0, 0, 0, 0⟩ .pdelayReq 0 0).wellFormed = true := by decide
/-- No row of the table gives a bit, so no word spells a command and the queue stands. -/
theorem test_decode : decodeTableWord 32 0xffffffff = none ∧ State.reset.withFetchWord 8 0 = State.reset := by decide
/-- RSTCAUSE after a power-up (R23), and the page header of page 0 (R36). -/
theorem test_reset : State.reset.readReg 0x30 = 1 ∧ State.reset.readReg 0x00000 = 0x53590001 ∧
    State.reset.canonical := by decide +kernel

/-- The lanterns (R504): the LED test of BOOT, STOP with nothing in use, SAFE, and no supply. -/
theorem test_lanterns : (State.reset.ledState, State.reset.ledTwin) = (.amber, .amber) ∧
    (stopd.ledState, stopd.ledField, stopd.ledNet, stopd.ledTwin) = (.greenBlink1, .dark, .red, .dark) ∧
    { stopd with mstate := .safe }.ledState = .red ∧ { stopd with supply := .off }.ledState = .dark := by decide +kernel


theorem test_w_SupplyAndResetCommandsComplete_1 :
    let s : State := { live with supply := .off }
    let t := after (exec .mainSupplyUp s) s
    (s.supply = .off) ∧ (s.dorm.path = true) ∧ (t.supply = .good) ∧ (t.mstate = .boot) ∧ (t.bootPh = .clocks) ∧
      (t.rd Reg.sysRstcause = 1) := by decide +kernel
theorem test_w_SupplyAndResetCommandsComplete_2 :
    let s : State := { live with supply := .off, dorm := { Dormouse.new with path := false } }
    let t := after (exec .mainSupplyUp s) s
    (s.supply = .off) ∧ (s.dorm.path = false) ∧ (t.supply = .good) := by decide +kernel
theorem test_w_SupplyAndResetCommandsComplete_3 :
    let s : State := { live with supply := .failed }
    let t := after (exec .mainSupplyUp s) s
    (s.supply ≠ .off) ∧ (t.supplyBack = true) := by decide +kernel
theorem test_w_SupplyAndResetCommandsComplete_4 :
    let s : State := live
    let t := after (exec .rstNAssert s) s
    (s.supply ≠ .off) ∧ (s.asleep = false) ∧ (s.resetting = none) ∧ (s.rstLow = false) ∧
      (t.resetting = some .contact) ∧ (t.sett.stopped = true) := by decide +kernel
theorem test_w_SupplyAndResetCommandsComplete_5 :
    let s : State := { live with pstate := .slumber }
    let t := after (exec .rstNAssert s) s
    (s.supply = .off ∨ s.asleep = true ∨ s.resetting ≠ none ∨ s.rstLow = true) ∧ (t.rstLow = true) := by decide +kernel
theorem test_w_SupplyAndResetCommandsComplete_6 :
    let s : State := { State.reset with rstLow := true }
    let t := after (exec .rstNRelease s) s
    (s.supply ≠ .off) ∧ (s.rstLow = true) ∧ (s.resetting = none) ∧ (s.mstate = .boot) ∧ (s.bootPh = .clocks) ∧
      (t.rstLow = false) ∧ (t.mstate = .boot) ∧ (t.now = s.rtc.time) := by decide +kernel
theorem test_w_SupplyAndResetCommandsComplete_7 :
    let s : State := { live with rstLow := true, resetting := some .contact }
    let t := after (exec .rstNRelease s) s
    (s.resetting ≠ none ∨ s.supply = .off ∨ s.rstLow = false) ∧ (t.rstLow = false) := by decide +kernel
theorem test_w_SupplyAndResetCommandsComplete_8 :
    let s : State := live
    let t := after (exec (.resetRequest .pf0 0x5a5a) s) s
    (s.booted = true) ∧ (t.resetting = some .request) ∧ (t.sett.stopped = true) := by decide +kernel
theorem test_w_SupplyAndResetCommandsComplete_9 :
    let s : State := live
    let pf : Pf := .pf1
    let v : Word := 0x5a5a
    let t := after (exec (.resetRequest pf v) s) s
    (s.booted = true) ∧ (pf = .pf1 ∨ v ≠ 0x5a5a) ∧ (t.rd 0x10 = 0x40000000) := by decide +kernel
theorem test_w_SupplyAndResetCommandsComplete_10 :
    let s : State := State.reset
    let pf : Pf := .pf0
    let v : Word := 0x5a5a
    (s.booted = false) := by decide +kernel
theorem test_w_SupplyAndResetCommandsComplete_11 :
    let s : State := { live with resetting := some .request }
    let k : ResetCause := .request
    let t := after (exec .resetRingWritten s) s
    (s.resetting = some k) ∧ (s.supply ≠ .off) ∧ (t.mstate = .boot) ∧ (t.bootPh = .clocks) ∧ (t.resetting = none) ∧
      (t.rd Reg.sysRstcause = k.word) := by decide +kernel
theorem test_w_SupplyAndResetCommandsComplete_12 :
    let s : State := live
    (s.resetting = none ∨ s.supply = .off) := by decide +kernel
theorem test_w_SupplyAndResetCommandsComplete_13 :
    let s : State := live
    let t := after (exec .supplyFail s) s
    (s.supply = .good) ∧ (s.asleep = false) ∧ (t.supply = .failed) ∧ (t.sett.stopped = true) := by decide +kernel
theorem test_w_SupplyAndResetCommandsComplete_14 :
    let s : State := { live with pstate := .hibernate }
    let t := after (exec .supplyFail s) s
    (s.supply = .good) ∧ (s.asleep = true) ∧ (t.supply = .failed) := by decide +kernel
theorem test_w_SupplyAndResetCommandsComplete_15 :
    let s : State := { live with supply := .failed }
    (s.supply ≠ .good) := by decide +kernel
theorem test_w_SupplyAndResetCommandsComplete_16 :
    let s : State := { live with supply := .failed }
    let t := after (exec .mainRailsFall s) s
    (s.supply = .failed) ∧ (s.supplyBack = false) ∧ (t.supply = .off) ∧ (t.resetting = none) ∧
      (∀ g : Fin 4, (t.fside[g]).on = 0 ∧ (t.fside[g]).gsw = false) := by decide +kernel
theorem test_w_SupplyAndResetCommandsComplete_17 :
    let s : State := { live with supply := .failed, supplyBack := true, pstate := .slumber }
    let t := after (exec .mainRailsFall s) s
    (s.supply = .failed) ∧ (s.supplyBack = true) ∧ (s.dorm.path = true) ∧ (s.asleep = true) ∧ (t.supply = .good) ∧
      (t.mstate = .boot) ∧ (t.rd Reg.sysRstcause = 1) := by decide +kernel
theorem test_w_SupplyAndResetCommandsComplete_18 :
    let s : State := live
    (s.supply ≠ .failed) := by decide +kernel
theorem test_w_BootPhasesComplete_1 :
    let s : State := State.reset
    let r : ClockUp := ⟨true, false, true⟩
    let t := after (exec (.bootClocksDone r) s) s
    (s.inBoot .clocks = true) ∧ (r.tcxo = true) ∧ ((r.pllA || r.pllB) = true) ∧ (s.regsOk) ∧ (t.bootPh = .tests) ∧
      (t.mstate = .boot) ∧ (bit (t.rd Reg.clkStat) 8 = true) ∧ (bit (t.rd Reg.clkStat) 0 = true) := by decide +kernel
theorem test_w_BootPhasesComplete_2 :
    let s : State := State.reset
    let r : ClockUp := ⟨true, false, false⟩
    let t := after (exec (.bootClocksDone r) s) s
    (s.inBoot .clocks = true) ∧ (r.tcxo = false ∨ (r.pllA = false ∧ r.pllB = false)) ∧ (t.safeLatch = true) := by decide +kernel
theorem test_w_BootPhasesComplete_3 :
    let s : State := live
    let r : ClockUp := ⟨true, true, true⟩
    (s.inBoot .clocks = false) := by decide +kernel
theorem test_w_BootPhasesComplete_4 :
    let s : State := { State.reset with bootPh := .tests }
    let t := after (exec (.selfTestsDone ⟨0, none, true, true⟩) s) s
    (s.inBoot .tests = true) ∧ (s.safeLatch = false) ∧ (t.bootPh = .addressing) ∧ (t.chain.from' = s.now) := by decide +kernel
theorem test_w_BootPhasesComplete_5 :
    let s : State := { State.reset with bootPh := .tests }
    let r : SelfTest := ⟨2, none, true, true⟩
    let t := after (exec (.selfTestsDone r) s) s
    (s.inBoot .tests = true) ∧ (r.lanes ≠ 0 ∨ r.line ≠ none ∨ r.voter = false ∨ r.dec = false) ∧ (t.safeLatch = true) := by decide +kernel
theorem test_w_BootPhasesComplete_6 :
    let s : State := live
    let r : SelfTest := ⟨0, none, true, true⟩
    (s.inBoot .tests = false) := by decide +kernel
theorem test_w_BootPhasesComplete_7 :
    let s : State := { State.reset with bootPh := .addressing, chain := { Chain.reset with agreed := some 3 } }
    let c : Nat := 3
    let t := after (exec (.addressingDone true) s) s
    (s.inBoot .addressing = true) ∧ (s.chain.agreed = some c) ∧ (c < 16) ∧ (s.regsOk) ∧ (t.bootPh = .image) ∧
      (t.pos = c + 1) := by decide +kernel
theorem test_w_BootPhasesComplete_8 :
    let s : State := { State.reset with bootPh := .addressing, now := 20000000 }
    let t := after (exec (.addressingDone false) s) s
    (s.inBoot .addressing = true) ∧ (s.addrDue false = true) ∧ (s.regsOk) ∧ (t.bootPh = .image) ∧ (t.pos = 1) ∧
      (bit (t.rd Reg.chnPos) 8 = true) := by decide +kernel
theorem test_w_BootPhasesComplete_9 :
    let s : State := { State.reset with bootPh := .addressing, now := 340000000 }
    let t := after (exec (.addressingDone true) s) s
    (s.inBoot .addressing = true) ∧ (s.addrDue true = true) ∧ (∀ c, s.chain.agreed = some c → 16 ≤ c) ∧ (s.regsOk) ∧
      (t.bootPh = .image) ∧ (t.pos = 0) := by decide +kernel
theorem test_w_BootPhasesComplete_10 :
    let s : State := live
    let present : Bool := true
    (s.inBoot .addressing = false ∨ s.addrDue present = false) := by decide +kernel
theorem test_w_BootPhasesComplete_11 :
    let s : State := live
    let flashOk : Bool := true
    let otpOk : Bool := true
    (s.inBoot .image = false) := by decide +kernel
theorem test_w_BootPhasesComplete_12 :
    let s : State := { State.reset with bootPh := .image }
    let otpOk : Bool := true
    let t := after (exec (.imageLoadDone false otpOk) s) s
    (s.inBoot .image = true) ∧ (t.mstate = .bare) ∧ (t.bootPh = .ended) := by decide +kernel
theorem test_w_BootPhasesComplete_13 :
    let s : State := { State.reset with bootPh := .image }
    let otpOk : Bool := true
    let u : State := (s.showJournal.storeCheck otpOk).1
    let r : Option Nat := (s.showJournal.storeCheck otpOk).2
    let t := after (exec (.imageLoadDone true otpOk) s) s
    (s.inBoot .image = true) ∧ (s.showJournal.storeCheck otpOk = (u, r)) ∧ (t.mstate = .bare ∧ t.bootPh = .ended) := by decide +kernel
theorem test_w_ChainTrainsComplete_1 :
    let s : State := live.wr Reg.chnPos 2
    let t := after (exec .chainTrainSend s) s
    (s.alive = true) ∧ (s.bootPh = .image ∨ s.bootPh = .ended) ∧ (1 ≤ s.pos) ∧ (∀ t, s.chain.sentAt = some t →
      t + 10000000 ≤ s.now) ∧ (t.outbox = [.train 2]) ∧ (t.chain.sentAt = some s.now) := by refine ⟨?_, ?_, ?_, ?_, ?_⟩ <;> first | decide +kernel | (intro t h; cases h)
theorem test_w_ChainTrainsComplete_2 :
    let s : State := live
    (s.alive = false ∨ s.pos = 0 ∨ (∃ t, s.chain.sentAt = some t ∧ s.now < t + 10000000) ∨ (s.bootPh ≠ .image ∧
        s.bootPh ≠ .ended)) := by exact .inr (.inl (by decide +kernel))
theorem test_w_ChainTrainsComplete_3 :
    let s : State := live
    let pa : Nat := 3
    let pb : Nat := 3
    let pc : Nat := 4
    let n : Nat := 3
    let valid : Bool := true
    let t := after (exec (.chainTrainRx pa valid pb pc) s) s
    (s.alive = true) ∧ (s.bootPh ≠ .clocks) ∧ (((s.lanes.agree (wd pa) (wd pb) (wd pc)).1).toNat = n) ∧ (n ≠ 0) ∧
      (s.regsOk) ∧ (t.chain.present = true) ∧ (t.chain.last = if valid then some n else none) ∧
      (t.rd Reg.chnTrains = wd (min n 16 + 0x10000 * ((fld (s.rd Reg.chnTrains) 16 16 + 1) % 65536))) := by decide +kernel
theorem test_w_ChainTrainsComplete_4 :
    let s : State := { live.wr Reg.chnPos 2 with chain := { Chain.reset with last := some 5 } }
    let pa : Nat := 5
    let pb : Nat := 5
    let pc : Nat := 5
    let n : Nat := 5
    let t := after (exec (.chainTrainRx pa true pb pc) s) s
    (s.alive = true) ∧ (s.bootPh = .ended) ∧ (((s.lanes.agree (wd pa) (wd pb) (wd pc)).1).toNat = n) ∧ (1 ≤ n) ∧
      (s.chain.last = some n) ∧ (n + 1 ≠ s.pos) ∧ (t.chain.shown = some (wd n)) := by decide +kernel
theorem test_w_ChainTrainsComplete_5 :
    let s : State := { live.wr Reg.chnPos 2 with chain := { Chain.reset with last := some 1 } }
    let pa : Nat := 1
    let pb : Nat := 1
    let pc : Nat := 1
    let n : Nat := 1
    let t := after (exec (.chainTrainRx pa true pb pc) s) s
    (s.alive = true) ∧ (s.bootPh = .ended) ∧ (((s.lanes.agree (wd pa) (wd pb) (wd pc)).1).toNat = n) ∧ (1 ≤ n) ∧
      (s.chain.last = some n) ∧ (n + 1 = s.pos) ∧ (s.regsOk) ∧ (t.chain.shown = none) := by decide +kernel
theorem test_w_ChainTrainsComplete_6 :
    let s : State := { State.reset with bootPh := .addressing, chain := { Chain.reset with last := some 5 } }
    let pa : Nat := 5
    let pb : Nat := 5
    let pc : Nat := 5
    let n : Nat := 5
    let t := after (exec (.chainTrainRx pa true pb pc) s) s
    (s.alive = true) ∧ (s.bootPh = .addressing) ∧ (((s.lanes.agree (wd pa) (wd pb) (wd pc)).1).toNat = n) ∧ (1 ≤ n) ∧
      (s.chain.last = some n) ∧ (t.chain.agreed = some n) := by decide +kernel
theorem test_w_ChainTrainsComplete_7 :
    let s : State := State.reset
    let pa : Nat := 1
    let pb : Nat := 1
    let pc : Nat := 1
    let valid : Bool := true
    (s.alive = false ∨ s.bootPh = .clocks ∨ ((s.lanes.agree (wd pa) (wd pb) (wd pc)).1).toNat = 0) := by decide +kernel
theorem test_w_ChainTrainsComplete_8 :
    let s : State := live.wr Reg.chnPos 2
    let t := after (exec .chainAbsentTimeout s) s
    (s.alive = true) ∧ (s.bootPh = .ended) ∧ (1 < s.pos) ∧ (s.chain.shown ≠ some 0xffffffff) ∧ (s.regsOk) ∧
      (t.chain.shown = some 0xffffffff) ∧ (t.chain.present = false) ∧ (t.rd Reg.chnEvtRaw = s.rd Reg.chnEvtRaw ||| 4) := by decide +kernel
theorem test_w_ChainTrainsComplete_9 :
    let s : State := live
    let t := after (exec .chainAbsentTimeout s) s
    (s.alive = true) ∧ (s.bootPh ≠ .ended ∨ s.pos ≤ 1) ∧ (t.chain.present = false) := by decide +kernel
theorem test_w_ChainTrainsComplete_10 :
    let s : State := { live with supply := .off }
    (s.alive = false) := by decide +kernel
theorem test_w_SleepAndDormouseComplete_1 :
    let s : State := { live.wr Reg.pwrCtrl 0xc with mstate := .bare }
    let t := after (exec (.slumberRequest .pf0) s) s
    (s.booted = true) ∧ (s.sleepRefusal false = none) ∧ (t.pow.sleep = some false) := by decide +kernel
theorem test_w_SleepAndDormouseComplete_2 :
    let s : State := live
    let r : Word := 1
    let t := after (exec (.slumberRequest .pf0) s) s
    (s.booted = true) ∧ (s.sleepRefusal false = some r) ∧ (s.regsOk) ∧ (t.rd Reg.pwrSlpstat = 1) := by decide +kernel
theorem test_w_SleepAndDormouseComplete_3 :
    let s : State := live
    let pf : Pf := .pf1
    let t := after (exec (.slumberRequest pf) s) s
    (s.booted = false ∨ pf = .pf1) ∧ (t.rd 0x10 = 0x40000000) := by decide +kernel
theorem test_w_SleepAndDormouseComplete_4 :
    let s : State := live
    let r : Word := 1
    let t := after (exec (.hibernateRequest .pf0) s) s
    (s.booted = true) ∧ (s.sleepRefusal true = some r) ∧ (s.regsOk) ∧ (t.rd Reg.pwrSlpstat = 1) := by decide +kernel
theorem test_w_SleepAndDormouseComplete_5 :
    let s : State := live
    let pf : Pf := .pf1
    let t := after (exec (.hibernateRequest pf) s) s
    (s.booted = false ∨ pf = .pf1) ∧ (t.rd 0x10 = 0x40000000) := by decide +kernel
theorem test_w_SleepAndDormouseComplete_6 :
    let s : State := { (live.wr Reg.pwrCtrl 0xc).wr Reg.pwrWakecode 0x123456 with mstate := .bare }
    let t := after (exec (.hibernateRequest .pf0) s) s
    (s.booted = true) ∧ (s.sleepRefusal true = none) ∧ (t.pow.sleep = some true) := by decide +kernel
theorem test_w_SleepAndDormouseComplete_7 :
    let s : State := { live with pow := { Pow.reset with sleep := some true } }
    let hib : Bool := true
    let t := after (exec .sleepRingWritten s) s
    (s.alive = true) ∧ (s.pow.sleep = some hib) ∧ (t.pstate = .hibernate) ∧ (t.pow.sleep = none) ∧
      (t.rtc.hib = hib) ∧ (t.dorm.path = false) := by decide +kernel
theorem test_w_SleepAndDormouseComplete_8 :
    let s : State := live
    (s.alive = false ∨ s.pow.sleep = none) := by decide +kernel
theorem test_w_SleepAndDormouseComplete_9 :
    let s : State := { live with pow := { Pow.reset with sleep := some false } }
    let k : WakeCause := .resetContact
    let t := after (exec (.slumberWake k) s) s
    (s.wakes k = true) ∧ (s.alive = true) ∧ (s.pow.sleep = some false) ∧ (t.mstate = .boot) ∧
      (t.rd Reg.sysRstcause = 8) := by decide +kernel
theorem test_w_SleepAndDormouseComplete_10 :
    let s : State := { live.wr Reg.pwrWakecode 5 with pow := { Pow.reset with sleep := some true } }
    let t := after (exec (.slumberWake .code) s) s
    (s.wakes .code = true) ∧ (s.alive = true) ∧ (s.pow.sleep = some true) ∧ (t.mstate = .boot) ∧
      (t.rd Reg.sysRstcause = 16) := by decide +kernel
theorem test_w_SleepAndDormouseComplete_11 :
    let s : State := live
    let k : WakeCause := .resetContact
    (s.supply = .off ∨ s.wakes k = false ∨ (s.pstate ≠ .slumber ∧ (s.alive = false ∨ s.pow.sleep = none ∨
        (s.pow.sleep = some true ∧ k ≠ .code)))) := by decide +kernel
theorem test_w_SleepAndDormouseComplete_12 :
    let s : State := { live with pstate := .slumber }
    let k : WakeCause := .resetContact
    let t := after (exec (.slumberWake k) s) s
    (s.supply ≠ .off) ∧ (s.wakes k = true) ∧ (s.pstate = .slumber) ∧ (t.mstate = .boot) ∧ (t.rd Reg.sysRstcause = 8) := by decide +kernel
theorem test_w_SleepAndDormouseComplete_13 :
    let s : State := live
    let t := after (exec .wakeFallingEdge s) s
    (t.dorm.delay = true) ∧ (t.dorm.low = true) ∧ (t.dorm.reg = s.dorm.reg) := by decide +kernel
theorem test_w_SleepAndDormouseComplete_14 :
    let s : State := { live with pstate := .hibernate, dorm := ⟨0x000005, 0x000002, true, true, false⟩ }
    let low : Bool := true
    let t := after (exec (.dormouseDelayEnd low) s) s
    (s.dorm.delay = true) ∧ (s.dorm.code ≠ 0) ∧ ((s.dorm.reg <<< 1) ||| BitVec.ofNat 24 (b2n low) = s.dorm.code) ∧
      (s.dorm.path = false) ∧ (s.supply = .good) ∧ (s.pstate = .hibernate) ∧ (t.mstate = .boot) ∧
      (t.rd Reg.sysRstcause = 16) ∧ (t.dorm.path = true) ∧ (t.dorm.reg = s.dorm.code) := by decide +kernel
theorem test_w_SleepAndDormouseComplete_15 :
    let s : State := { live with dorm := ⟨5, 2, true, true, true⟩ }
    let low : Bool := false
    let t := after (exec (.dormouseDelayEnd low) s) s
    (s.dorm.delay = true) ∧ (s.dorm.path = true) ∧ (t.dorm.reg = 4) := by decide +kernel
theorem test_w_SleepAndDormouseComplete_16 :
    let s : State := { live with dorm := ⟨5, 2, true, true, false⟩ }
    let low : Bool := false
    let t := after (exec (.dormouseDelayEnd low) s) s
    (s.dorm.delay = true) ∧ (s.dorm.code = 0 ∨ (s.dorm.reg <<< 1) ||| BitVec.ofNat 24 (b2n low) ≠ s.dorm.code) ∧
      (t.dorm.reg = 4) := by decide +kernel
theorem test_w_SleepAndDormouseComplete_17 :
    let s : State := { live with dorm := ⟨0x000005, 0x000002, true, true, false⟩ }
    let low : Bool := true
    let t := after (exec (.dormouseDelayEnd low) s) s
    (s.dorm.delay = true) ∧ (s.dorm.code ≠ 0) ∧ ((s.dorm.reg <<< 1) ||| BitVec.ofNat 24 (b2n low) = s.dorm.code) ∧
      (s.dorm.path = false) ∧ (s.supply ≠ .good ∨ s.pstate ≠ .hibernate) ∧ (t.dorm.path = true) := by decide +kernel
theorem test_w_SleepAndDormouseComplete_18 :
    let s : State := live
    let low : Bool := true
    (s.dorm.delay = false) := by decide +kernel
theorem test_w_SleepAndDormouseComplete_19 :
    let s : State := live
    let t := after (exec .dormouseQuietClear s) s
    (t.dorm.reg = 0) ∧ (t.dorm.code = s.dorm.code) ∧ (t.dorm.path = s.dorm.path) := by decide +kernel
theorem test_w_HostWritesToRegisters_1 :
    let s : State := live
    let pf : Pf := .pf1
    let a : BitVec 20 := 0x30100
    let v : Word := 8
    let d : RegDef := (regDef 0x30100).getD ⟨0, 0, 0, 0, 0, .ro, 0, 0⟩
    let t := after (exec (.regWrite pf a 4 (v.zeroExtend 64)) s) s
    (s.booted = true) ∧ (a.toNat % 4 = 0) ∧ (regDef a.toNat = some d) ∧ (s.writeBarred pf a.toNat v d.acc = true) ∧
      (t.rd 0x30010 = 0x40000000) := by decide +kernel
theorem test_w_HostWritesToRegisters_2 :
    let s : State := live
    let pf : Pf := .pf0
    let a : BitVec 20 := 0x300f0
    let v : Dword := 1
    let size : Nat := 4
    let t := after (exec (.regWrite pf a size v) s) s
    (s.booted = true) ∧ (a.toNat % 4 = 0) ∧ (size = 4) ∧ (regDef a.toNat = none) ∧ (t.regs = s.regs) := by decide +kernel
theorem test_w_HostWritesToRegisters_3 :
    let s : State := live
    let pf : Pf := .pf0
    let a : BitVec 20 := 0x30102
    let v : Dword := 1
    let size : Nat := 2
    let d : RegDef := (regDef 0x30100).getD ⟨0, 0, 0, 0, 0, .ro, 0, 0⟩
    let t := after (exec (.regWrite pf a size v) s) s
    (s.booted = true) ∧ (size < 4) ∧ (regDef (a.toNat - a.toNat % 4) = some d) ∧ (t.rd 0x30010 = 0x40000000) := by decide +kernel
theorem test_w_HostWritesToRegisters_4 :
    let s : State := live.wr 0x34010 7
    let a : BitVec 20 := 0x34010
    let v : Word := 5
    let d : RegDef := (regDef 0x34010).getD ⟨0, 0, 0, 0, 0, .ro, 0, 0⟩
    let t := after (exec (.regWrite .pf0 a 4 (v.zeroExtend 64)) s) s
    (a.toNat % 0x1000 = 0x10) ∧ (regDef a.toNat = some d) ∧ (d.acc = .w1c) ∧ (s.allowsWrite .pf0 a.toNat v = true) ∧
      (s.regsOk) ∧ (t.rd 0x34010 = 2) := by decide +kernel
theorem test_w_HostWritesToRegisters_5 :
    let s : State := live
    let a : BitVec 20 := 0x34014
    let v : Word := 5
    let d : RegDef := (regDef 0x34014).getD ⟨0, 0, 0, 0, 0, .ro, 0, 0⟩
    let t := after (exec (.regWrite .pf0 a 4 (v.zeroExtend 64)) s) s
    (a.toNat % 0x1000 = 0x14) ∧ (a.toNat / 0x1000 ≠ 0x31) ∧ (regDef a.toNat = some d) ∧ (d.acc = .rw) ∧
      (s.allowsWrite .pf0 a.toNat v = true) ∧ (s.regsOk) ∧ (t.rd 0x34014 = 5) := by decide +kernel
theorem test_w_HostWritesToRegisters_6 :
    let s : State := State.reset
    let pf : Pf := .pf0
    let a : BitVec 20 := 0x34010
    let v : Dword := 1
    let size : Nat := 4
    (s.booted = false) := by decide +kernel
theorem test_w_HostWritesToRegisters_7 :
    let s : State := live
    let i : Instr := .settSealCmd .pf0
    let pf : Pf := .pf0
    let a : Nat := Reg.settCmd
    let v : Word := 1
    (s.hostTarget i = some (pf, a, v)) ∧ (s.hostTarget i = some (pf, a, v)) := by decide +kernel
theorem test_w_HostWritesToRegisters_8 :
    let s : State := live
    let i : Instr := .settSealCmd .pf1
    let pf : Pf := .pf1
    let a : Nat := Reg.settCmd
    let v : Word := 1
    let d : RegDef := (regDef Reg.settCmd).getD ⟨0, 0, 0, 0, 0, .ro, 0, 0⟩
    (s.hostTarget i = some (pf, a, v)) ∧ (s.booted = true) ∧ (regDef a = some d) ∧
      (s.writeBarred pf a v d.acc = true) ∧ (s.hostTarget i = some (pf, a, v)) ∧ (s.writeBarred pf a v d.acc = true) := by decide +kernel
theorem test_w_HostWritesToRegisters_9 :
    let s : State := live
    let p : Byte := 0x38
    let d : RegDef := (regDef 0x3801c).getD ⟨0, 0, 0, 0, 0, .ro, 0, 0⟩
    let t := after (exec (.pageLock .pf0 p 0x4c4f434b) s) s
    (regDef (p.toNat * 0x1000 + 0x1c) = some d) ∧ (d.mask = 0xffffffff) ∧
      (s.allowsWrite .pf0 (p.toNat * 0x1000 + 0x1c) 0x4c4f434b = true) ∧ (s.regsOk) ∧ (t.locked p.toNat = true) := by decide +kernel
theorem test_w_HostWritesToRegisters_10 :
    let s : State := live
    let p : Byte := 0x38
    let v : Word := 1
    let d : RegDef := (regDef 0x3801c).getD ⟨0, 0, 0, 0, 0, .ro, 0, 0⟩
    let t := after (exec (.pageLock .pf0 p v) s) s
    (regDef (p.toNat * 0x1000 + 0x1c) = some d) ∧ (d.mask = 0xffffffff) ∧
      (s.allowsWrite .pf0 (p.toNat * 0x1000 + 0x1c) v = true) ∧ (v ≠ 0x4c4f434b) ∧ (t.locked 0x38 = false) := by decide +kernel
theorem test_w_WindowAndSharedMemoryCommands_1 :
    let s : State := live
    let w : Win := .trd
    let pf : Pf := .pf0
    let v : Word := 0x10005
    let d : RegDef := (regDef 0x22040).getD ⟨0, 0, 0, 0, 0, .ro, 0, 0⟩
    let t := after (exec (.winSelect w pf v) s) s
    (regDef (winDef w).idx = some d) ∧ (v &&& d.mask = v) ∧ (s.allowsWrite pf (winDef w).idx v = true) ∧
      (winTable w v = 5 ∨ winEntry w v < tableSize (winTable w v)) ∧ (s.regsOk) ∧ (t.rd Reg.trdWinIdx = v) ∧
      (t.rd Reg.trdWinStat = 1) := by decide +kernel
theorem test_w_WindowAndSharedMemoryCommands_2 :
    let s : State := live
    let w : Win := .trd
    let pf : Pf := .pf0
    let v : Word := 0x7ff
    let d : RegDef := (regDef 0x22040).getD ⟨0, 0, 0, 0, 0, .ro, 0, 0⟩
    let t := after (exec (.winSelect w pf v) s) s
    (regDef (winDef w).idx = some d) ∧ (v &&& d.mask = v) ∧ (s.allowsWrite pf (winDef w).idx v = true) ∧
      (winTable w v ≠ 5) ∧ (tableSize (winTable w v) ≤ winEntry w v) ∧ (t.rd 0x22010 = 0x40000000) := by decide +kernel
theorem test_w_WindowAndSharedMemoryCommands_3 :
    let s : State := live.wr Reg.brgWinStat 1
    let w : Win := .brg
    let t := after (exec (.winSelectDone w) s) s
    (s.alive = true) ∧ (s.rd (winDef w).stat ≠ 0) ∧ (s.regsOk) ∧ (t.rd Reg.brgWinStat = 0) := by decide +kernel
theorem test_w_WindowAndSharedMemoryCommands_4 :
    let s : State := live
    let w : Win := .frc
    (s.alive = false ∨ s.rd (winDef w).stat = 0) := by decide +kernel
theorem test_w_WindowAndSharedMemoryCommands_5 :
    let s : State := (live.wr Reg.frcWinIdx 3).wr (Reg.frcWinData 0) 7
    let t := after (exec (.forceCommit .pf0) s) s
    (s.allowsWrite .pf0 Reg.frcWinCmd 1 = true) ∧ (s.rd Reg.frcWinStat = 0) ∧ (s.stagedForce.en = true →
      s.forceRefused (s.winE .frc) s.stagedForce = false) ∧ (Memory.wf ramFill s.pim = true) ∧
      (t.pimRd (pimForce + 4 * s.winE .frc) = s.rd (Reg.frcWinData 0)) ∧
      (t.pimRd (pimForce + 4 * s.winE .frc + 1) = s.rd (Reg.frcWinData 1) &&& 0x1ffff) ∧
      (t.pimRd (pimForce + 4 * s.winE .frc + 2) = s.rd (Reg.frcWinData 2)) ∧
      (t.pimRd (pimForce + 4 * s.winE .frc + 3) = b2w (s.stagedForce.en && s.forceActs s.stagedForce)) := by decide +kernel
theorem test_w_WindowAndSharedMemoryCommands_6 :
    let s : State := live.wr (Reg.frcWinData 1) 0x10000
    let t := after (exec (.forceCommit .pf0) s) s
    (s.allowsWrite .pf0 Reg.frcWinCmd 1 = true) ∧ (s.rd Reg.frcWinStat = 0) ∧ (s.stagedForce.en = true) ∧
      (s.forceRefused (s.winE .frc) s.stagedForce = true) ∧ (t.rd 0xc010 = 2) := by decide +kernel
theorem test_w_WindowAndSharedMemoryCommands_7 :
    let s : State := live.wr Reg.frcWinStat 1
    let t := after (exec (.forceCommit .pf0) s) s
    (s.allowsWrite .pf0 Reg.frcWinCmd 1 = true) ∧ (s.rd Reg.frcWinStat ≠ 0) ∧ (t.rd 0xc010 = 0x40000000) := by decide +kernel
theorem test_w_WindowAndSharedMemoryCommands_8 :
    let s : State := live
    let t := after (exec (.forceRelease .pf0) s) s
    (s.allowsWrite .pf0 Reg.frcWinCmd 2 = true) ∧ (s.rd Reg.frcWinStat = 0) ∧ (Memory.wf ramFill s.pim = true) ∧
      (∀ j < 4, t.pimRd (pimForce + 4 * s.winE .frc + j) = 0) := by decide +kernel
theorem test_w_WindowAndSharedMemoryCommands_9 :
    let s : State := live.wr Reg.frcWinStat 1
    let t := after (exec (.forceRelease .pf0) s) s
    (s.allowsWrite .pf0 Reg.frcWinCmd 2 = true) ∧ (s.rd Reg.frcWinStat ≠ 0) ∧ (t.rd 0xc010 = 0x40000000) := by decide +kernel
theorem test_w_WindowAndSharedMemoryCommands_10 :
    let s : State := live
    (s.allowsWrite .pf0 Reg.frcRelall 1 = true) ∧ (Memory.wf ramFill s.pim = true) := by decide +kernel
theorem test_w_WindowAndSharedMemoryCommands_11 :
    let s : State := (live.wr (Reg.trdWinData 3) 0x100000).wr (Reg.trdWinData 5) 1000
    let t := after (exec (.trdWinCommit .pf0) s) s
    (s.allowsWrite .pf0 Reg.trdWinCmd 1 = true) ∧ (s.rd Reg.trdWinStat = 0) ∧
      ((s.staged .trd).entryOk (s.winT .trd) (s.winE .trd) = true) ∧ (Store.wf tableReset s.tables = true) ∧
      (t.tbl 0 0 5 = 1000) := by decide +kernel
theorem test_w_WindowAndSharedMemoryCommands_12 :
    let s : State := live.wr Reg.trdWinStat 1
    let t := after (exec (.trdWinCommit .pf0) s) s
    (s.allowsWrite .pf0 Reg.trdWinCmd 1 = true) ∧
      (s.rd Reg.trdWinStat ≠ 0 ∨ (s.staged .trd).entryOk (s.winT .trd) (s.winE .trd) = false) ∧
      (t.rd (0x22 * 0x1000 + 0x10) = 0x40000000) := by decide +kernel
theorem test_w_WindowAndSharedMemoryCommands_13 :
    let s : State := (((((stopd.wr (Reg.twpWinData 0) 1).wr (Reg.twpWinData 2) 0xe0000001).wr (Reg.twpWinData 3) 0xe0000002).wr (Reg.twpWinData 5) 0x10000).wr (Reg.twpWinData 6) 1000)
    let t := after (exec (.twpWinCommit .pf0) s) s
    (s.allowsWrite .pf0 Reg.twpWinCmd 1 = true) ∧ (s.rd Reg.twpWinStat = 0) ∧
      ((s.staged .twp).entryOk (s.winT .twp) (s.winE .twp) = true) ∧ (Store.wf tableReset s.tables = true) ∧
      (t.tbl 2 0 6 = 1000) := by decide +kernel
theorem test_w_WindowAndSharedMemoryCommands_14 :
    let s : State := stopd.wr Reg.twpWinStat 1
    let t := after (exec (.twpWinCommit .pf0) s) s
    (s.allowsWrite .pf0 Reg.twpWinCmd 1 = true) ∧
      (s.rd Reg.twpWinStat ≠ 0 ∨ (s.staged .twp).entryOk (s.winT .twp) (s.winE .twp) = false) ∧
      (t.rd (0x23 * 0x1000 + 0x10) = 0x40000000) := by decide +kernel
theorem test_w_WindowAndSharedMemoryCommands_15 :
    let s : State := live.wr (Reg.brgWinData 1) 5
    let t := after (exec (.brgWinCommit .pf0) s) s
    (s.allowsWrite .pf0 Reg.brgWinCmd 1 = true) ∧ (s.rd Reg.brgWinStat = 0) ∧
      ((s.staged .brg).entryOk (s.winT .brg) (s.winE .brg) = true) ∧ (Store.wf tableReset s.tables = true) ∧
      (t.tbl 4 0 1 = 5) := by decide +kernel
theorem test_w_WindowAndSharedMemoryCommands_16 :
    let s : State := live.wr Reg.brgWinStat 1
    let t := after (exec (.brgWinCommit .pf0) s) s
    (s.allowsWrite .pf0 Reg.brgWinCmd 1 = true) ∧
      (s.rd Reg.brgWinStat ≠ 0 ∨ (s.staged .brg).entryOk (s.winT .brg) (s.winE .brg) = false) ∧
      (t.rd (0x2d * 0x1000 + 0x10) = 0x40000000) := by decide +kernel
theorem test_w_WindowAndSharedMemoryCommands_17 :
    let s : State := live.wr (Reg.mvbWinData 1) 5
    let t := after (exec (.mvbWinCommit .pf0) s) s
    (s.allowsWrite .pf0 Reg.mvbWinCmd 1 = true) ∧ (s.rd Reg.mvbWinStat = 0) ∧
      ((s.staged .mvb).entryOk (s.winT .mvb) (s.winE .mvb) = true) ∧ (Store.wf tableReset s.tables = true) ∧
      (t.tbl 3 0 1 = 5) := by decide +kernel
theorem test_w_WindowAndSharedMemoryCommands_18 :
    let s : State := live.wr Reg.mvbWinStat 1
    let t := after (exec (.mvbWinCommit .pf0) s) s
    (s.allowsWrite .pf0 Reg.mvbWinCmd 1 = true) ∧
      (s.rd Reg.mvbWinStat ≠ 0 ∨ (s.staged .mvb).entryOk (s.winT .mvb) (s.winE .mvb) = false) ∧
      (t.rd (0x2c * 0x1000 + 0x10) = 0x40000000) := by decide +kernel
theorem test_w_WindowAndSharedMemoryCommands_19 :
    let s : State := live
    let k : Fin 32 := 4
    let m : BitVec 4 := 8
    let v : Word := 0x18
    let t := after (exec (.semWrite k m v) s) s
    (s.booted = true) ∧ (m.toNat ∈ [1, 2, 3, 4, 5, 6, 8]) ∧ (s.rd (Reg.hifSem k) = 0) ∧
      (v &&& 0xf = m.zeroExtend 32) ∧ (s.regsOk) ∧ (t.rd (Reg.hifSem 4) = 8) := by decide +kernel
theorem test_w_WindowAndSharedMemoryCommands_20 :
    let s : State := live.wr (Reg.hifSem 4) 1
    let k : Fin 32 := 4
    let m : BitVec 4 := 8
    let v : Word := 0
    let t := after (exec (.semWrite k m v) s) s
    (s.booted = true) ∧ (m.toNat ∈ [1, 2, 3, 4, 5, 6, 8]) ∧ (s.rd (Reg.hifSem k) ≠ 0) ∧
      (s.rd (Reg.hifSem k) ≠ m.zeroExtend 32) ∧ (t.rd (Reg.hifSem 4) = 1) := by decide +kernel
theorem test_w_WindowAndSharedMemoryCommands_21 :
    let s : State := live.wr (Reg.hifSem 4) 8
    let k : Fin 32 := 4
    let m : BitVec 4 := 8
    let v : Word := 0
    let t := after (exec (.semWrite k m v) s) s
    (s.booted = true) ∧ (m.toNat ∈ [1, 2, 3, 4, 5, 6, 8]) ∧ (s.rd (Reg.hifSem k) = m.zeroExtend 32) ∧
      (v &&& 0xf = 0) ∧ (s.regsOk) ∧ (t.rd (Reg.hifSem 4) = 0) := by decide +kernel
theorem test_w_WindowAndSharedMemoryCommands_22 :
    let s : State := live
    let k : Fin 32 := 4
    let m : BitVec 4 := 8
    let v : Word := 3
    (s.booted = true) ∧ (m.toNat ∈ [1, 2, 3, 4, 5, 6, 8]) ∧
      ((s.rd (Reg.hifSem k) = 0 ∧ v &&& 0xf ≠ m.zeroExtend 32) ∨ (s.rd (Reg.hifSem k) = m.zeroExtend 32 ∧ v &&& 0xf ≠
        0)) := by decide +kernel
theorem test_w_WindowAndSharedMemoryCommands_23 :
    let s : State := live
    let k : Fin 32 := 4
    let v : Word := 9
    let t := after (exec (.semWrite k 9 v) s) s
    (s.booted = true) ∧ (t.rd 0x30010 = 0x40000000) := by decide +kernel
theorem test_w_WindowAndSharedMemoryCommands_24 :
    let s : State := live
    let pf : Pf := .pf0
    let r : AtomicReq := ⟨.fetchAdd, 4, true, 0x10, 1, 0⟩
    let t := after (exec (.atomicOp pf r) s) s
    (s.booted = true) ∧ (r.bar2 = true) ∧ (r.width = 4 ∨ r.width = 8) ∧ (r.off.toNat % r.width = 0) ∧
      (r.off.toNat + r.width ≤ 0x800000) ∧ (pf = .pf0 ∨ 0x200000 ≤ r.off.toNat) ∧
      (t.outbox = s.outbox ++ [.atomic pf false (BitVec.ofNat 64 (leNat (s.notice.readBytes ramFill r.off.toNat
        r.width)))]) ∧
      (t.notice = s.notice.writeBytes ramFill r.off.toNat (bytesLE (atomicResult r (BitVec.ofNat 64 (leNat
        (s.notice.readBytes ramFill r.off.toNat r.width)))) r.width)) := by decide +kernel
theorem test_w_WindowAndSharedMemoryCommands_25 :
    let s : State := live
    let pf : Pf := .pf1
    let r : AtomicReq := ⟨.fetchAdd, 4, false, 0x10, 1, 0⟩
    let t := after (exec (.atomicOp pf r) s) s
    (s.booted = true) ∧
      (r.bar2 = false ∨ (r.width ≠ 4 ∧ r.width ≠ 8) ∨ r.off.toNat % r.width ≠ 0 ∨ 0x800000 < r.off.toNat + r.width ∨
        (pf = .pf1 ∧ r.off.toNat < 0x200000)) ∧ (t.outbox = s.outbox ++ [.atomic pf true 0]) ∧ (t.notice = s.notice) := by decide +kernel
theorem test_w_WindowAndSharedMemoryCommands_26 :
    let s : State := live
    let pf : Pf := .pf1
    let off : BitVec 24 := 0x1fffff
    let data : List Byte := [7, 8]
    let t := after (exec (.noticeSramWrite pf off data) s) s
    (s.booted = true) ∧ (Memory.wf ramFill s.notice = true) ∧ (t.notice = [(0x200000, 8)]) := by decide +kernel
theorem test_w_WindowAndSharedMemoryCommands_27 :
    let s : State := State.reset
    let pf : Pf := .pf0
    let off : BitVec 24 := 0x10
    let data : List Byte := [7]
    (s.booted = false) := by decide +kernel
theorem test_w_TriggersAndShadowsComplete_1 :
    let s : State := live.modTask 1 fun k => { k with rec' := ⟨1, 1000, 0, 0, 0, 0, 9⟩ }
    let k : Fin 8 := 1
    let t := after (exec (.taskPeriodicTrigger k) s) s
    (s.twn.role ≠ .standby) ∧ (s.alive = true) ∧ (s.eng.mode = .run) ∧ (s.eng.change = .none) ∧
      ((s.task k).rec'.en = true) ∧ ((s.task k).rec'.trig = 0) ∧ ((s.task k).trig = none) ∧ ((s.task k).grid ≤ s.now) ∧
      ((t.task k).trig = some (s.task k).grid) ∧ ((t.task k).grid = (s.task k).grid + 1000 * (s.task k).rec'.period) ∧
      (∀ j, j ≠ k → t.task j = s.task j) := by decide +kernel
theorem test_w_TriggersAndShadowsComplete_2 :
    let s : State := live
    let k : Fin 8 := 1
    (s.twn.role = .standby ∨ s.alive = false ∨ s.eng.mode ≠ .run ∨ s.eng.change ≠ .none ∨ (s.task k).rec'.en = false
        ∨ (s.task k).rec'.trig ≠ 0 ∨ (s.task k).trig ≠ none ∨ s.now < (s.task k).grid) := by decide +kernel
theorem test_w_TriggersAndShadowsComplete_3 :
    let s : State := live.modTask 1 fun k => { k with rec' := ⟨1, 1000, 0, 400, 0, 0, 9⟩, trig := some 0 }
    let k : Fin 8 := 1
    let ts : Nat := 0
    let t := after (exec .triggerAdmit s) s
    (s.admitAt = some ts) ∧ (k.val < 4) ∧ (s.twn.role ≠ .standby) ∧ ((s.task k).trig = some ts) ∧
      ((s.task k).act = none) ∧ (∀ j, j ≠ k → (s.task j).trig ≠ some ts) ∧
      (((t.task k).act.map fun a => (a.ts, a.tc, a.stage)) = some (0, 400000, .copying)) ∧ ((t.task k).trig = none) := by decide +kernel
theorem test_w_TriggersAndShadowsComplete_4 :
    let s : State := live.modTask 5 fun k => { k with rec' := ⟨1, 1000, 0, 400, 0, 0, 9⟩, trig := some 0 }
    let k : Fin 8 := 5
    let ts : Nat := 0
    let c : Nat := s.peCost (if (s.task k).firstLoad then (s.task k).rec'.wcpe else (s.pimRd (pimSysv k + 5)).toNat)
    let t := after (exec .triggerAdmit s) s
    (s.admitAt = some ts) ∧ (4 ≤ k.val) ∧ (s.twn.role ≠ .standby) ∧ ((s.task k).trig = some ts) ∧
      ((s.task k).act = none) ∧ (∀ j, j ≠ k → (s.task j).trig ≠ some ts) ∧
      (c = s.peCost (if (s.task k).firstLoad then (s.task k).rec'.wcpe else (s.pimRd (pimSysv k + 5)).toNat)) ∧
      ((c : Int) ≤ s.tokBal) ∧ (((t.task k).act.map fun a => (a.ts, a.tc, a.est)) = some (0, 400000, some c)) := by decide +kernel
theorem test_w_TriggersAndShadowsComplete_5 :
    let s : State := (live.modTask 5 fun k => { k with rec' := ⟨0x30001, 1000, 0, 400, 0, 0, 9⟩, trig := some 0 }).wr Reg.pwrTokbal 0xffffffff
    let k : Fin 8 := 5
    let ts : Nat := 0
    let c : Nat := s.peCost (if (s.task k).firstLoad then (s.task k).rec'.wcpe else (s.pimRd (pimSysv k + 5)).toNat)
    let t := after (exec .triggerAdmit s) s
    (s.admitAt = some ts) ∧ (4 ≤ k.val) ∧ (s.twn.role ≠ .standby) ∧ ((s.task k).trig = some ts) ∧
      ((s.task k).act = none) ∧ (∀ j, j ≠ k → (s.task j).trig ≠ some ts) ∧
      (c = s.peCost (if (s.task k).firstLoad then (s.task k).rec'.wcpe else (s.pimRd (pimSysv k + 5)).toNat)) ∧
      (s.tokBal < c) ∧ ((s.task k).defers + 1 < (s.task k).rec'.stretch) ∧ ((t.task k).act = none) ∧
      ((t.task k).trig = if (s.task k).rec'.trig = 0 then none else some (ts + 1000 * (s.task k).rec'.period)) ∧
      ((t.task k).defers = (s.task k).defers + 1) := by decide +kernel
theorem test_w_TriggersAndShadowsComplete_6 :
    let s : State := live
    (s.admitAt = none) := by decide +kernel
theorem test_w_TriggersAndShadowsComplete_7 :
    let s : State := live.modTask 1 fun k => { k with act := some wAct }
    let k : Fin 8 := 1
    let a : Act := wAct
    let t := after (exec (.shadowCopyDone k) s) s
    (s.alive = true) ∧ (s.eng.mode = .run) ∧ (s.eng.running = none) ∧ (s.opHalts = false) ∧ (s.pimc.retry = none) ∧
      (s.pimc.flips = []) ∧ ((s.task k).act = some a) ∧ (a.stage = .copying) ∧ (∀ j, j ≠ k → (s.task j).act = none) ∧
      (t.eng.running = some k) ∧ (((t.task k).act.map fun b => b.stage) = some .running) := by decide +kernel
theorem test_w_TriggersAndShadowsComplete_8 :
    let s : State := { live with eng := Eng.reset }
    let k : Fin 8 := 1
    (s.alive = false ∨ s.eng.mode = .stop ∨ s.pimc.retry ≠ none ∨ ∀ a, (s.task k).act = some a → a.stage ≠ .copying) := by exact .inr (.inl rfl)
theorem test_w_TriggersAndShadowsComplete_9 :
    let s : State := { live.modTask 1 (fun k => { k with rec' := ⟨1, 1000, 0, 400, 0, 1, 9⟩, act := some { wAct with stage := .running } }) with eng := { (live.modTask 1 (fun k => { k with rec' := ⟨1, 1000, 0, 400, 0, 1, 9⟩, act := some { wAct with stage := .running } })).eng with running := some 1 } }
    let k : Fin 8 := 1
    let a : Act := { wAct with stage := .running }
    let i : Nat := 0
    let t := after (exec (.segmentCond Upset.none) s) s
    (s.quiet) ∧ (s.engineRuns .run = true) ∧ (s.runAct = some (k, a)) ∧ (a.pos = .cond i) ∧ (i = 0 → a.frc = []) ∧
      (a.pe + 1 ≤ (s.task k).rec'.wcpe) ∧ (((t.task k).act.map fun b => (b.pos, b.pe)) = some (.desc 0 0, 1)) := by decide +kernel
theorem test_w_TriggersAndShadowsComplete_10 :
    let s : State := stopd
    let u : Upset := Upset.none
    (s.engineRuns .run = false ∨ ∀ k a i, s.runAct = some (k, a) → a.pos ≠ .cond i) := by exact .inl rfl
theorem test_w_TriggersAndShadowsComplete_11 :
    let s : State := { live.modTask 1 (fun k => { k with act := some { wAct with stage := .running, pos := .done } }) with eng := { (live.modTask 1 (fun k => { k with act := some { wAct with stage := .running, pos := .done } })).eng with running := some 1 } }
    let k : Fin 8 := 1
    let a : Act := { wAct with stage := .running, pos := .done }
    let t := after (exec (.activationComplete Tri.none) s) s
    (s.quiet) ∧ (s.engineRuns .run = true) ∧ (s.runAct = some (k, a)) ∧ (a.pos = .done) ∧ (a.sigDev = Tri.none) ∧
      (∀ l : Fin 3, s.lanes.pipe[l].dev = []) ∧
      (((t.task k).act.map fun b => (b.stage, b.tc)) = some (.complete, 400000)) := by decide +kernel
theorem test_w_TriggersAndShadowsComplete_12 :
    let s : State := stopd
    let sig : Tri := Tri.none
    (s.engineRuns .run = false ∨ ∀ k a, s.runAct = some (k, a) → a.pos ≠ .done) := by exact .inl rfl
theorem test_w_CommitAndOverrun_1 :
    let s : State := { live.modTask 1 (fun k => { k with act := some { wAct with stage := .complete } }) with now := 400000 }
    let lcr : Tri := Tri.none
    let tel : List WriteUpset := []
    let tc : Nat := 400000
    let t := after (exec (.commit lcr tel) s) s
    (s.alive = true) ∧ (s.eng.mode = .run) ∧ (s.eng.change.isPausing = false) ∧ (s.pimc.retry = none) ∧
      (s.pimc.flips = []) ∧ (s.firstCommit = some tc) ∧ (tc ≤ s.now) ∧ (s.engSrc ≠ 2) ∧
      (∀ k ∈ s.dueAt tc, ∃ a, (s.task k).act = some a ∧ a.stage = .complete) ∧ (s.firstCommit = some tc) ∧
      ((t.task 1).act = none) := by decide +kernel
theorem test_w_CommitAndOverrun_2 :
    let s : State := live
    let k : Fin 8 := 1
    True := by decide +kernel
theorem test_w_CommitAndOverrun_3 :
    let s : State := live.modTask 1 (fun k => { k with act := some { wAct with stage := .complete, staged := [.out 3 7] } })
    let k : Fin 8 := 1
    let a : Act := { wAct with stage := .complete, staged := [.out 3 7] }
    let w : Nat := 3
    let v : Word := 7
    ((s.task k).act = some a) ∧ (a.staged = [.out w v]) ∧ (s.forces = []) ∧ (w < 0x4000) ∧
      (Memory.wf ramFill s.pim = true) ∧ ((s.commitAct k).pimRd (pimOpc + w) = v) := by decide +kernel
theorem test_w_CommitAndOverrun_4 :
    let s : State := { live.modTask 1 (fun k => { k with act := some wAct }) with now := 400000 }
    let lcr : Tri := Tri.none
    let tel : List WriteUpset := []
    let tc : Nat := 400000
    let k : Fin 8 := 1
    let a : Act := wAct
    let t := after (exec (.commit lcr tel) s) s
    (s.alive = true) ∧ (s.eng.mode = .run) ∧ (s.eng.change.isPausing = false) ∧ (s.firstCommit = some tc) ∧
      (tc ≤ s.now) ∧ (s.engSrc ≠ 2) ∧ (k ∈ s.dueAt tc) ∧ ((s.task k).act = some a) ∧ (a.stage ≠ .complete) ∧
      (s.regsOk) ∧ (t.eng.mode = .stop) ∧ (t.rd64 Reg.engOvrtLo = tc % 2 ^ 64) := by decide +kernel
theorem test_w_CommitAndOverrun_5 :
    let s : State := { (live.modTask 1 (fun k => { k with act := some { wAct with stage := .complete } })).wr Reg.clkStat 0x80 with now := 400000 }
    let lcr : Tri := Tri.none
    let tel : List WriteUpset := []
    let tc : Nat := 400000
    let t := after (exec (.commit lcr tel) s) s
    (s.alive = true) ∧ (s.eng.mode = .run) ∧ (s.eng.change.isPausing = false) ∧ (s.firstCommit = some tc) ∧
      (tc ≤ s.now) ∧ (s.engSrc = 2) ∧ (s.regsOk) ∧ (t.eng.mode = .stop) ∧ (t.rd64 Reg.engOvrtLo = tc % 2 ^ 64) := by decide +kernel
theorem test_w_CommitAndOverrun_6 :
    let s : State := stopd
    let lcr : Tri := Tri.none
    let tel : List WriteUpset := []
    (s.alive = false ∨ s.eng.mode ≠ .run ∨ s.eng.change.isPausing = true ∨ (s.pimc.retry ≠ none ∧ s.engSrc ≠ 2 ∧ ∀
        tc, s.firstCommit = some tc → ∀ k ∈ s.dueAt tc, ∃ a, (s.task k).act = some a ∧ a.stage = .complete) ∨ ∀ tc,
        s.firstCommit = some tc → s.now < tc) := by exact .inr (.inl (by decide))
theorem test_w_StartStopAndHoldComplete_1 :
    let s : State := { stopd with imgRun := true, now := 1234567 }
    let t := after (exec (.startCommand .pf0) s) s
    (s.booted = true) ∧ (s.sealRo 8 = false) ∧ (s.mstate = .stop) ∧ (s.eng.change = .none) ∧
      (s.startAllowed = true) ∧ (s.regsOk) ∧ (t.eng.mode = .run) ∧ (t.mstate = .run) ∧
      (t.rd64 Reg.engEpochLo = 2000000) := by decide +kernel
theorem test_w_StartStopAndHoldComplete_2 :
    let s : State := live
    let t := after (exec (.startCommand .pf0) s) s
    (s.booted = true) ∧ (s.sealRo 8 = false) ∧ (s.mstate ≠ .stop ∨ s.eng.change ≠ .none ∨ s.startAllowed = false) ∧
      (t.rd 0x8010 = 8) := by decide +kernel
theorem test_w_StartStopAndHoldComplete_3 :
    let s : State := live
    let pf : Pf := .pf1
    let t := after (exec (.startCommand pf) s) s
    (pf = .pf1 ∨ s.sealRo 8 = true) ∧ (t.rd 0x8010 = 0x40000000) := by decide +kernel
theorem test_w_StartStopAndHoldComplete_4 :
    let s : State := { live with now := 1234567 }
    let t := after (exec (.stopCommand .pf0) s) s
    (s.booted = true) ∧ (s.sealRo 8 = false) ∧ (s.mstate = .run) ∧ (s.regsOk) ∧ (t.eng.mode = .stop) ∧
      (t.mstate = .stop) ∧ (t.eng.running = none) ∧ (∀ k : Fin 8, (t.task k).act = none) ∧
      (t.rd64 Reg.engOvrtLo = nextWhole s.now 1000 % 2 ^ 64) := by decide +kernel
theorem test_w_StartStopAndHoldComplete_5 :
    let s : State := stopd
    let t := after (exec (.stopCommand .pf0) s) s
    (s.booted = true) ∧ (s.sealRo 8 = false) ∧ (s.mstate ≠ .run) ∧ (t.rd 0x8010 = 8) := by decide +kernel
theorem test_w_StartStopAndHoldComplete_6 :
    let s : State := live
    let pf : Pf := .pf1
    let t := after (exec (.stopCommand pf) s) s
    (pf = .pf1 ∨ s.sealRo 8 = true) ∧ (t.rd 0x8010 = 0x40000000) := by decide +kernel
theorem test_w_StartStopAndHoldComplete_7 :
    let s : State := { (live.modTask 1 (fun k => { k with act := some { wAct with stage := .running, pos := .desc 0 0 } })).wr (Reg.dbgBp 0) 0x80000000 with eng := { (live.modTask 1 (fun k => { k with act := some { wAct with stage := .running, pos := .desc 0 0 } })).eng with running := some 1 } }
    let k : Fin 8 := 1
    let a : Act := { wAct with stage := .running, pos := .desc 0 0 }
    let d : Nat := 0
    let t := after (exec .breakpointHalt s) s
    (s.engineRuns .run = true) ∧ (s.nextBlock = some (k, a, d)) ∧ (s.isBp d = true) ∧ (s.eng.passed ≠ some (k, d)) ∧
      (s.imgSealed = false) ∧ (t.eng.mode = .hold) ∧ (t.mstate = .hold) ∧ (t.eng.halted = some (k, d)) ∧
      (t.task k = s.task k) := by decide +kernel
theorem test_w_StartStopAndHoldComplete_8 :
    let s : State := { (live.modTask 1 (fun k => { k with act := some { wAct with stage := .running, pos := .desc 0 0 } })).wr (Reg.dbgBp 0) 0x80000000 with imgSealed := true, eng := { (live.modTask 1 (fun k => { k with act := some { wAct with stage := .running, pos := .desc 0 0 } })).eng with running := some 1 } }
    let k : Fin 8 := 1
    let a : Act := { wAct with stage := .running, pos := .desc 0 0 }
    let d : Nat := 0
    let t := after (exec .breakpointHalt s) s
    (s.engineRuns .run = true) ∧ (s.nextBlock = some (k, a, d)) ∧ (s.isBp d = true) ∧ (s.eng.passed ≠ some (k, d)) ∧
      (s.imgSealed = true) ∧ (t.rd 0xd010 = 2) := by decide +kernel
theorem test_w_StartStopAndHoldComplete_9 :
    let s : State := stopd
    (s.engineRuns .run = false ∨ ∀ k a d, s.nextBlock = some (k, a, d) →
      s.isBp d = false ∨ s.eng.passed = some (k, d)) := by exact .inl rfl
theorem test_w_StartStopAndHoldComplete_10 :
    let s : State := live
    let pf : Pf := .pf0
    let t := after (exec (.holdResume pf) s) s
    (s.booted = true) ∧ (pf = .pf1 ∨ s.sealRo 13 = true ∨ s.eng.mode ≠ .hold) ∧ (t.rd 0xd010 = 2) := by decide +kernel
theorem test_w_StartStopAndHoldComplete_11 :
    let s : State := live
    let pf : Pf := .pf0
    let u : Upset := Upset.none
    let t := after (exec (.holdStep pf u) s) s
    (s.booted = true) ∧ (s.pimc.retry = none) ∧ (pf = .pf1 ∨ s.sealRo 13 = true ∨ s.eng.mode ≠ .hold) ∧
      (t.rd 0xd010 = 2) := by decide +kernel
theorem test_w_StartStopAndHoldComplete_12 :
    let s : State := live
    let pf : Pf := .pf0
    let t := after (exec (.dbgStop pf) s) s
    (s.booted = true) ∧ (pf = .pf1 ∨ s.sealRo 13 = true ∨ s.eng.mode ≠ .hold) ∧ (t.rd 0xd010 = 2) := by decide +kernel
theorem test_w_StartStopAndHoldComplete_13 :
    let s : State := { live with mstate := .hold, eng := { Eng.reset with mode := .hold } }
    let t := after (exec (.holdResume .pf0) s) s
    (s.booted = true) ∧ (s.sealRo 13 = false) ∧ (s.eng.mode = .hold) ∧ (t.eng.mode = .run) ∧ (t.mstate = .run) ∧
      (t.eng.halted = none) ∧ (∀ k : Fin 8, (t.task k).grid = (s.task k).grid + (nextWhole s.now 1000 - s.eng.holdAt)) := by decide +kernel
theorem test_w_StartStopAndHoldComplete_14 :
    let s : State := { live with mstate := .hold, eng := { Eng.reset with mode := .hold, halted := some (1, 0) } }
    let u : Upset := Upset.none
    let k : Fin 8 := 1
    let d : Nat := 0
    (s.booted = true) ∧ (s.pimc.retry = none) ∧ (s.sealRo 13 = false) ∧ (s.eng.mode = .hold) ∧
      (s.eng.halted = some (k, d)) := by decide +kernel
theorem test_w_StartStopAndHoldComplete_15 :
    let s : State := { live with mstate := .hold, eng := { Eng.reset with mode := .hold } }
    let u : Upset := Upset.none
    let t := after (exec (.holdStep .pf0 u) s) s
    (s.booted = true) ∧ (s.pimc.retry = none) ∧ (s.sealRo 13 = false) ∧ (s.eng.mode = .hold) ∧
      (s.eng.halted = none) ∧ (t.rd 0xd010 = 2) := by decide +kernel
theorem test_w_StartStopAndHoldComplete_16 :
    let s : State := { live with mstate := .hold, eng := { Eng.reset with mode := .hold, halted := some (1, 0) } }
    let t := after (exec (.dbgStop .pf0) s) s
    (s.booted = true) ∧ (s.sealRo 13 = false) ∧ (s.eng.mode = .hold) ∧ (t.eng.mode = .stop) ∧ (t.mstate = .stop) ∧
      (t.eng.halted = none) := by decide +kernel
theorem test_w_StartStopAndHoldComplete_17 :
    let s : State := { live with eng := { live.eng with change := .waiting true } }
    let w : Bool := true
    let t := after (exec .changePauseBegin s) s
    (s.eng.change = .waiting w) ∧ (s.alive = true) ∧ (∀ k : Fin 8, (s.task k).act = none) ∧
      (t.eng.change = .pausing s.now w) := by decide +kernel
theorem test_w_StartStopAndHoldComplete_18 :
    let s : State := { live with supply := .off }
    (s.alive = false ∨ (∃ k : Fin 8, (s.task k).act ≠ none) ∨ ∀ w, s.eng.change ≠ .waiting w) := by exact .inl rfl
theorem test_w_StartStopAndHoldComplete_19 :
    let s : State := { live with supply := .off }
    (s.alive = false ∨ ∀ g w, s.eng.change ≠ .pausing g w) := by exact .inl rfl
theorem test_w_StartStopAndHoldComplete_20 :
    let s : State := { live with eng := { live.eng with change := .pausing 0 true } }
    let g : Nat := 0
    let w : Bool := true
    (s.eng.change = .pausing g w) ∧ (s.alive = true) := by decide +kernel
theorem test_v_BlocksComplete_1 :
    let s := blkState 0x041 0 0 [0x300000, 0x300001, 0x40300002]
    let k : Fin 8 := 1
    s.atBlock k (blkAct 0) 0 0x041 ∧ s.quiet ∧ 0 = blkAnd.words ∧
    ((after (exec (.bAnd Upset.none) ((s.pimWr 0x300000 1).pimWr 0x300001 1)) s).pimRd 0x300002 = 1) := by decide +kernel
theorem test_v_BlocksComplete_2 :
    let s := (blkState 0x183 0 0x301000 [0x300000, 0x300001, 0x40300002]).pimWr 0x301000 0x183
    let k : Fin 8 := 1
    let u := after (exec (.bSr Upset.none) ((s.pimWr 0x300000 1).pimWr 0x300001 1)) s
    s.atBlock k (blkAct 0) 0 0x183 ∧ s.quiet ∧ s.pimRd (s.irefAt 0) = wd 0x183 ∧ u.pimRd 0x300002 = 1 ∧ u.pimRd 0x301001 = 1 := by decide +kernel
theorem test_v_BlocksComplete_3 :
    let s := (blkState 0x183 0 0x301000 [0x300000, 0x300001, 0x40300002])
    let k : Fin 8 := 1
    s.atBlock k (blkAct 0) 0 0x183 ∧ s.quiet ∧ s.pimRd (s.irefAt 0) ≠ wd 0x183 ∧
    (after (exec (.bSr Upset.none) s) s).mstate = .safe := by decide +kernel
theorem test_v_BlocksComplete_4 :
    let s := blkState 0x11a 6 0 [0x300000, 0x40300002]
    let k : Fin 8 := 1
    s.atBlock k (blkAct 0) 0 (0x110 + 10) ∧ s.quiet ∧
    (after (exec (.bConv Upset.none) (s.pimWr 0x300000 0x40200000)) s).pimRd 0x300002 = 2 := by decide +kernel
theorem test_v_IntegerArithmeticBlocks_1 :
    let x := binOf 4 [0x7f, 1]
    tyINT x.dty = true ∧ blkAdd.sem x = ⟨[some 0xffffff80], [], true, []⟩ ∧ blkAddS.sem x = ⟨[some 0x7f], [], false, []⟩ := by decide +kernel
theorem test_v_IntegerArithmeticBlocks_2 :
    let x := binOf 4 [0xffffff80, 0xffffffff]
    tyINT x.dty = true ∧ blkDiv.sem x = ⟨[some 0x7f, some 1], [], false, []⟩ ∧ blkMod.sem x = ⟨[some 0, some 0], [], false, []⟩ := by decide +kernel
theorem test_v_LogicCompareAndLatchBlocks_1 :
    let x := binOf 1 [0x81, 9]
    tyBS x.dty = true ∧ tyExt x.dty (x.w 0) = x.w 0 ∧ blkShl.sem x = ⟨[some 0], [], false, []⟩ ∧
    blkRol.sem x = ⟨[some 3], [], false, []⟩ ∧ blkRor.sem x = ⟨[some 0xc0], [], false, []⟩ := by decide +kernel
theorem test_v_LogicCompareAndLatchBlocks_2 :
    let x := binOf 5 [0xffff8000, 1]
    tyINT x.dty = true ∧ tyExt x.dty (x.w 0) = x.w 0 ∧ blkLt.sem x = ⟨[some 1], [], false, []⟩ := by decide +kernel
theorem test_v_TimerAndCounterBlocks_1 :
    let x := { binOf 11 [1, 1000] with inst := [900, 1], dt := 100 }
    0 ≤ x.dt ∧ 0 ≤ x.et ∧ x.et ≤ max (x.time 1) 0 ∧ x.b 0 = true ∧ x.m = true ∧
    (blkTon.sem x).outs = [some 1, some 1000] := by decide +kernel
theorem test_v_TimerAndCounterBlocks_2 :
    let x := { binOf 6 [1, 0, 5] with inst := [0x7fffffff, 0] }
    tyINT x.dty = true ∧ x.b 0 = true ∧ (blkCtu.sem x).outs = [some 1, some 0x7fffffff] := by decide +kernel
theorem test_v_TimerAndCounterBlocks_3 :
    let x := { binOf 11 [0, 1000] with inst := [900, 1], dt := 100 }
    x.b 0 = false ∧ (blkTof.sem x).outs = [some 1, some 0] := by decide +kernel
theorem test_v_SequenceAndSafetyBlocks_1 :
    let x := { binOf 9 [0, 1, 4] with inst := [3, 500], dt := 100 }
    (x.w 2).toNat = 4 ∧ x.b 0 = false ∧ bit (x.w 1) (x.iw 1).toNat = false ∧
    blkSeq.sem x = ⟨[some 3, some 8, some 600], [3, 600], false, []⟩ := by decide +kernel
theorem test_v_SequenceAndSafetyBlocks_2 :
    let x := { binOf 0 [1, 1, 1] with inst := [0] }
    blkGuard.sem x = ⟨[some 0, some 1], [0], false, []⟩ := by decide +kernel
theorem test_w_VotedValueIsTheMajority_1 :
    let l : Lanes := Lanes.reset
    let x : Tri := ⟨5, 7, 5⟩
    let y : Dword := 5
    let o : Option (Fin 3) := some 1
    (l.compare x = .value y o) ∧ (∃ i : Fin 3, l.counts i = true ∧ triLane x i = y) ∧
      (∀ j : Fin 3, l.counts j = true → triLane x j ≠ y → o = some j) ∧ (∀ j : Fin 3, o = some j → l.counts j = true ∧
      triLane x j ≠ y) := by decide +kernel
theorem test_w_VotedValueIsTheMajority_2 :
    let l : Lanes := Lanes.reset
    let x : Tri := ⟨5, 7, 6⟩
    (l.compare x = .noMajority) ∧ (∀ i j : Fin 3, i ≠ j → l.counts i = true → l.counts j = true →
      triLane x i ≠ triLane x j ∨ ∃ m : Fin 3, m ≠ i ∧ m ≠ j ∧ l.counts m = true) ∧ (∀ i j : Fin 3, l.held = 0 →
      i ≠ j → triLane x i ≠ triLane x j) := by decide +kernel
theorem test_w_VotedValueIsTheMajority_3 :
    let s : State := live
    let c : Nat := 1
    let w1 : Nat := 0
    let y : Dword := 9
    (s.quiet) := by decide +kernel
theorem test_w_VotedValueIsTheMajority_4 :
    let s : State := live
    let c : Nat := 2
    let w1 : Nat := 8
    let x : Tri := ⟨5, 7, 6⟩
    (s.lanes.compare x = .noMajority) ∧ ((s.vote c w1 x).1.mstate = .safe) := by decide +kernel
theorem test_w_LaneHeldAndResynchronised_1 :
    let s : State := live
    let l : Fin 3 := 2
    let c : Nat := 1
    let w1 : Nat := 0
    (s.lanes.held &&& ~~~ BitVec.ofNat 3 (2 ^ l.val) = 0) ∧ ((s.lanes.oddLog.filter fun e => e.1 == l).length < 2) ∧
      (c < 8) ∧ (s.regsOk) ∧ ((s.laneOdd l c w1).lanes.held = s.lanes.held ||| BitVec.ofNat 3 (2 ^ l.val)) ∧
      ((s.laneOdd l c w1).lanes.retired = s.lanes.retired) ∧ ((s.laneOdd l c w1).lanes.rs = .idle) ∧
      ((s.laneOdd l c w1).rd Reg.voteLastodd = wd (l.val + c * 16 + 0x80000000)) ∧
      (fld ((s.laneOdd l c w1).rd (Reg.voteOddcnt l)) 16 3 = c) ∧ ((s.laneOdd l c w1).mstate = s.mstate) ∧
      ((s.laneOdd l c w1).pim = s.pim) := by decide +kernel
theorem test_w_LaneHeldAndResynchronised_2 :
    let s : State := { live with now := 1000000 }
    let sig : Tri := Tri.none
    (s.booted = true) ∧ (s.quiet) ∧ (s.lanes.gsMs < s.now / 1000000) ∧ (s.pstate ≠ .nap) ∧ (s.pimc.retry = none) ∧
      (∀ i j : Fin 3, (s.ownUpset sig).globalSig i = (s.ownUpset sig).globalSig j) := by exact ⟨by decide +kernel, by decide +kernel, by decide +kernel, by decide +kernel, by decide +kernel, fun i j => globalSig_same (p := fun _ => True) (by decide +kernel) i j trivial trivial⟩
theorem test_w_LaneHeldAndResynchronised_3 :
    let s : State := { live with now := 1000000 }
    let sig : Tri := ⟨0, 0, 1⟩
    (s.booted = true) ∧ (s.quiet) ∧ (s.lanes.gsMs < s.now / 1000000) ∧ (s.pstate ≠ .nap) ∧ (s.pimc.retry = none) ∧
      ((s.ownUpset sig).globalSig 0 = (s.ownUpset sig).globalSig 1) ∧
      ((s.ownUpset sig).globalSig 0 ≠ (s.ownUpset sig).globalSig 2) ∧ (s.lanes.oddLog = []) := by exact ⟨by decide +kernel, by decide +kernel, by decide +kernel, by decide +kernel, by decide +kernel, globalSig_same (p := fun i => i ≠ 2) (by decide +kernel) 0 1 (by decide +kernel) (by decide +kernel), globalSig_odd (by decide +kernel) 0 (by decide +kernel), by decide +kernel⟩
theorem test_w_LaneHeldAndResynchronised_4 :
    let s : State := live
    let sig : Tri := Tri.none
    (s.booted = false ∨ s.safeLatch = true ∨ s.now / 1000000 ≤ s.lanes.gsMs ∨ s.pstate = .nap ∨ s.pimc.retry ≠ none) := by decide +kernel
theorem test_w_LaneHeldAndResynchronised_5 :
    let s : State := { stopd with lanes := { Lanes.reset with held := 2 } }
    let l : Fin 3 := 1
    let t := after (exec .resyncStart s) s
    (s.booted = true) ∧ (s.safeLatch = false) ∧ (s.lanes.rs = .idle) ∧ (s.lanes.oddLane = some l) ∧
      (s.taskBoundary = true) ∧ (t.lanes = { s.lanes with rs := .reset s.now }) ∧ (t.regs = s.regs) ∧ (t.pim = s.pim) ∧
      (t.eng = s.eng) := by decide +kernel
theorem test_w_LaneHeldAndResynchronised_6 :
    let s : State := live
    (s.booted = false ∨ s.safeLatch = true ∨ s.lanes.rs ≠ .idle ∨ s.lanes.oddLane = none ∨ s.taskBoundary = false) := by decide +kernel
theorem test_w_LaneHeldAndResynchronised_7 :
    let s : State := { stopd with lanes := { Lanes.reset with held := 2, rs := .reset 5, own := #v[7, 0, 7] } }
    let g : Nat := 5
    let l : Fin 3 := 1
    let m : Fin 3 := 0
    let n : Fin 3 := 2
    let t := after (exec (.resyncEngineLoaded false) s) s
    (s.booted = true) ∧ (s.lanes.rs = .reset g) ∧ (s.lanes.oddLane = some l) ∧ (s.lanes.senders = (m, n)) ∧
      (s.lanes.own[m] = s.lanes.own[n]) ∧ (s.lanes.lcrS[m] = s.lanes.lcrS[n]) ∧
      (t.lanes =
        { s.lanes with rs := .engine g, own := s.lanes.own.set l s.lanes.own[m], lcrS := s.lanes.lcrS.set l s.lanes.lcrS[m], pipe := s.lanes.pipe.set l Pipe.zero })
        ∧ (t.regs = s.regs) ∧ (t.pim = s.pim) := by decide +kernel
theorem test_w_LaneHeldAndResynchronised_8 :
    let s : State := { stopd with lanes := { Lanes.reset with held := 2, rs := .reset 5 } }
    let differ : Bool := true
    let g : Nat := 5
    let l : Fin 3 := 1
    let m : Fin 3 := 0
    let n : Fin 3 := 2
    let t := after (exec (.resyncEngineLoaded differ) s) s
    (s.booted = true) ∧ (s.lanes.rs = .reset g) ∧ (s.lanes.oddLane = some l) ∧ (s.lanes.senders = (m, n)) ∧
      (differ = true ∨ s.lanes.own[m] ≠ s.lanes.own[n] ∨ s.lanes.lcrS[m] ≠ s.lanes.lcrS[n]) ∧ (t.mstate = .safe) := by decide +kernel
theorem test_w_LaneHeldAndResynchronised_9 :
    let s : State := State.reset
    let differ : Bool := true
    (s.booted = false ∨ s.lanes.oddLane = none ∨ ∀ g, s.lanes.rs ≠ .reset g) := by exact .inl rfl
theorem test_w_LaneHeldAndResynchronised_10 :
    let s : State := { stopd with lanes := { Lanes.reset with held := 2, rs := .engine 5, lcr := Vector.replicate 3 7 } }
    let g : Nat := 5
    let l : Fin 3 := 1
    let m : Fin 3 := 0
    let n : Fin 3 := 2
    let t := after (exec (.resyncK0Load false) s) s
    (s.booted = true) ∧ (s.lanes.rs = .engine g) ∧ (s.lanes.oddLane = some l) ∧ (s.lanes.senders = (m, n)) ∧
      (s.k0Differ m n = false) ∧ (t.lanes.rs = .k0 s.now) ∧ (t.lanes.lcr[l] = s.lanes.lcr[m]) ∧
      (t.rfx.rules[l] = s.rfx.rules[m]) ∧ (∀ g : Fin 4, (t.fio[g]).cp[l].en = (s.fio[g]).cp[m].en) ∧
      (t.lanes.held = s.lanes.held) ∧ (t.regs = s.regs) := by decide +kernel
theorem test_w_LaneHeldAndResynchronised_11 :
    let s : State := { stopd with lanes := { Lanes.reset with held := 2, rs := .engine 5, lcr := #v[7, 7, 8] } }
    let differ : Bool := false
    let g : Nat := 5
    let l : Fin 3 := 1
    let m : Fin 3 := 0
    let n : Fin 3 := 2
    let t := after (exec (.resyncK0Load differ) s) s
    (s.booted = true) ∧ (s.lanes.rs = .engine g) ∧ (s.lanes.oddLane = some l) ∧ (s.lanes.senders = (m, n)) ∧
      (differ = true ∨ s.k0Differ m n = true) ∧ (t.mstate = .safe) := by decide +kernel
theorem test_w_LaneHeldAndResynchronised_12 :
    let s : State := State.reset
    let differ : Bool := true
    (s.booted = false ∨ s.lanes.oddLane = none ∨ ∀ g, s.lanes.rs ≠ .engine g) := by exact .inl rfl
theorem test_w_LaneHeldAndResynchronised_13 :
    let s : State := { stopd with now := 1000, lanes := { Lanes.reset with held := 2, rs := .agreed 5 100 } }
    let sig : Tri := Tri.none
    let g : Nat := 5
    let e : Nat := 100
    let l : Fin 3 := 1
    (s.booted = true) ∧ (s.lanes.rs = .agreed g e) ∧ (s.lanes.held = BitVec.ofNat 3 (2 ^ l.val)) ∧
      (bit s.lanes.retired l = false) ∧ (s.safeLatch = false) ∧ (e + 200 ≤ s.now) ∧ (s.lanes.oddAt ≤ s.now ∧
      s.now - s.lanes.oddAt < 0x100000000) ∧ (s.regsOk) ∧
      (∀ i j : Fin 3, (s.ownUpset sig).globalSig i = (s.ownUpset sig).globalSig j) := by exact ⟨by decide +kernel, by decide +kernel, by decide +kernel, by decide +kernel, by decide +kernel, by decide +kernel, by decide +kernel, by decide +kernel, fun i j => globalSig_same (p := fun _ => True) (by decide +kernel) i j trivial trivial⟩
theorem test_w_LaneHeldAndResynchronised_14 :
    let s : State := { stopd with now := 1000, lanes := { Lanes.reset with held := 2, rs := .agreed 5 100 } }
    let sig : Tri := ⟨0, 1, 0⟩
    let g : Nat := 5
    let e : Nat := 100
    let l : Fin 3 := 1
    (s.booted = true) ∧ (s.lanes.rs = .agreed g e) ∧ (s.lanes.held = BitVec.ofNat 3 (2 ^ l.val)) ∧
      (bit s.lanes.retired l = false) ∧ (s.safeLatch = false) ∧ (e + 200 ≤ s.now) ∧ (∀ i j : Fin 3, i ≠ l → j ≠ l →
      (s.ownUpset sig).globalSig i = (s.ownUpset sig).globalSig j) ∧ (∀ i : Fin 3, i ≠ l →
      (s.ownUpset sig).globalSig i ≠ (s.ownUpset sig).globalSig l) := by exact ⟨by decide +kernel, by decide +kernel, by decide +kernel, by decide +kernel, by decide +kernel, by decide +kernel, fun i j hi hj => globalSig_same (p := fun i => i ≠ 1) (by decide +kernel) i j hi hj, globalSig_odd (by decide +kernel)⟩
theorem test_w_LaneHeldAndResynchronised_15 :
    let s : State := State.reset
    let sig : Tri := Tri.none
    (s.booted = false ∨ s.lanes.oddLane = none ∨ ∀ g e, s.lanes.rs = .agreed g e → s.now < e + 200) := by exact .inl rfl
theorem test_w_LaneHeldAndResynchronised_16 :
    let s : State := State.reset
    (s.booted = false ∨ s.safeLatch = true ∨ s.lanes.rs ≠ .idle ∨ s.lanes.oddLane = none ∨ s.lanes.starved = true ∨
        s.now < s.lanes.oddAt + 1000000 * fld (s.rd Reg.voteStarve) 0 14) := by decide +kernel
theorem test_w_LaneHeldAndResynchronised_17 :
    let s : State := { stopd with now := 100000000000, lanes := { Lanes.reset with held := 2 } }
    let l : Fin 3 := 1
    let t := after (exec .resyncStarved s) s
    (s.booted = true) ∧ (s.safeLatch = false) ∧ (s.lanes.rs = .idle) ∧ (s.lanes.oddLane = some l) ∧
      (s.lanes.starved = false) ∧ (s.lanes.oddAt + 1000000 * fld (s.rd Reg.voteStarve) 0 14 ≤ s.now) ∧ (s.regsOk) ∧
      (t.lanes = { s.lanes with starved := true }) ∧ (bit (t.rd 0x0a010) 3 = true) ∧
      (s.reports t 0x0a0b (lanePay l (fld (s.rd (Reg.voteOddcnt l)) 16 3) 0 s.runTask)) := by decide +kernel
theorem test_w_LaneHeldAndResynchronised_18 :
    let s : State := { stopd with lanes := { Lanes.reset with sig := ⟨1, 0x200000000, 3⟩ } }
    let t := after (exec (.signatureSnapshot .pf0) s) s
    (s.allowsWrite .pf0 Reg.voteSigsnap 1 = true) ∧ (s.regsOk) ∧ (t.rd (Reg.voteSig 0) = lo32 s.lanes.sig.a) ∧
      (t.rd (Reg.voteSig 1) = hi32 s.lanes.sig.a) ∧ (t.rd (Reg.voteSig 2) = lo32 s.lanes.sig.b) ∧
      (t.rd (Reg.voteSig 3) = hi32 s.lanes.sig.b) ∧ (t.rd (Reg.voteSig 4) = lo32 s.lanes.sig.c) ∧
      (t.rd (Reg.voteSig 5) = hi32 s.lanes.sig.c) ∧ (t.lanes = s.lanes) := by decide +kernel
theorem test_w_PimErrorsAreCorrectedOrFatal_1 :
    let s : State := { live with pimc := { live.pimc with writeback := [4, 5] } }
    let n : Nat := 4
    let r : List Nat := [5]
    let t := after (exec .pimWriteback s) s
    (s.alive = true) ∧ (s.pimc.retry = none) ∧ (s.pimc.writeback = n :: r) ∧ (t.pimc = s.pimc.wrote n) ∧
      (n ∉ t.pimc.writeback) ∧ (t.pim = s.pim) ∧ (t.regs = s.regs) := by decide +kernel
theorem test_w_PimErrorsAreCorrectedOrFatal_2 :
    let s : State := live
    (s.alive = false ∨ s.pimc.retry ≠ none ∨ s.pimc.writeback = []) := by decide +kernel
theorem test_w_PimErrorsAreCorrectedOrFatal_3 :
    let s : State := { live with pimc := { live.pimc with retry := some (3, 1, false) } }
    let n : Nat := 3
    let m : Nat := 1
    let t := after (exec (.pimRetryEnd .good) s) s
    (s.alive = true) ∧ (s.pimc.retry = some (n, m, false)) ∧ (s.lineFails n = false) ∧ (s.regsOk) ∧
      (t.pimc = { s.pimc with retry := none }) ∧ (bit (t.rd 0x0b010) 1 = true) ∧ (t.mstate = s.mstate) ∧
      (t.pim = s.pim) ∧ (s.reports t 0x0b02 [0, wd (8 * n), wd s.runTask]) := by decide +kernel
theorem test_w_PimErrorsAreCorrectedOrFatal_4 :
    let s : State := { live with pimc := { live.pimc with retry := some (3, 1, true) } }
    let n : Nat := 3
    let m : Nat := 1
    let b : Bool := true
    let o : RetryOut := .good
    let t := after (exec (.pimRetryEnd o) s) s
    (s.alive = true) ∧ (s.pimc.retry = some (n, m, b)) ∧ (o ≠ .good ∨ b = true ∨ s.lineFails n = true) ∧
      (t.mstate = .safe ∧ t.rd Reg.pimFatal = 0x81100003) := by decide +kernel
theorem test_w_PimErrorsAreCorrectedOrFatal_5 :
    let s : State := live
    let o : RetryOut := .sameData
    (s.alive = false ∨ s.pimc.retry = none) := by decide +kernel
theorem test_w_PimErrorsAreCorrectedOrFatal_6 :
    let s : State := live
    let l : BitVec 3 := 1
    let t := after (exec (.scrubLine ⟨[], 0, l⟩) s) s
    (s.booted = true) ∧ (s.pimc.scrubOff = false) ∧ (s.pstate ≠ .nap) ∧ (s.pimc.retry = none) ∧ (s.pimc.flips = []) ∧
      (s.pimc.scrubPos + 1 < 786432) ∧ (s.regsOk) ∧ (t.rd Reg.pimScrubpos = 1) := by decide +kernel
theorem test_w_PimErrorsAreCorrectedOrFatal_7 :
    let s : State := { live with pimc := { live.pimc with scrubPos := 786431 } }
    let l : BitVec 3 := 0
    let t := after (exec (.scrubLine ⟨[], 0, l⟩) s) s
    (s.booted = true) ∧ (s.pimc.scrubOff = false) ∧ (s.pstate ≠ .nap) ∧ (s.pimc.retry = none) ∧ (s.pimc.flips = []) ∧
      (s.pimc.scrubPos + 1 = 786432) ∧ (s.regsOk) ∧ (t.pimc.scrubPos = 0) ∧ (t.pimc.scrubFrom = s.now) ∧
      (t.rd Reg.pimScrubpos = 0) ∧ (t.pim = s.pim) := by decide +kernel
theorem test_w_PimErrorsAreCorrectedOrFatal_8 :
    let s : State := live
    let cw : BitVec 2 := 1
    let b : Fin 72 := 9
    let t := after (exec (.scrubLine ⟨[⟨BitVec.ofNat 20 s.pimc.scrubPos, cw, 1 <<< b.val⟩], 0, 0⟩) s) s
    (s.booted = true) ∧ (s.pimc.scrubOff = false) ∧ (s.pstate ≠ .nap) ∧ (s.pimc.retry = none) ∧ (s.pimc.flips = []) ∧
      (s.pimc.scrubPos + 1 < 786432) ∧ (s.regsOk) ∧ (t.pimc.scrubPos = s.pimc.scrubPos + 1) ∧
      (t.pimc.writeback = (s.pimc.writeback.filter fun n => n != s.pimc.scrubPos) ++ [s.pimc.scrubPos]) ∧
      (t.pimc.retry = none) ∧ (t.rd Reg.pimCecnt = satInc (s.rd Reg.pimCecnt) 0xffffffff) ∧
      (t.rd Reg.pimCeaddr = wd (s.pimc.scrubPos + cw.toNat * 0x100000 + b.val * 0x400000 + 0x80000000)) ∧
      (bit (t.rd 0x0b010) 0 = true) ∧ (t.pim = s.pim) ∧
      (s.reports t 0x0b01 [0, wd (8 * s.pimc.scrubPos), wd s.runTask]) := by decide +kernel
theorem test_w_PimErrorsAreCorrectedOrFatal_9 :
    let s : State := live
    let cw : BitVec 2 := 1
    let b : Fin 72 := 9
    let c : Fin 72 := 70
    let t := after (exec (.scrubLine ⟨[⟨BitVec.ofNat 20 s.pimc.scrubPos, cw, 1 <<< b.val ||| 1 <<< c.val⟩], 0, 0⟩) s) s
    (s.booted = true) ∧ (s.pimc.scrubOff = false) ∧ (s.pstate ≠ .nap) ∧ (s.pimc.retry = none) ∧ (s.pimc.flips = []) ∧
      (s.pimc.scrubPos + 1 < 786432) ∧ (b ≠ c) ∧ (t.pimc.retry = some (0, 0, false)) := by decide +kernel
theorem test_w_PimErrorsAreCorrectedOrFatal_10 :
    let s : State := live
    let e : PimErr := ⟨[], 3, 0⟩
    let t := after (exec (.scrubLine e) s) s
    (s.booted = true) ∧ (s.pimc.scrubOff = false) ∧ (s.pstate ≠ .nap) ∧ (s.pimc.retry = none) ∧
      (s.pimc.scrubPos + 1 < 786432) ∧ (popCount e.addr = 1 ∨ popCount e.addr = 2) ∧
      (t.pimc.retry = some (0, 0, false)) := by decide +kernel
theorem test_w_PimErrorsAreCorrectedOrFatal_11 :
    let s : State := State.reset
    let e : PimErr := PimErr.none
    (s.booted = false ∨ s.pimc.scrubOff = true ∨ s.pstate = .nap ∨ s.pimc.retry ≠ none) := by decide +kernel
theorem test_w_FieldSideActsOnVotedFrames_1 :
    let s : State := live
    let g : Fin 4 := 2
    let t := after (exec (.downstreamFrameTx g) s) s
    (s.linksOn = true) ∧ ((t.fioG g).down = some (s.downFrame g)) ∧ ((t.fioG g).sent = s.downFrame g) ∧
      ((t.fioG g).downSeq = (s.fioG g).downSeq + 1) ∧
      (∀ k : Fin 4, (t.fioG g).tp[k].req = ((s.fioG g).tp[k].req && s.outOn g k)) ∧ (∀ f : Fin 4, f ≠ g →
      t.fioG f = s.fioG f) ∧ (t.fside = s.fside) ∧ (t.regs = s.regs) := by decide +kernel
theorem test_w_FieldSideActsOnVotedFrames_2 :
    let s : State := State.reset
    let g : Fin 4 := 2
    (s.linksOn = false) := by decide +kernel
theorem test_w_FieldSideActsOnVotedFrames_3 :
    let s : State := { after (exec (.downstreamFrameTx 0) live) live with supply := .good, fside := live.fside.set 0 { FieldSide.start 0 0 0 with running := true, locked := true } }
    let g : Fin 4 := 0
    let x : BitVec 96 := live.downFrame 0
    let n : BitVec 96 := 0
    let low : Bool := true
    let t := after (exec (.fieldDownstreamRx g n low) s) s
    (s.supply ≠ .off) ∧ ((s.fsideG g).running = true) ∧ ((s.fsideG g).locked = true) ∧ ((s.fioG g).down = some x) ∧
      (downGood (x ^^^ n) = true) ∧ (∀ k < 4, bit (t.fsideG g).on k = downVote (x ^^^ n) k) ∧
      ((t.fsideG g).gen = downVote (x ^^^ n) 4) ∧ ((t.fsideG g).missing = 0) ∧
      ((t.fsideG g).genZero = if downVote (x ^^^ n) 4 = true then 0 else min 16 ((s.fsideG g).genZero + 1)) ∧
      (downVote (x ^^^ n) 4 = false → (t.fsideG g).gsw = false) ∧ ((s.fsideG g).latch = true →
      (t.fsideG g).gsw = false) ∧ (downVote (x ^^^ n) 4 = true → (s.fsideG g).latch = false →
      (s.fsideG g).gsw = false → (s.fsideG g).gswFlt = false → (t.fsideG g).gsw = low) ∧
      ((t.fsideG g).latch = (s.fsideG g).latch) ∧ ((t.fioG g).down = none) ∧ (t.regs = s.regs) := by decide +kernel
theorem test_w_FieldSideActsOnVotedFrames_4 :
    let s : State := { after (exec (.downstreamFrameTx 0) live) live with supply := .good, fside := live.fside.set 0 { FieldSide.start 0 0 0 with running := true, locked := true, missing := 1, on := 15 } }
    let g : Fin 4 := 0
    let x : BitVec 96 := live.downFrame 0
    let n : BitVec 96 := 0x80000000000000000000
    let low : Bool := true
    let t := after (exec (.fieldDownstreamRx g n low) s) s
    (s.supply ≠ .off) ∧ ((s.fsideG g).running = true) ∧ ((s.fsideG g).locked = true) ∧ ((s.fioG g).down = some x) ∧
      (downGood (x ^^^ n) = false) ∧ ((s.fsideG g).missing = 1) ∧ ((t.fsideG g).isOff) ∧ ((t.fsideG g).latch = true) ∧
      ((t.fsideG g).locked = false) ∧ ((t.fioG g).down = none) := by decide +kernel
theorem test_w_FieldSideActsOnVotedFrames_5 :
    let s : State := { after (exec (.downstreamFrameTx 0) live) live with supply := .good, fside := live.fside.set 0 { FieldSide.start 0 0 0 with running := true, locked := true, on := 15 } }
    let g : Fin 4 := 0
    let x : BitVec 96 := live.downFrame 0
    let n : BitVec 96 := 0x80000000000000000000
    let low : Bool := true
    let t := after (exec (.fieldDownstreamRx g n low) s) s
    (s.supply ≠ .off) ∧ ((s.fsideG g).running = true) ∧ ((s.fsideG g).locked = true) ∧ ((s.fioG g).down = some x) ∧
      (downGood (x ^^^ n) = false) ∧ ((s.fsideG g).missing = 0) ∧ ((t.fsideG g).missing = 1) ∧
      ((t.fsideG g).bad = min 255 ((s.fsideG g).bad + 1)) ∧ ((t.fsideG g).on = (s.fsideG g).on) ∧
      ((t.fsideG g).gsw = (s.fsideG g).gsw) ∧ ((t.fsideG g).latch = (s.fsideG g).latch) ∧
      ((t.fsideG g).locked = true) ∧ ((t.fioG g).down = none) := by decide +kernel
theorem test_w_FieldSideActsOnVotedFrames_6 :
    let s : State := { after (exec (.downstreamFrameTx 0) live) live with supply := .good }
    let g : Fin 4 := 0
    let x : BitVec 96 := live.downFrame 0
    let n : BitVec 96 := 0
    let low : Bool := true
    let t := after (exec (.fieldDownstreamRx g n low) s) s
    (s.supply ≠ .off) ∧ ((s.fsideG g).running = true) ∧ ((s.fsideG g).locked = false) ∧ ((s.fioG g).down = some x) ∧
      (t.fsideG g =
        { s.fsideG g with lockRun := if downGood (x ^^^ n) = true then min 8 ((s.fsideG g).lockRun + 1) else 0 }) ∧
      ((t.fioG g).down = none) := by decide +kernel
theorem test_w_FieldSideActsOnVotedFrames_7 :
    let s : State := live
    let g : Fin 4 := 0
    let n : BitVec 96 := 0
    let low : Bool := true
    (s.supply = .off ∨ (s.fsideG g).running = false ∨ (s.fioG g).down = none) := by decide +kernel
theorem test_w_FieldSideActsOnVotedFrames_8 :
    let s : State := { live with supply := .good, fside := live.fside.set 0 { FieldSide.start 0 0 0 with running := true, locked := true, on := 15 } }
    let g : Fin 4 := 0
    let t := after (exec (.fieldDownstreamMissing g) s) s
    (s.supply ≠ .off) ∧ ((s.fsideG g).running = true) ∧ ((s.fsideG g).locked = true) ∧ ((s.fioG g).down = none) ∧
      ((t.fsideG g).isOff) ∧ ((t.fsideG g).latch = true) ∧ ((t.fsideG g).locked = false) ∧ (∀ f : Fin 4, f ≠ g →
      t.fsideG f = s.fsideG f) ∧ (t.fio = s.fio) := by decide +kernel
theorem test_w_FieldSideActsOnVotedFrames_9 :
    let s : State := { live with supply := .good, fside := live.fside.set 0 { FieldSide.start 0 0 0 with running := true, lockRun := 3 } }
    let g : Fin 4 := 0
    let t := after (exec (.fieldDownstreamMissing g) s) s
    (s.supply ≠ .off) ∧ ((s.fsideG g).running = true) ∧ ((s.fsideG g).locked = false) ∧ ((s.fioG g).down = none) ∧
      (t.fsideG g = { s.fsideG g with lockRun := 0 }) ∧ (t.fio = s.fio) := by decide +kernel
theorem test_w_FieldSideActsOnVotedFrames_10 :
    let s : State := after (exec (.downstreamFrameTx 0) live) live
    let g : Fin 4 := 0
    (s.supply = .off ∨ (s.fsideG g).running = false ∨ (s.fioG g).down ≠ none) := by decide +kernel
theorem test_w_FieldSideActsOnVotedFrames_11 :
    let s : State := { live with supply := .good, fside := live.fside.set 0 { FieldSide.start 0 0 0 with running := true, rdy := true, genZero := 16 } }
    let g : Fin 4 := 0
    let t := after (exec (.fieldLatchClear g) s) s
    (s.supply ≠ .off) ∧ ((s.fsideG g).running = true) ∧ ((s.fsideG g).rdy = true) ∧ (16 ≤ (s.fsideG g).genZero) ∧
      ((t.fsideG g) = { s.fsideG g with latch := false, rst := false }) ∧ (t.fio = s.fio) := by decide +kernel
theorem test_w_FieldSideActsOnVotedFrames_12 :
    let s : State := { live with supply := .good, fside := live.fside.set 0 { FieldSide.start 0 0 0 with running := true, rdy := true, genZero := 15 } }
    let g : Fin 4 := 0
    (s.supply = .off ∨ (s.fsideG g).running = false ∨ (s.fsideG g).rdy = false ∨ (s.fsideG g).genZero < 16) := by decide +kernel
theorem test_w_FieldSideActsOnVotedFrames_13 :
    let s : State := { live with supply := .good, fside := live.fside.set 0 { FieldSide.start 0 0 0 with running := true } }
    let g : Fin 4 := 0
    let p : FieldPins := ⟨[30000, 0, 60000], [], 0, 0, 0, 0, 0⟩
    let t := after (exec (.fieldUpstreamTx g p) s) s
    (s.supply ≠ .off) ∧ ((s.fsideG g).running = true) ∧ (fld ((s.fsideG g).frame g p) 80 8 = 4) := by decide +kernel
theorem test_w_FieldSideActsOnVotedFrames_14 :
    let s : State := { live with supply := .off }
    let g : Fin 4 := 0
    let p : FieldPins := ⟨[], [], 0, 0, 0, 0, 0⟩
    (s.supply = .off ∨ (s.fsideG g).running = false) := by decide +kernel
theorem test_w_FieldSideActsOnVotedFrames_15 :
    let s : State := { live with fio := live.fio.set 1 { Fio.reset with lockRun := 8 } }
    let g : Fin 4 := 1
    let t := after (exec (.receiverLock g .logic) s) s
    (s.linksOn = true) ∧ (8 ≤ (s.fioG g).lockRun) ∧ (t.fioG g = { s.fioG g with locked := true }) ∧
      (t.fside = s.fside) := by decide +kernel
theorem test_w_FieldSideActsOnVotedFrames_16 :
    let s : State := { live with supply := .good, fside := live.fside.set 0 { FieldSide.start 0 0 0 with running := true, lockRun := 8 } }
    let g : Fin 4 := 0
    let t := after (exec (.receiverLock g .field) s) s
    (s.supply ≠ .off) ∧ ((s.fsideG g).running = true) ∧ (8 ≤ (s.fsideG g).lockRun) ∧
      (t.fsideG g = { s.fsideG g with locked := true, missing := 0 }) ∧ (t.fio = s.fio) := by decide +kernel
theorem test_w_FieldSideActsOnVotedFrames_17 :
    let s : State := live
    let g : Fin 4 := 0
    let e : LinkEnd := .logic
    ((e = .logic ∧ (s.linksOn = false ∨ (s.fioG g).lockRun < 8)) ∨ (e = .field ∧ (s.supply = .off ∨ (s.fsideG
        g).running = false ∨ (s.fsideG g).lockRun < 8))) := by decide +kernel
theorem test_w_UpstreamFramesAndLinkState_1 :
    let s : State := { live with supply := .good, fio := live.fio.set 0 { Fio.reset with up := some ((FieldSide.start 0 0 0).frame 0 ⟨[30000, 0, 60000], [], 0, 0, 0, 0, 0⟩) } }
    let g : Fin 4 := 0
    let x : BitVec 96 := (FieldSide.start 0 0 0).frame 0 ⟨[30000, 0, 60000], [], 0, 0, 0, 0, 0⟩
    let n : BitVec 96 := 0
    let c : FioCopy := FioCopy.reset
    let t := after (exec (.upstreamFrameRx g n) s) s
    (s.linksOn = true) ∧ (s.supply ≠ .off) ∧ (s.quiet) ∧ ((s.fioG g).cp = Vector.replicate 3 c) ∧
      ((s.fioG g).up = some x) ∧ (upGood (x ^^^ n) = true) ∧ ((s.fioG g).seqOk (x ^^^ n) = true) ∧
      ((s.fioG g).accepted = false ∨ (s.fioG g).badRun < 2) ∧ ((t.fioG g).inp = 4 ∧ (t.fioG g).cp[2].filt = 4) := by decide +kernel
theorem test_w_UpstreamFramesAndLinkState_2 :
    let s : State := { live with supply := .good, fio := live.fio.set 0 { Fio.reset with up := some ((FieldSide.start 0 0 0).frame 0 ⟨[30000, 0, 60000], [], 0, 0, 0, 0, 0⟩), accepted := true, badRun := 2 } }
    let g : Fin 4 := 0
    let x : BitVec 96 := (FieldSide.start 0 0 0).frame 0 ⟨[30000, 0, 60000], [], 0, 0, 0, 0, 0⟩
    let n : BitVec 96 := 0
    let c : FioCopy := FioCopy.reset
    let t := after (exec (.upstreamFrameRx g n) s) s
    (s.linksOn = true) ∧ (s.supply ≠ .off) ∧ (s.quiet) ∧ ((s.fioG g).cp = Vector.replicate 3 c) ∧
      ((s.fioG g).up = some x) ∧ (upGood (x ^^^ n) = true) ∧ ((s.fioG g).seqOk (x ^^^ n) = true) ∧
      ((s.fioG g).accepted = true) ∧ (2 ≤ (s.fioG g).badRun) ∧ ((t.fioG g).up = none) ∧ ((t.fioG g).frame = x ^^^ n) ∧
      ((t.fioG g).accepted = false) ∧ ((t.fioG g).goodRun = 1) ∧ ((t.fioG g).lockRun = 1) ∧
      (∀ l : Fin 3, (t.fioG g).cp[l].en = false) := by decide +kernel
theorem test_w_UpstreamFramesAndLinkState_3 :
    let s : State := { live with supply := .good, fio := live.fio.set 0 { Fio.reset with up := some 0 } }
    let g : Fin 4 := 0
    let x : BitVec 96 := 0
    let n : BitVec 96 := 0
    let t := after (exec (.upstreamFrameRx g n) s) s
    (s.linksOn = true) ∧ (s.supply ≠ .off) ∧ ((s.fioG g).up = some x) ∧
      ((upGood (x ^^^ n) && (s.fioG g).seqOk (x ^^^ n)) = false) ∧ ((t.fioG g).up = none) ∧
      ((t.fioG g).frame = (s.fioG g).frame) ∧ ((t.fioG g).cp = (s.fioG g).cp) ∧ ((t.fioG g).goodRun = 0) ∧
      ((t.fioG g).badRun = min 2 ((s.fioG g).badRun + 1)) ∧
      ((t.fioG g).lockRun = if upGood (x ^^^ n) = true then min 8 ((s.fioG g).lockRun + 1) else 0) ∧ (t.pim = s.pim) := by decide +kernel
theorem test_w_UpstreamFramesAndLinkState_4 :
    let s : State := { State.reset with supply := .good, fio := live.fio.set 0 { Fio.reset with up := some 0 } }
    let g : Fin 4 := 0
    let n : BitVec 96 := 0
    (s.supply ≠ .off) ∧ (s.linksOn = false) ∧ ((s.fioG g).up ≠ none) := by decide +kernel
theorem test_w_UpstreamFramesAndLinkState_5 :
    let s : State := live
    let g : Fin 4 := 0
    let n : BitVec 96 := 0
    (s.supply = .off ∨ (s.fioG g).up = none) := by decide +kernel
theorem test_w_UpstreamFramesAndLinkState_6 :
    let s : State := { live with fio := live.fio.set 1 { Fio.reset with accepted := true } }
    let g : Fin 4 := 1
    let t := after (exec (.upstreamFrameMissing g) s) s
    (s.linksOn = true) ∧ ((s.fioG g).up = none) ∧ (s.regsOk) ∧ (t.rd (Reg.fioLinkcnt 1) = 1) := by decide +kernel
theorem test_w_UpstreamFramesAndLinkState_7 :
    let s : State := State.reset
    let g : Fin 4 := 1
    (s.linksOn = false ∨ (s.fioG g).up ≠ none) := by decide +kernel
theorem test_w_UpstreamFramesAndLinkState_8 :
    let s : State := { live with fio := live.fio.set 1 { Fio.reset with accepted := true, badRun := 2, cp := Vector.replicate 3 { FioCopy.reset with en := true } } }
    let g : Fin 4 := 1
    let t := after (exec (.linkLoss g) s) s
    (s.linksOn = true) ∧ ((s.fioG g).accepted = true) ∧ (2 ≤ (s.fioG g).badRun) ∧ (s.regsOk) ∧
      ((t.fioG g).accepted = false) ∧ ((t.fioG g).locked = false) ∧ (∀ l : Fin 3, (t.fioG g).cp[l].en = false) ∧
      (t.rd (Reg.fioLinkcnt g) = satIncFld (s.rd (Reg.fioLinkcnt g)) 16 16) ∧
      (bit (t.rd (0x10010 + 0x1000 * g)) 0 = true) ∧ (s.reports t (0x1001 + 0x100 * g) [0]) ∧ (∀ f : Fin 4, f ≠ g →
      t.fioG f = s.fioG f) := by decide +kernel
theorem test_w_UpstreamFramesAndLinkState_9 :
    let s : State := live
    let g : Fin 4 := 1
    (s.linksOn = false ∨ (s.fioG g).accepted = false ∨ (s.fioG g).badRun < 2) := by decide +kernel
theorem test_w_UpstreamFramesAndLinkState_10 :
    let s : State := { live with fio := live.fio.set 1 { Fio.reset with locked := true, goodRun := 64 } }
    let g : Fin 4 := 1
    let t := after (exec (.linkAccept g) s) s
    (s.linksOn = true) ∧ ((s.fioG g).accepted = false) ∧ ((s.fioG g).locked = true) ∧ (64 ≤ (s.fioG g).goodRun) ∧
      (s.regsOk) ∧ ((t.fioG g).accepted = true) ∧ ((t.fioG g).ever = true) ∧ ((t.fioG g).cp = (s.fioG g).cp) ∧
      (bit (t.rd (0x10010 + 0x1000 * g)) 1 = true) ∧ (∀ f : Fin 4, f ≠ g → t.fioG f = s.fioG f) := by decide +kernel
theorem test_w_UpstreamFramesAndLinkState_11 :
    let s : State := live
    let g : Fin 4 := 1
    (s.linksOn = false ∨ (s.fioG g).accepted = true ∨ (s.fioG g).locked = false ∨ (s.fioG g).goodRun < 64) := by decide +kernel
theorem test_w_UpstreamFramesAndLinkState_12 :
    let s : State := { (live.wr (Reg.fioIncfg 1 2) 1) with fio := live.fio.set 1 { Fio.reset with cp := Vector.replicate 3 { FioCopy.reset with fcnt := Vector.replicate 8 7 } } }
    let g : Fin 4 := 1
    let k : Fin 8 := 2
    let c : FioCopy := { FioCopy.reset with fcnt := Vector.replicate 8 7 }
    let t := after (exec (.inputFilterAccept g k) s) s
    (s.linksOn = true) ∧ (s.quiet) ∧ ((s.fioG g).cp = Vector.replicate 3 c) ∧ (0 < s.filtFrames g k) ∧
      (s.filtFrames g k ≤ c.fcnt[k]) ∧ (s.filtHeld g k = false) ∧
      ((t.fioG g).cp = Vector.replicate 3 { c with filt := setBit c.filt k (!bit c.filt k), fcnt := c.fcnt.set k 0 }) ∧
      (t.regs = s.regs) ∧ (t.mstate = s.mstate) := by decide +kernel
theorem test_w_UpstreamFramesAndLinkState_13 :
    let s : State := live
    let g : Fin 4 := 1
    let k : Fin 8 := 2
    (s.linksOn = false ∨ s.filtFrames g k = 0 ∨ s.filtHeld g k = true ∨ ∀ l : Fin 3, (s.fioG g).cp[l].fcnt[k] <
        s.filtFrames g k) := by decide +kernel
theorem test_w_UpstreamFramesAndLinkState_14 :
    let s : State := { live with fio := live.fio.set 1 { Fio.reset with accepted := true, clsRun := 32, cp := Vector.replicate 3 { FioCopy.reset with en := true } } }
    let g : Fin 4 := 1
    let t := after (exec (.classMismatch g) s) s
    (s.linksOn = true) ∧ ((s.fioG g).accepted = true) ∧ ((s.fioG g).clsRun = 32) ∧ (s.regsOk) ∧
      (∀ l : Fin 3, (t.fioG g).cp[l].en = false) ∧ ((t.fioG g).latchFlt = true) ∧ ((t.fioG g).clsRun = 33) ∧
      (bit (t.rd (0x10010 + 0x1000 * g)) 9 = true) ∧ (s.reports t (0x1009 + 0x100 * g) [0]) := by decide +kernel
theorem test_w_UpstreamFramesAndLinkState_15 :
    let s : State := live
    let g : Fin 4 := 1
    (s.linksOn = false ∨ (s.fioG g).accepted = false ∨ (s.fioG g).clsRun ≠ 32) := by decide +kernel
theorem test_w_UpstreamFramesAndLinkState_16 :
    let s : State := { live with fio := live.fio.set 1 { Fio.reset with accepted := true, vwRun := Vector.replicate 3 16 } }
    let g : Fin 4 := 1
    let l : Fin 3 := 2
    let t := after (exec (.laneWordInvalid g l) s) s
    (s.linksOn = true) ∧ ((s.fioG g).accepted = true) ∧ ((s.fioG g).vwRun[l] = 16) ∧ (s.safeLatch = false) ∧
      (s.lanes.counts l = true) ∧ ((t.fioG g).vwRun[l] = 17) ∧ (s.reports t (0x100e + 0x100 * g) [wd l]) ∧
      (t.fside = s.fside) ∧ (t.pim = s.pim) := by decide +kernel
theorem test_w_UpstreamFramesAndLinkState_17 :
    let s : State := live
    let g : Fin 4 := 1
    let l : Fin 3 := 2
    (s.linksOn = false ∨ (s.fioG g).accepted = false ∨ (s.fioG g).vwRun[l] ≠ 16 ∨ s.lanes.counts l = false ∨
        s.safeLatch = true) := by decide +kernel
theorem test_w_TestPulsesAndSources_1 :
    let s : State := { (live.wr (Reg.fioTscfg 1) 0x40010100) with now := 10000000 }
    let g : Fin 4 := 1
    let j : Fin 2 := 0
    let t := after (exec (.testSourcePulseStart g j) s) s
    (s.linksOn = true) ∧ (s.mstate ≠ .safe) ∧ (bit (s.rd (Reg.fioTscfg g)) (30 + j) = true) ∧
      (∀ i : Fin 2, (s.fioG g).ts[i].active = none) ∧ ((s.fioG g).ts[j].next ≤ s.now) ∧
      ((t.fioG g).ts[j].active = some s.now) ∧ (s.now < (t.fioG g).ts[j].next ∨ s.tsInt g = 0) ∧ (j = 0 →
      (t.fioG g).ts[1].next = s.now + s.tsInt g / 2) ∧ (∀ l : Fin 3, bit (t.fioG g).cp[l].tsSeen j = false) ∧
      (t.regs = s.regs) ∧ (t.pim = s.pim) := by decide +kernel
theorem test_w_TestPulsesAndSources_2 :
    let s : State := live
    let g : Fin 4 := 1
    let j : Fin 2 := 0
    (s.linksOn = false ∨ s.mstate = .safe ∨ bit (s.rd (Reg.fioTscfg g)) (30 + j) = false ∨ (∃ i : Fin 2, (s.fioG
        g).ts[i].active ≠ none) ∨ s.now < (s.fioG g).ts[j].next) := by decide +kernel
theorem test_w_TestPulsesAndSources_3 :
    let s : State := { ((live.wr (Reg.fioTscfg 1) 0x40010100).wr (Reg.fioIncfg 1 3) 0x10000) with now := 10000000000, fio := live.fio.set 1 { Fio.reset with accepted := true, cp := Vector.replicate 3 { FioCopy.reset with tsSeen := 1 }, ts := #v[⟨10000000, some 5, 0⟩, ⟨15000000, none, 0⟩] } }
    let g : Fin 4 := 1
    let j : Fin 2 := 0
    let u : Nat := 5
    let c : FioCopy := { FioCopy.reset with tsSeen := 1 }
    let t := after (exec (.testSourcePulseEnd g j) s) s
    (s.linksOn = true) ∧ (s.quiet) ∧ ((s.fioG g).cp = Vector.replicate 3 c) ∧ ((s.fioG g).ts[j].active = some u) ∧
      (u + s.tsWidth g ≤ s.now) ∧ ((t.fioG 1).cp[1].good = 0xf7) := by decide +kernel
theorem test_w_TestPulsesAndSources_4 :
    let s : State := live
    let g : Fin 4 := 1
    let j : Fin 2 := 0
    (s.linksOn = false ∨ (s.fioG g).ts[j].active = none ∨ ∀ u, (s.fioG g).ts[j].active = some u →
      s.now < u + s.tsWidth g) := by exact .inr (.inl rfl)
theorem test_w_TestPulsesAndSources_5 :
    let s : State := { live with supply := .good, fside := live.fside.set 0 { FieldSide.start 0 0 0 with running := true } }
    let g : Fin 4 := 0
    let f : Byte := 3
    let t := after (exec (.comparatorTest g f) s) s
    (s.supply ≠ .off) ∧ ((s.fsideG g).running = true) ∧ (t.fsideG g = { s.fsideG g with cmp := f }) ∧ (t.fio = s.fio) := by decide +kernel
theorem test_w_TestPulsesAndSources_6 :
    let s : State := { live with supply := .off }
    let g : Fin 4 := 0
    let f : Byte := 3
    (s.supply = .off ∨ (s.fsideG g).running = false) := by decide +kernel
theorem test_w_TestPulsesAndSources_7 :
    let s : State := { (live.wr (Reg.fioCtrl 1) 0x40) with fio := live.fio.set 1 { Fio.reset with cp := Vector.replicate 3 { FioCopy.reset with en := true }, tp := Vector.replicate 4 { TestPulse.reset with req := true } }, lanes := { Lanes.reset with lcr := Vector.replicate 3 0x20040 } }
    let g : Fin 4 := 1
    let k : Fin 4 := 2
    let t := after (exec (.testPulseStart g k) s) s
    (s.reflexOn = true) ∧ (s.tpDue g k = true ∨ (s.fioG g).tp[k].req = true) ∧ (s.fioOuten g k = true) ∧
      ((s.fioG g).tp[k].active = none) ∧ (s.outOn g k = true) ∧ (s.tpTurn g k = true) ∧
      ((t.fioG g).tp[k].active = some (s.now, s.now + ceilDiv (s.tpWidth g k) 160 * 160)) ∧
      ((t.fioG g).tp[k].req = false) ∧ (∀ j : Fin 4, j.val = k.val + 1 → k.val % 2 = 0 → s.fioPair g (k / 2) = true →
      (t.fioG g).tp[j].next = s.now + s.tpInt g k / 2) ∧ (t.regs = s.regs) ∧ (t.lanes = s.lanes) := by decide +kernel
theorem test_w_TestPulsesAndSources_8 :
    let s : State := live
    let g : Fin 4 := 1
    let k : Fin 4 := 2
    (s.reflexOn = false ∨ (s.tpDue g k = false ∧ (s.fioG g).tp[k].req = false) ∨ s.fioOuten g k = false ∨ (s.fioG
        g).tp[k].active ≠ none ∨ s.outOn g k = false ∨ s.tpTurn g k = false) := by decide +kernel
theorem test_w_TestPulsesAndSources_9 :
    let s : State := { live with now := 100, fio := live.fio.set 1 { Fio.reset with accepted := true, tp := Vector.replicate 4 { TestPulse.reset with active := some (0, 50), passed := true } } }
    let g : Fin 4 := 1
    let k : Fin 4 := 2
    let a : Nat := 0
    let b : Nat := 50
    let t := after (exec (.testPulseEnd g k) s) s
    (s.linksOn = true) ∧ ((s.fioG g).tp[k].active = some (a, b)) ∧ (b ≤ s.now) ∧ ((s.fioG g).accepted = true) ∧
      ((s.fioG g).tp[k].passed = true) ∧ ((t.fioG g).tp[k].active = none) ∧ ((t.fioG g).tp[k].tested = s.now) ∧
      ((t.fioG g).tp[k].next = s.now + s.tpInt g k) ∧ ((t.fioG g).tp[k].failed = false) ∧
      ((t.fioG g).tp[k].owed = false) ∧ ((t.fioG g).cp = (s.fioG g).cp) ∧ (t.regs = s.regs) := by decide +kernel
theorem test_w_TestPulsesAndSources_10 :
    let s : State := { live with now := 100, fio := live.fio.set 1 { Fio.reset with accepted := true, cp := Vector.replicate 3 { FioCopy.reset with en := true }, tp := Vector.replicate 4 { TestPulse.reset with active := some (0, 50) } } }
    let g : Fin 4 := 1
    let k : Fin 4 := 2
    let a : Nat := 0
    let b : Nat := 50
    let t := after (exec (.testPulseEnd g k) s) s
    (s.linksOn = true) ∧ ((s.fioG g).tp[k].active = some (a, b)) ∧ (b ≤ s.now) ∧ ((s.fioG g).accepted = true) ∧
      ((s.fioG g).tp[k].passed = false) ∧ (s.regsOk) ∧ ((t.fioG g).tp[k].active = none) ∧
      ((t.fioG g).tp[k].failed = true) ∧ (∀ l : Fin 3, (t.fioG g).cp[l].en = false) ∧
      (bit (t.rd (0x10010 + 0x1000 * g)) 6 = true) ∧ (bit (t.rd (0x10010 + 0x1000 * g)) 8 = true) ∧
      (s.reports t (0x1005 + 0x100 * g) [wd k]) := by decide +kernel
theorem test_w_TestPulsesAndSources_11 :
    let s : State := { live with now := 100, fio := live.fio.set 1 { Fio.reset with tp := Vector.replicate 4 { TestPulse.reset with active := some (0, 50) } } }
    let g : Fin 4 := 1
    let k : Fin 4 := 2
    let a : Nat := 0
    let b : Nat := 50
    let t := after (exec (.testPulseEnd g k) s) s
    (s.linksOn = true) ∧ ((s.fioG g).tp[k].active = some (a, b)) ∧ (b ≤ s.now) ∧ ((s.fioG g).accepted = false) ∧
      ((t.fioG g).tp[k].active = none) ∧ ((t.fioG g).tp[k].next ≤ s.now) ∧ ((t.fioG g).tp[k].owed = true) ∧
      ((t.fioG g).cp = (s.fioG g).cp) ∧ (t.regs = s.regs) := by decide +kernel
theorem test_w_TestPulsesAndSources_12 :
    let s : State := live
    let g : Fin 4 := 1
    let k : Fin 4 := 2
    (s.linksOn = false ∨ (s.fioG g).tp[k].active = none ∨ ∀ a b, (s.fioG g).tp[k].active = some (a, b) → s.now < b) := by exact .inr (.inl rfl)
theorem test_w_TestPulsesAndSources_13 :
    let s : State := live.wr (Reg.fioCtrl 1) 0x40
    let g : Fin 4 := 1
    let v : Word := 0xf
    let t := after (exec (.testPulseRequest .pf0 g v) s) s
    (s.booted = true) ∧ (s.sealRo (0x10 + g) = false) ∧ ((t.fioG 1).tp[2].req = true ∧ (t.fioG 1).tp[1].req = false) := by decide +kernel
theorem test_w_TestPulsesAndSources_14 :
    let s : State := live
    let pf : Pf := .pf1
    let g : Fin 4 := 1
    let v : Word := 0xf
    (s.booted = true) ∧ (pf = .pf1 ∨ s.sealRo (0x10 + g) = true) := by decide +kernel
theorem test_w_TestPulsesAndSources_15 :
    let s : State := State.reset
    let pf : Pf := .pf0
    let g : Fin 4 := 1
    let v : Word := 0xf
    (s.booted = false) := by decide +kernel
theorem test_w_OutputFaultsAndFieldSupply_1 :
    let s : State := { live with now := 3000000, fio := live.fio.set 1 { Fio.reset with accepted := true, cp := Vector.replicate 3 { FioCopy.reset with en := true }, stuck := Vector.replicate 4 (.since 0) } }
    let g : Fin 4 := 1
    let k : Fin 4 := 2
    let t := after (exec (.outputStuckOn g k) s) s
    (s.linksOn = true) ∧ ((s.fioG g).accepted = true) ∧ ((s.fioG g).stuck[k].ripe s.now 2000000 = true) ∧
      (s.regsOk) ∧ (∀ l : Fin 3, (t.fioG g).cp[l].en = false) ∧ ((t.fioG g).stuck[k] = .told) ∧
      ((t.fioG g).latchFlt = true) ∧ (bit (t.rd (0x10010 + 0x1000 * g)) 6 = true) ∧
      (s.reports t (0x1005 + 0x100 * g) [wd k]) := by decide +kernel
theorem test_w_OutputFaultsAndFieldSupply_2 :
    let s : State := live
    let g : Fin 4 := 1
    let k : Fin 4 := 2
    (s.linksOn = false ∨ (s.fioG g).accepted = false ∨ (s.fioG g).stuck[k].ripe s.now 2000000 = false) := by decide +kernel
theorem test_w_OutputFaultsAndFieldSupply_3 :
    let s : State := { live with now := 3000000, fio := live.fio.set 1 { Fio.reset with accepted := true, cp := Vector.replicate 3 { FioCopy.reset with en := true }, short := Vector.replicate 4 (.since 0) } }
    let g : Fin 4 := 1
    let k : Fin 4 := 2
    let t := after (exec (.outputShort g k) s) s
    (s.linksOn = true) ∧ ((s.fioG g).accepted = true) ∧ ((s.fioG g).short[k].ripe s.now 2000000 = true) ∧
      (s.regsOk) ∧ ((t.fioG g).cp = (s.fioG g).cp) ∧ ((t.fioG g).short[k] = .told) ∧
      (bit (t.rd (0x10010 + 0x1000 * g)) 6 = true) ∧ (s.reports t (0x1006 + 0x100 * g) [wd k]) ∧ (t.pim = s.pim) := by decide +kernel
theorem test_w_OutputFaultsAndFieldSupply_4 :
    let s : State := live
    let g : Fin 4 := 1
    let k : Fin 4 := 2
    (s.linksOn = false ∨ (s.fioG g).accepted = false ∨ (s.fioG g).short[k].ripe s.now 2000000 = false) := by decide +kernel
theorem test_w_OutputFaultsAndFieldSupply_5 :
    let s : State := { live with now := 100000000, fio := live.fio.set 1 { Fio.reset with accepted := true, cp := Vector.replicate 3 { FioCopy.reset with en := true }, openLd := Vector.replicate 4 (.since 0) } }
    let g : Fin 4 := 1
    let k : Fin 4 := 2
    let t := after (exec (.openLoad g k) s) s
    (s.linksOn = true) ∧ ((s.fioG g).accepted = true) ∧ ((s.fioG g).openLd[k].ripe s.now 100000000 = true) ∧
      (s.regsOk) ∧ ((t.fioG g).cp = (s.fioG g).cp) ∧ ((t.fioG g).openLd[k] = .told) ∧
      (bit (t.rd (0x10010 + 0x1000 * g)) 6 = true) ∧ (s.reports t (0x1007 + 0x100 * g) [wd k]) ∧ (t.pim = s.pim) := by decide +kernel
theorem test_w_OutputFaultsAndFieldSupply_6 :
    let s : State := live
    let g : Fin 4 := 1
    let k : Fin 4 := 2
    (s.linksOn = false ∨ (s.fioG g).accepted = false ∨ (s.fioG g).openLd[k].ripe s.now 100000000 = false) := by decide +kernel
theorem test_w_OutputFaultsAndFieldSupply_7 :
    let s : State := { live with now := 3000000, fio := live.fio.set 1 { Fio.reset with accepted := true, cp := Vector.replicate 3 { FioCopy.reset with en := true }, pair := Vector.replicate 2 (.since 0) } }
    let g : Fin 4 := 1
    let q : Fin 2 := 1
    let t := after (exec (.pairDiscrepancy g q) s) s
    (s.linksOn = true) ∧ ((s.fioG g).accepted = true) ∧ ((s.fioG g).pair[q].ripe s.now 2000000 = true) ∧ (s.regsOk) ∧
      (∀ l : Fin 3, (t.fioG g).cp[l].en = false) ∧ ((t.fioG g).pair[q] = .told) ∧
      (bit (t.rd (0x10010 + 0x1000 * g)) 10 = true) ∧ (s.reports t (0x100d + 0x100 * g) [wd (2 * q)]) := by decide +kernel
theorem test_w_OutputFaultsAndFieldSupply_8 :
    let s : State := live
    let g : Fin 4 := 1
    let q : Fin 2 := 1
    (s.linksOn = false ∨ (s.fioG g).accepted = false ∨ (s.fioG g).pair[q].ripe s.now 2000000 = false) := by decide +kernel
theorem test_w_OutputFaultsAndFieldSupply_9 :
    let s : State := { live with supply := .good, fside := live.fside.set 0 { FieldSide.start 0 0 0 with running := true, on := 15, cfg1 := 0x3f, gsw := true } }
    let g : Fin 4 := 0
    let k : Fin 4 := 2
    let hot : Bool := true
    let t := after (exec (.outputTrip g k hot) s) s
    (s.supply ≠ .off) ∧ ((s.fsideG g).running = true) ∧ ((s.fsideG g).gate k = true) ∧
      ((t.fsideG g).gate k = false) ∧ (bit (s.fsideG g).cfg1 (k / 2) = true → ∀ j : Fin 4, j.val / 2 = k.val / 2 →
      (t.fsideG g).gate j = false) ∧ (∀ j : Fin 4, j.val / 2 ≠ k.val / 2 → (t.fsideG g).gate j = (s.fsideG g).gate j) ∧
      (bit (if hot = true then (t.fsideG g).ovt else (t.fsideG g).ovc) k = true) ∧
      ((t.fsideG g).on = (s.fsideG g).on) ∧ (t.fio = s.fio) := by decide +kernel
theorem test_w_OutputFaultsAndFieldSupply_10 :
    let s : State := { live with supply := .good, fside := live.fside.set 0 { FieldSide.start 0 0 0 with running := true } }
    let g : Fin 4 := 0
    let k : Fin 4 := 2
    let hot : Bool := true
    (s.supply = .off ∨ (s.fsideG g).running = false ∨ (s.fsideG g).gate k = false) := by decide +kernel
theorem test_w_OutputFaultsAndFieldSupply_11 :
    let s : State := { live with supply := .good, fside := live.fside.set 0 { FieldSide.start 0 0 0 with running := true, rdy := true } }
    let g : Fin 4 := 0
    let mv : Nat := 39999
    let x : BitVec 2 := 3
    let t := after (exec (.supplyThresholdCross g mv) s) s
    (s.supply ≠ .off) ∧ ((s.fsideG g).running = true) ∧
      ((vClass (bit (s.fsideG g).cfg0 0)).sup (s.fsideG g).sup.toNat mv = x) ∧ ((t.fsideG g).lplus = mv) ∧
      ((t.fsideG g).sup = x) ∧ ((t.fsideG g).rdy = ((s.fsideG g).rdy && decide (x.toNat < 2))) ∧
      ((t.fsideG g).cutAt = if x = 3 then some ((s.fsideG g).cutAt.getD s.now) else none) ∧
      ((t.fsideG g).validAt = if x.toNat < 2 then some ((s.fsideG g).validAt.getD s.now) else none) ∧
      ((t.fsideG g).on = (s.fsideG g).on) ∧ (t.fio = s.fio) := by decide +kernel
theorem test_w_OutputFaultsAndFieldSupply_12 :
    let s : State := { live with supply := .off }
    let g : Fin 4 := 0
    let mv : Nat := 39999
    (s.supply = .off ∨ (s.fsideG g).running = false) := by decide +kernel
theorem test_w_OutputFaultsAndFieldSupply_13 :
    let s : State := { live with now := 2000000, supply := .good, fside := live.fside.set 0 { FieldSide.start 0 0 0 with running := true, on := 15 } }
    let g : Fin 4 := 0
    let u : Nat := 0
    let t := after (exec (.supplyCutoff g) s) s
    (s.supply ≠ .off) ∧ ((s.fsideG g).running = true) ∧ ((s.fsideG g).cutAt = some u) ∧ (u + 2000000 ≤ s.now) ∧
      ((t.fsideG g).isOff) ∧ ((t.fsideG g).latch = true) ∧ (t.fio = s.fio) := by decide +kernel
theorem test_w_OutputFaultsAndFieldSupply_14 :
    let s : State := { live with supply := .off }
    let g : Fin 4 := 0
    (s.supply = .off ∨ (s.fsideG g).running = false ∨ (s.fsideG g).cutAt = none ∨ ∀ u, (s.fsideG g).cutAt = some u →
      s.now < u + 2000000) := by exact .inl rfl
theorem test_w_OutputFaultsAndFieldSupply_15 :
    let s : State := { live with now := 10000000, supply := .good, fside := live.fside.set 0 { FieldSide.start 50000 0 0 with running := true } }
    let g : Fin 4 := 0
    let u : Nat := 0
    let t := after (exec (.supplyReady g) s) s
    (s.supply ≠ .off) ∧ ((s.fsideG g).running = true) ∧ ((s.fsideG g).validAt = some u) ∧ (u + 10000000 ≤ s.now) ∧
      (t.fsideG g = { s.fsideG g with rdy := true }) ∧ (t.fio = s.fio) := by decide +kernel
theorem test_w_OutputFaultsAndFieldSupply_16 :
    let s : State := { live with supply := .off }
    let g : Fin 4 := 0
    (s.supply = .off ∨ (s.fsideG g).running = false ∨ (s.fsideG g).validAt = none ∨ ∀ u, (s.fsideG g).validAt = some
        u → s.now < u + 10000000) := by exact .inl rfl
theorem test_w_OutputFaultsAndFieldSupply_17 :
    let s : State := { live with supply := .good, fside := live.fside.set 0 { FieldSide.start 0 0 0 with running := true, on := 15 } }
    let g : Fin 4 := 0
    let t := after (exec (.fieldSideReset g) s) s
    (s.supply ≠ .off) ∧ ((t.fsideG g).isOff) ∧ ((t.fsideG g).latch = true) ∧ ((t.fsideG g).rst = true) ∧
      ((t.fsideG g).running = false) ∧ (t.fio = s.fio) := by decide +kernel
theorem test_w_OutputFaultsAndFieldSupply_18 :
    let s : State := { live with supply := .off }
    let g : Fin 4 := 0
    (s.supply = .off) := by decide +kernel
theorem test_w_OutputFaultsAndFieldSupply_19 :
    let s : State := { live with supply := .good, fside := live.fside.set 0 { FieldSide.start 0 0 0 with running := false } }
    let g : Fin 4 := 0
    let t := after (exec (.fieldSideRestart g) s) s
    (s.supply ≠ .off) ∧ ((s.fsideG g).running = false) ∧ ((t.fsideG g).running = true) ∧ ((t.fsideG g).isOff) ∧
      ((t.fsideG g).latch = true) ∧ ((t.fsideG g).rst = true) ∧ ((t.fsideG g).rdy = false) ∧
      ((t.fsideG g).lplus = (s.fsideG g).lplus) ∧ (t.fio = s.fio) := by decide +kernel
theorem test_w_OutputFaultsAndFieldSupply_20 :
    let s : State := { live with supply := .off }
    let g : Fin 4 := 0
    (s.supply = .off ∨ (s.fsideG g).running = true) := by decide +kernel
theorem test_w_ReflexRulesLatchAndRelease_1 :
    let s : State := (live.wr (Reg.rfxRcond 3) 0x401).wr (Reg.rfxRcond 5) 0x402
    let u : State := { s with rfx := { s.rfx with ovr := true } }
    let t := after (exec (.reflexEvaluate CopyUpset.none) s) s
    (s.reflexOn = true) ∧ (s.quiet) ∧ (s.copiesAlike) ∧
      (((after (exec (.reflexEvaluate CopyUpset.none) u) u).rule 1 3).latch = true) ∧
      (((after (exec (.reflexEvaluate CopyUpset.none) u) u).rule 1 5).latch = false) := by decide +kernel
theorem test_w_ReflexRulesLatchAndRelease_2 :
    let s : State := State.reset
    let u : CopyUpset := CopyUpset.none
    (s.reflexOn = false) := by decide +kernel
theorem test_w_ReflexRulesLatchAndRelease_3 :
    let s : State := { live.wr (Reg.rfxRact 3) 4 with rfx := { Rfx.reset with rules := Vector.replicate 3 ((Vector.replicate 64 Rule.reset).set 3 { Rule.reset with latch := true }) } }
    let l : Fin 3 := 1
    let r : Fin 64 := 3
    let i : Nat := 2
    ((s.rule l r).latch = true) ∧ (i < 16) ∧ (bit (s.ract r) i = true) ∧ (bit (s.deoff l) i = true) := by decide +kernel
theorem test_w_ReflexRulesLatchAndRelease_4 :
    let s : State := { (live.wr (Reg.rfxRcond 3) 0x100).wr (Reg.rfxRrst 3) 0x01 with now := 100000000000, fio := live.fio.set 0 { Fio.reset with accepted := true, cp := Vector.replicate 3 { FioCopy.reset with filt := 0xff }, frame := 0x10001000000000000 }, rfx := { Rfx.reset with rules := Vector.replicate 3 ((Vector.replicate 64 Rule.reset).set 3 { Rule.reset with pressed := true, armed := true, since := some 0 }) } }
    let r : Fin 64 := 3
    let t := after (exec (.resetButtonStuck r) s) s
    (s.reflexOn = true) ∧ (fld (s.rrst r) 0 2 ≠ 0) ∧ (∀ l : Fin 3, (s.resetIn l r).2 = true ∧
      (s.rule l r).pressed = true ∧ (s.rule l r).stuck = false ∧ s.overRstmax (s.rule l r) = true) ∧ (s.regsOk) ∧
      (∀ l : Fin 3, (t.rule l r).stuck = true ∧ (t.rule l r).armed = false ∧ (t.rule l r).latch = (s.rule l r).latch) ∧
      (bit (t.rd 0x14010) 2 = true) ∧ (s.reports t 0x1401 [wd r]) ∧ (t.pim = s.pim) := by decide +kernel
theorem test_w_ReflexRulesLatchAndRelease_5 :
    let s : State := State.reset
    let r : Fin 64 := 3
    (s.reflexOn = false ∨ fld (s.rrst r) 0 2 = 0 ∨ ∀ l : Fin 3, (s.resetIn l r).2 = false ∨ (s.rule l r).pressed =
        false ∨ (s.rule l r).stuck = true ∨ s.overRstmax (s.rule l r) = false) := by decide +kernel
theorem test_w_AxesCountAndAgree_1 :
    let l : Lanes := Lanes.reset
    let a : Word := 5
    let b : Word := 9
    let c : Word := 5
    (l.held = 0) ∧ ((l.agree a b c).1 = a ∨ (l.agree a b c).1 = b ∨ (l.agree a b c).1 = c) ∧
      (bit (l.agree a b c).2 0 = decide (2 < (sfld (a - (l.agree a b c).1) 0 32).natAbs)) ∧
      (bit (l.agree a b c).2 1 = decide (2 < (sfld (b - (l.agree a b c).1) 0 32).natAbs)) ∧
      (bit (l.agree a b c).2 2 = decide (2 < (sfld (c - (l.agree a b c).1) 0 32).natAbs)) ∧ (a = b →
      (l.agree a b c).1 = a) ∧ (a = c → (l.agree a b c).1 = a) ∧ (b = c → (l.agree a b c).1 = b) := by decide +kernel
theorem test_w_AxesCountAndAgree_2 :
    let s : State := { live with now := 5500, mot := { live.mot with axes := live.mot.axes.set 2 { Axis.reset with now := 3, lane := Vector.replicate 3 { AxLane.reset with cnt := 7 } } } }
    let e : Nat := 5000
    let t := after (exec (.agreementEpoch WriteUpset.none) s) s
    (s.booted = true) ∧ (s.quiet) ∧ (e = s.now / 1000 * 1000) ∧ (s.mot.epoch < e) ∧ (e + 200 ≤ s.now) ∧
      (s.pimc.retry = none) ∧ (s.triggersBy e = false) ∧ ((t.axis 2).now = 7 ∧ (t.axis 2).fault = false ∧
      t.lanes.devCnt = Vector.replicate 3 0) := by decide +kernel
theorem test_w_AxesCountAndAgree_3 :
    let s : State := { live with now := 5100 }
    let u : WriteUpset := WriteUpset.none
    (s.booted = false ∨ s.now / 1000 * 1000 ≤ s.mot.epoch ∨ s.now % 1000 < 200 ∨ s.pimc.retry ≠ none ∨ s.triggersBy
        (s.now / 1000 * 1000) = true) := by decide +kernel
theorem test_w_AxesCountAndAgree_4 :
    let s : State := { live with lanes := { Lanes.reset with devCnt := #v[0, 16, 3] } }
    let l : Fin 3 := 1
    let t := after (exec .inputAgreementOdd s) s
    (s.booted = true) ∧ (s.lanes.held = 0) ∧ (s.lanes.oddLog = []) ∧ (16 ≤ s.lanes.devCnt[l]) ∧ (∀ m : Fin 3, m ≠ l →
      s.lanes.devCnt[m] < 16) ∧ (s.regsOk) ∧ (t.lanes.held = BitVec.ofNat 3 (2 ^ l.val)) ∧
      (t.rd Reg.voteLastodd = wd (l.val + 5 * 16 + 0x80000000)) ∧ (t.lanes.devCnt[l] = 0) ∧ (t.mstate = s.mstate) ∧
      (t.pim = s.pim) := by decide +kernel
theorem test_w_AxesCountAndAgree_5 :
    let s : State := { live with lanes := { Lanes.reset with devCnt := #v[0, 16, 16] } }
    let t := after (exec .inputAgreementOdd s) s
    (s.booted = true) ∧ (s.safeLatch = false) ∧ (s.lanes.held = 0) ∧ (∃ i j : Fin 3, i ≠ j ∧ 16 ≤ s.lanes.devCnt[i] ∧
      16 ≤ s.lanes.devCnt[j]) ∧ (t.mstate = .safe) ∧ (t.safeLatch = true) := by decide +kernel
theorem test_w_AxesCountAndAgree_6 :
    let s : State := live
    (s.booted = false ∨ ∀ i : Fin 3, s.lanes.counts i = true → s.lanes.devCnt[i] < 16) := by decide +kernel
theorem test_w_AxesCountAndAgree_7 :
    let s : State := live.wr (Reg.axsAcfg 0 2) 1
    let a : Fin 12 := 2
    let m : BitVec 3 := 3
    let pa : Bool := true
    let pb : Bool := true
    let t := after (exec (.axisEdge a m pa pb) s) s
    (s.booted = true) ∧ (s.axMode a ∈ [1, 4, 5]) ∧ ((t.axis a).lane[1].ill = 1 ∧ (t.axis a).lane[2].ill = 0 ∧
      (t.axis a).lane[0].a = true) := by decide +kernel
theorem test_w_AxesCountAndAgree_8 :
    let s : State := live
    let a : Fin 12 := 2
    let m : BitVec 3 := 3
    let pa : Bool := true
    let pb : Bool := true
    (s.booted = false ∨ s.axMode a ∉ [1, 4, 5]) := by decide +kernel
theorem test_w_AxesCountAndAgree_9 :
    let s : State := live.wr (Reg.axsAcfg 0 2) 0x101
    let a : Fin 12 := 2
    let m : BitVec 3 := 5
    let t := after (exec (.zMark a m) s) s
    (s.booted = true) ∧ (s.axMode a = 1) ∧ (s.axZen a = true) ∧
      (∀ i : Fin 3, (t.axis a).lane[i].zpos = if bit m i then (s.axis a).lane[i].cnt else (s.axis a).lane[i].zpos) ∧
      (∀ i : Fin 3, (t.axis a).lane[i].zcnt = if bit m i then (s.axis a).lane[i].zcnt + 1 else (s.axis a).lane[i].zcnt)
        ∧ (∀ i : Fin 3, (t.axis a).lane[i].cnt = (s.axis a).lane[i].cnt) ∧ (t.regs = s.regs) := by decide +kernel
theorem test_w_AxesCountAndAgree_10 :
    let s : State := live
    let a : Fin 12 := 2
    let m : BitVec 3 := 5
    (s.booted = false ∨ s.axMode a ≠ 1 ∨ s.axZen a = false) := by decide +kernel
theorem test_w_AxesCountAndAgree_11 :
    let s : State := live.wr (Reg.axsAcfg 0 2) 2
    let a : Fin 12 := 2
    let t := after (exec (.ssiFrameStart a false) s) s
    (s.booted = true) ∧ (s.axMode a = 2) ∧ ((s.axis a).ssiDue ≤ s.now / s.ssiPer a * s.ssiPer a) ∧
      ((s.axis a).ssiBusy = false) ∧ ((t.axis a).ssiBusy = true) ∧
      ((t.axis a).ssiDue = s.now / s.ssiPer a * s.ssiPer a + s.ssiPer a) ∧ ((t.axis a).fault = (s.axis a).fault) ∧
      ((t.axis a).lane = (s.axis a).lane) ∧ (t.regs = s.regs) := by decide +kernel
theorem test_w_AxesCountAndAgree_12 :
    let s : State := live.wr (Reg.axsAcfg 0 2) 2
    let a : Fin 12 := 2
    let low : Bool := true
    let t := after (exec (.ssiFrameStart a low) s) s
    (s.booted = true) ∧ (s.axMode a = 2) ∧ ((s.axis a).ssiDue ≤ s.now / s.ssiPer a * s.ssiPer a) ∧
      ((s.axis a).ssiBusy = true ∨ low = true) ∧ (s.regsOk) ∧ ((t.axis a).ssiBusy = !low) ∧
      ((t.axis a).ssiDue = s.now / s.ssiPer a * s.ssiPer a + s.ssiPer a) ∧ ((t.axis a).fault = true) ∧
      (t.rd (Reg.axsErrcnt (a / 6) (a % 6)) = satIncFld (s.rd (Reg.axsErrcnt (a / 6) (a % 6))) 16 16) := by decide +kernel
theorem test_w_AxesCountAndAgree_13 :
    let s : State := live
    let a : Fin 12 := 2
    let low : Bool := true
    (s.booted = false ∨ s.axMode a ≠ 2 ∨ s.now / s.ssiPer a * s.ssiPer a < (s.axis a).ssiDue) := by decide +kernel
theorem test_w_AxesCountAndAgree_14 :
    let s : State := { (live.wr (Reg.axsAcfg 0 2) 2).wr (Reg.axsSsicfg 0 2) 0x10000c with mot := { live.mot with axes := live.mot.axes.set 2 { Axis.reset with ssiBusy := true } } }
    let a : Fin 12 := 2
    let ra : Word := 7
    let rb : Word := 7
    let rc : Word := 6
    let err : Bool := false
    let n : Nat := 12
    let x : Fin 3 → Nat := fun i => if i = 2 then 4 else 5
    let t := after (exec (.ssiFrameEnd a ra err true rb rc) s) s
    (s.booted = true) ∧ (s.axMode a = 2) ∧ ((s.axis a).ssiBusy = true) ∧ (fld (s.ssicfg a) 0 6 = n) ∧
      (bit (s.ssicfg a) 21 = false ∨ err = false) ∧
      (∀ i : Fin 3, x i = if bit (s.ssicfg a) 20 then grayValue (#v[ra, rb, rc][i].toNat % 2 ^ n) n else #v[ra, rb,
        rc][i].toNat % 2 ^ n) ∧ ((t.axis a).ssiBusy = false) ∧ ((t.axis a).ssiHave = true) ∧
      (∀ i : Fin 3, (t.axis a).lane[i].raw = wd (x i)) ∧
      (∀ i : Fin 3, (t.axis a).lane[i].cnt = if (s.axis a).ssiHave then (s.axis a).lane[i].cnt + wi ((if s.axInv a then
        -1 else 1) * ssiStep (s.axis a).lane[i].raw.toNat (x i) n) else wi ((if s.axInv a then -1 else 1) * x i)) ∧
      (t.regs = s.regs) := by decide +kernel
theorem test_w_AxesCountAndAgree_15 :
    let s : State := { (live.wr (Reg.axsAcfg 0 2) 2).wr (Reg.axsSsicfg 0 2) 0x10000c with mot := { live.mot with axes := live.mot.axes.set 2 { Axis.reset with ssiBusy := true } } }
    let a : Fin 12 := 2
    let ra : Word := 7
    let rb : Word := 7
    let rc : Word := 7
    let err : Bool := false
    let ok : Bool := false
    let t := after (exec (.ssiFrameEnd a ra err ok rb rc) s) s
    (s.booted = true) ∧ (s.axMode a = 2) ∧ ((s.axis a).ssiBusy = true) ∧
      (ok = false ∨ (err = true ∧ bit (s.ssicfg a) 21 = true)) ∧ (s.regsOk) ∧ ((t.axis a).ssiBusy = false) ∧
      ((t.axis a).fault = true) ∧ ((t.axis a).lane = (s.axis a).lane) ∧
      (t.rd (Reg.axsErrcnt (a / 6) (a % 6)) = satIncFld (s.rd (Reg.axsErrcnt (a / 6) (a % 6))) 16 16) := by decide +kernel
theorem test_w_AxesCountAndAgree_16 :
    let s : State := live
    let a : Fin 12 := 2
    let ra : Word := 7
    let rb : Word := 7
    let rc : Word := 7
    let err : Bool := false
    let ok : Bool := false
    (s.booted = false ∨ s.axMode a ≠ 2 ∨ (s.axis a).ssiBusy = false) := by decide +kernel
theorem test_w_AxesCountAndAgree_17 :
    let s : State := live.wr (Reg.axsAcfg 1 2) 1
    let a : Fin 12 := 8
    let t := after (exec (.lineFault a true) s) s
    (s.booted = true) ∧ (s.axMode a ≠ 0) ∧ ((s.axis a).lineflt = false) ∧ ((s.axis a).fault = false) ∧ (s.regsOk) ∧
      ((t.axis a).fault = true) ∧ ((t.axis a).lineflt = true) ∧ ((t.axis a).refd = false) ∧
      ((t.axis a).faultAt = s.now) ∧ (bit (t.rd (0x15010 + 0x1000 * (a / 6))) (a % 6) = true) ∧
      (s.reports t (0x1501 + 0x100 * (a / 6)) [wd a]) ∧ (t.pim = s.pim) := by decide +kernel
theorem test_w_AxesCountAndAgree_18 :
    let s : State := { live.wr (Reg.axsAcfg 1 2) 1 with mot := { live.mot with axes := live.mot.axes.set 8 { Axis.reset with lineflt := true } } }
    let a : Fin 12 := 8
    let t := after (exec (.lineFault a true) s) s
    (s.booted = true) ∧ (s.axMode a ≠ 0) ∧ ((s.axis a).lineflt = true) ∧ ((t.axis a).fault = true) ∧
      ((t.axis a).lineflt = true) ∧ ((t.axis a).refd = false) ∧ ((t.axis a).faultAt = s.now) ∧ (t.sett = s.sett) ∧
      (t.pim = s.pim) := by decide +kernel
theorem test_w_AxesCountAndAgree_19 :
    let s : State := { live.wr (Reg.axsAcfg 1 2) 1 with mot := { live.mot with axes := live.mot.axes.set 8 { Axis.reset with lineflt := true } } }
    let a : Fin 12 := 8
    let t := after (exec (.lineFault a false) s) s
    (s.booted = true) ∧ (s.axMode a ≠ 0) ∧ ((s.axis a).lineflt = true) ∧
      (t.axis a = { s.axis a with lineflt := false, faultAt := s.now }) ∧ (t.regs = s.regs) := by decide +kernel
theorem test_w_AxesCountAndAgree_20 :
    let s : State := live
    let a : Fin 12 := 8
    let bad : Bool := true
    (s.booted = false ∨ s.axMode a = 0 ∨ (bad = false ∧ (s.axis a).lineflt = false)) := by decide +kernel
theorem test_w_AxesCountAndAgree_21 :
    let s : State := { (live.wr (Reg.axsAcfg 0 2) 1).wr (Reg.smoMcfg 3) 0x80000200 with now := 10000005, mot := { live.mot with axes := live.mot.axes.set 2 { Axis.reset with fault := true, faultAt := 5 } } }
    let a : Fin 12 := 2
    let t := after (exec (.axisFaultClear a) s) s
    (s.booted = true) ∧ ((s.axis a).fault = true) ∧ ((s.axis a).lineflt = false) ∧
      ((s.axis a).faultAt + 10000000 ≤ s.now) ∧ ((t.axis a).fault = false) ∧ ((t.axis a).now = (s.axis a).now) ∧
      (∀ m : Fin 24, s.monEn m = true → s.monAxis m = a → (t.smo m).fill = true ∧ (t.smo m).win = []) ∧
      (∀ m : Fin 24, s.monAxis m ≠ a → t.smo m = s.smo m) ∧ (t.regs = s.regs) := by decide +kernel
theorem test_w_AxesCountAndAgree_22 :
    let s : State := live
    let a : Fin 12 := 2
    (s.booted = false ∨ (s.axis a).fault = false ∨ (s.axis a).lineflt = true ∨ s.now < (s.axis a).faultAt + 10000000) := by decide +kernel
theorem test_w_SlotsPresetsAndMonitors_1 :
    let s : State := { live with now := 5500, mot := { live.mot with epoch := 5000 } }
    let t := after (exec .slotEvaluate s) s
    (s.reflexOn = true) ∧ (s.mot.slotAt < s.mot.epoch) ∧ (s.mot.epoch + 200 ≤ s.now) ∧
      (∀ a : Fin 12, ∀ k : Fin 8, ((s.axis a).slot k).arm.armed = false ∧ ((s.axis a).slot k).before = none) ∧
      (t.mot = { s.mot with slotAt := s.mot.epoch }) ∧ (t.regs = s.regs) ∧ (t.pins = s.pins) ∧ (t.eng = s.eng) := by decide +kernel
theorem test_w_SlotsPresetsAndMonitors_2 :
    let s : State := State.reset
    (s.reflexOn = false ∨ s.mot.epoch ≤ s.mot.slotAt ∨ s.now < s.mot.epoch + 200) := by decide +kernel
theorem test_w_SlotsPresetsAndMonitors_3 :
    let s : State := { live with mot := { live.mot with axes := live.mot.axes.set 2 { Axis.reset with now := 10, slots := Vector.replicate 8 { Slot.reset with arm := ⟨5, 1, true, none⟩ } } } }
    let a : Fin 12 := 2
    let k : Fin 8 := 3
    let e : Nat := 5000
    (((s.axis a).slot k).before = none) ∧ (((s.axis a).slot k).arm.armed = true) ∧
      (((s.axis a).slot k).arm.back = none) ∧ (bit ((s.axis a).slot k).arm.mode 0 = true) ∧
      (sfld ((s.axis a).prev - ((s.axis a).slot k).arm.p) 0 32 < 0) ∧
      (0 ≤ sfld ((s.axis a).now - ((s.axis a).slot k).arm.p) 0 32) ∧
      ((((s.slotEval a e k).axis a).slot k).fires = ((s.axis a).slot k).fires + 1) ∧
      ((((s.slotEval a e k).axis a).slot k).fired = true) ∧
      ((((s.slotEval a e k).axis a).slot k).arm.armed = bit ((s.axis a).slot k).arm.mode 5) ∧ (∀ b : Fin 12, b ≠ a →
      (s.slotEval a e k).axis b = s.axis b) := by decide +kernel
theorem test_w_SlotsPresetsAndMonitors_4 :
    let s : State := { (live.wr (Reg.axsAcfg 0 2) 1).wr (Reg.smoMcfg 3) 0x80000200 with mot := { live.mot with epoch := 5000, axes := live.mot.axes.set 2 { Axis.reset with now := 10, preset := some (100, 4000, some 7) } } }
    let a : Fin 12 := 2
    let v : Word := 100
    let b : Word := 7
    let tc : Nat := 4000
    let t := after (exec (.presetApply a) s) s
    (s.booted = true) ∧ ((s.axis a).preset = some (v, tc, some b)) ∧ (tc + 1000 ≤ s.mot.epoch) ∧ (s.axMode a ≠ 2) ∧
      ((s.axis a).fault = false) ∧ (s.axRefd a = false ∨ s.slpWatches a = false) ∧
      ((t.axis a).now = (s.axis a).now + (v - b)) ∧ ((t.axis a).prev = (s.axis a).prev + (v - b)) ∧
      (∀ i : Fin 3, (t.axis a).lane[i].cnt = (s.axis a).lane[i].cnt + (v - b)) ∧ ((t.axis a).refd = true) ∧
      ((t.axis a).preset = none) ∧ (∀ m : Fin 24, s.monEn m = true → s.monAxis m = a →
      (t.smo m).ref = (s.smo m).ref + (v - b) ∧ (t.smo m).v = (s.smo m).v) ∧ (t.regs = s.regs) := by decide +kernel
theorem test_w_SlotsPresetsAndMonitors_5 :
    let s : State := { (live.wr (Reg.axsAcfg 0 2) 1) with mot := { live.mot with epoch := 5000, axes := live.mot.axes.set 2 { Axis.reset with fault := true, preset := some (100, 4000, some 7) } } }
    let a : Fin 12 := 2
    let v : Word := 100
    let b : Word := 7
    let tc : Nat := 4000
    let t := after (exec (.presetApply a) s) s
    (s.booted = true) ∧ ((s.axis a).preset = some (v, tc, some b)) ∧ (tc + 1000 ≤ s.mot.epoch) ∧
      (s.axMode a = 2 ∨ (s.axis a).fault = true ∨ (s.axRefd a = true ∧ s.slpWatches a = true)) ∧ (s.regsOk) ∧
      ((t.axis a).now = (s.axis a).now) ∧ ((t.axis a).preset = none) ∧
      (bit (t.rd (0x15010 + 0x1000 * (a / 6))) 8 = true) ∧ (s.reports t (0x1505 + 0x100 * (a / 6)) [wd a]) := by decide +kernel
theorem test_w_SlotsPresetsAndMonitors_6 :
    let s : State := State.reset
    let a : Fin 12 := 2
    (s.booted = false ∨ ∀ v tc b, (s.axis a).preset = some (v, tc, some b) → s.mot.epoch < tc + 1000) := by exact .inl rfl
theorem test_w_SlotsPresetsAndMonitors_7 :
    let s : State := { live.wr (Reg.smoMcfg 3) 0x80080200 with mot := { live.mot with epoch := 16000 } }
    let m : Fin 24 := 3
    let t := after (exec (.speedWindowUpdate m) s) s
    (s.reflexOn = true) ∧ (s.monEn m = true) ∧ ((s.smo m).winAt < s.mot.epoch) ∧
      (s.mot.epoch % (1000 * (2 ^ s.monWk m / 16)) = 0) ∧ ((s.axis (s.monAxis m)).fault = false) ∧
      ((t.smo m).win = ((s.axis (s.monAxis m)).now :: (s.smo m).win).take 17) ∧ ((t.smo m).winAt = s.mot.epoch) ∧
      ((s.smo m).win.length < 16 → (t.smo m).fill = true ∧ (t.smo m).v = 0) ∧ (16 ≤ (s.smo m).win.length →
      (t.smo m).fill = false ∧
      (t.smo m).v = max (-2147483648) (min 2147483647 (Int.tdiv (sfld ((s.axis (s.monAxis m)).now - (s.smo m).win.getD
        15 0) 0 32 * 1000000) (2 ^ s.monWk m)))) ∧ ((t.smo m).viol = (s.smo m).viol) ∧ (t.regs = s.regs) := by decide +kernel
theorem test_w_SlotsPresetsAndMonitors_8 :
    let s : State := { live.wr (Reg.smoMcfg 3) 0x80080200 with mot := { live.mot with epoch := 16000, axes := Vector.replicate 12 { Axis.reset with fault := true } } }
    let m : Fin 24 := 3
    let t := after (exec (.speedWindowUpdate m) s) s
    (s.reflexOn = true) ∧ (s.monEn m = true) ∧ ((s.smo m).winAt < s.mot.epoch) ∧
      (s.mot.epoch % (1000 * (2 ^ s.monWk m / 16)) = 0) ∧ ((s.axis (s.monAxis m)).fault = true) ∧
      (t.smo m = { s.smo m with win := [], v := 0, fill := true, winAt := s.mot.epoch }) ∧ (t.regs = s.regs) := by decide +kernel
theorem test_w_SlotsPresetsAndMonitors_9 :
    let s : State := live
    let m : Fin 24 := 3
    (s.reflexOn = false ∨ s.monEn m = false ∨ s.mot.epoch ≤ (s.smo m).winAt ∨ s.mot.epoch % (1000 * (2 ^ s.monWk m /
        16)) ≠ 0) := by decide +kernel
theorem test_w_SlotsPresetsAndMonitors_10 :
    let s : State := { live.wr (Reg.smoMcfg 3) 0x80080200 with now := 20000, mot := { live.mot with epoch := 16000, smos := live.mot.smos.set 3 { Smo.reset with v := 9 } } }
    let m : Fin 24 := 3
    let t := after (exec (.monitorEvaluate m) s) s
    (s.reflexOn = true) ∧ (s.monEn m = true) ∧ (s.monType m = 0) ∧ ((s.smo m).at' < s.mot.epoch) ∧
      (s.mot.epoch + tEv m ≤ s.now) ∧ ((s.smo m).wait = none) ∧ ((s.smo m).ramp = none) ∧ ((s.smo m).viol = false) ∧
      ((s.axis (s.monAxis m)).fault = false) ∧ (s.regsOk) ∧
      ((t.smo m).viol = ((s.smo m).fill || decide ((s.setA m (s.smo m).aset).toNat < (s.smo m).v.natAbs))) ∧
      ((t.smo m).at' = s.mot.epoch) ∧ ((t.smo m).vl = (s.setA m (s.smo m).aset).toNat) ∧ ((t.smo m).viol = true →
      bit (t.rd 0x17010) 0 = true ∧ s.reports t 0x1701 [wd m]) ∧ (∀ n : Fin 24, n ≠ m → t.smo n = s.smo n) := by decide +kernel
theorem test_w_SlotsPresetsAndMonitors_11 :
    let s : State := { live.wr (Reg.smoMcfg 3) 0x80080200 with now := 20000, mot := { live.mot with epoch := 16000, axes := Vector.replicate 12 { Axis.reset with fault := true } } }
    let m : Fin 24 := 3
    let t := after (exec (.monitorEvaluate m) s) s
    (s.reflexOn = true) ∧ (s.monEn m = true) ∧ ((s.smo m).at' < s.mot.epoch) ∧ (s.mot.epoch + tEv m ≤ s.now) ∧
      ((s.axis (s.monAxis m)).fault = true) ∧ ((t.smo m).viol = true) ∧ ((t.smo m).fault = true) ∧
      ((t.smo m).at' = s.mot.epoch) ∧ (∀ n : Fin 24, n ≠ m → t.smo n = s.smo n) := by decide +kernel
theorem test_w_SlotsPresetsAndMonitors_12 :
    let s : State := live
    let m : Fin 24 := 3
    (s.reflexOn = false ∨ s.monEn m = false ∨ s.mot.epoch ≤ (s.smo m).at' ∨ s.now < s.mot.epoch + tEv m) := by decide +kernel
theorem test_w_SlotsPresetsAndMonitors_13 :
    let s : State := { live with now := 20000, mot := { live.mot with epoch := 16000 } }
    let t := after (exec .monitorItemWrite s) s
    (s.reflexOn = true) ∧ (s.mot.itemAt < s.mot.epoch) ∧ (s.mot.epoch + 800 ≤ s.now) ∧ (s.pimc.retry = none) ∧
      (t.mot = { s.mot with itemAt := s.mot.epoch }) ∧ (t.regs = s.regs) ∧ (t.fio = s.fio) := by decide +kernel
theorem test_w_SlotsPresetsAndMonitors_14 :
    let s : State := live
    (s.reflexOn = false ∨ s.mot.epoch ≤ s.mot.itemAt ∨ s.now < s.mot.epoch + 800 ∨ s.pimc.retry ≠ none) := by decide +kernel
theorem test_w_DecimationChannels_1 :
    let s : State := { (live.wr Reg.decCtrl 0x164).wr (Reg.decDscfg 3) 0x80 with now := 1600, dec := { live.dec with own0 := true } }
    let r : DsRound := ⟨[0, 0, 0, 0xffff], 0⟩
    let t := after (exec (.conversionRound r) s) s
    (s.decOn = true) ∧ (s.dec.grid + 16 * s.mclkNs * (s.dec.gridN + 1) ≤ s.now) ∧ (s.dec.engFlt = false) ∧
      (s.dec.eps = none) ∧ (r.dperr = 0) ∧ (s.regsOk) ∧ ((t.ds 3).last = true ∧ (t.ds 3).run = 16 ∧
      (t.ds 3).integ[0] = 16 ∧ t.dec.gridN = 1) := by decide +kernel
theorem test_w_DecimationChannels_2 :
    let s : State := State.reset
    let r : DsRound := ⟨[], 0⟩
    (s.decOn = false ∨ s.now < s.dec.grid + 16 * s.mclkNs * (s.dec.gridN + 1)) := by decide +kernel
theorem test_w_DecimationChannels_3 :
    let s : State := { live.wr (Reg.decDscfg 3) 0x80 with now := 1600, dec := { live.dec with own0 := true, ch := live.dec.ch.set 3 { DsCh.reset with fill := true, fillAt := 100 } } }
    let k : Fin 16 := 3
    let t := after (exec (.fillEnd k) s) s
    (s.decOn = true) ∧ (s.dsEn k = true) ∧ ((s.ds k).fill = true) ∧ ((s.ds k).fillAt ≤ s.now) ∧
      ((t.ds k).fill = false) ∧ ((t.ds k).dperr = false) ∧
      ((t.ds k).valid = (!(s.ds k).stuck && !(s.ds k).noclk && !s.dec.engFlt)) ∧ (∀ j : Fin 16, j ≠ k →
      t.ds j = s.ds j) ∧ (t.regs = s.regs) := by decide +kernel
theorem test_w_DecimationChannels_4 :
    let s : State := live
    let k : Fin 16 := 3
    (s.decOn = false ∨ s.dsEn k = false ∨ (s.ds k).fill = false ∨ s.now < (s.ds k).fillAt) := by decide +kernel
theorem test_w_DecimationChannels_5 :
    let s : State := { live.wr (Reg.decDscfg 3) 0x80 with now := 1600, dec := { live.dec with own0 := true, ch := live.dec.ch.set 3 { DsCh.reset with run := 1024 } } }
    let k : Fin 16 := 3
    let t := after (exec (.dsStuck k) s) s
    (s.decOn = true) ∧ (s.dsEn k = true) ∧ ((s.ds k).stuck = false) ∧ (1024 ≤ (s.ds k).run) ∧ (s.regsOk) ∧
      ((t.ds k).stuck = true) ∧ ((t.ds k).valid = false) ∧ (bit (t.rd 0x18010) 0 = true) ∧
      (s.reports t 0x1801 [wd k]) ∧ (∀ j : Fin 16, j ≠ k → t.ds j = s.ds j) := by decide +kernel
theorem test_w_DecimationChannels_6 :
    let s : State := live
    let k : Fin 16 := 3
    (s.decOn = false ∨ s.dsEn k = false ∨ (s.ds k).stuck = true ∨ (s.ds k).run < 1024) := by decide +kernel
theorem test_w_DecimationChannels_7 :
    let s : State := { live.wr (Reg.decDscfg 3) 0x80 with now := 1600, dec := { live.dec with own0 := true, ch := live.dec.ch.set 3 { DsCh.reset with stuck := true } } }
    let k : Fin 16 := 3
    let t := after (exec (.dsStuckClear k) s) s
    (s.decOn = true) ∧ (s.dsEn k = true) ∧ ((s.ds k).stuck = true) ∧ ((s.ds k).run < 1024) ∧
      ((t.ds k).stuck = false) ∧ ((t.ds k).fill = true) ∧
      ((t.ds k).fillAt = s.now + setClocks (s.dsPreset k) * s.mclkNs) ∧ ((t.ds k).valid = false) ∧ (t.regs = s.regs) := by decide +kernel
theorem test_w_DecimationChannels_8 :
    let s : State := live
    let k : Fin 16 := 3
    (s.decOn = false ∨ s.dsEn k = false ∨ (s.ds k).stuck = false ∨ 1024 ≤ (s.ds k).run) := by decide +kernel
theorem test_w_DecimationChannels_9 :
    let s : State := live.wr (Reg.decDscfg 3) 0x80
    let k : Fin 16 := 3
    let t := after (exec (.noclk k) s) s
    (s.decOn = true) ∧ (s.dsEn k = true) ∧ ((s.ds k).noclk = false) ∧ (s.regsOk) ∧ ((t.ds k).noclk = true) ∧
      ((t.ds k).valid = false) ∧ (bit (t.rd 0x18010) 2 = true) ∧ (s.reports t 0x1803 [wd k]) := by decide +kernel
theorem test_w_DecimationChannels_10 :
    let s : State := live
    let k : Fin 16 := 3
    (s.decOn = false ∨ s.dsEn k = false ∨ (s.ds k).noclk = true) := by decide +kernel
theorem test_w_DecimationChannels_11 :
    let s : State := { (live.wr (Reg.decDscfg 3) 0x80).wr Reg.decCtrl 0x164 with dec := { live.dec with own0 := true, ch := live.dec.ch.set 3 { DsCh.reset with noclk := true } } }
    let k : Fin 16 := 3
    let t := after (exec (.noclkClear k) s) s
    (s.decOn = true) ∧ (s.dsEn k = true) ∧ ((s.ds k).noclk = true) ∧ (s.mclkOk k = true) ∧ ((t.ds k).noclk = false) ∧
      ((t.ds k).fill = true) ∧ ((t.ds k).valid = false) ∧ (t.regs = s.regs) := by decide +kernel
theorem test_w_DecimationChannels_12 :
    let s : State := live
    let k : Fin 16 := 3
    (s.decOn = false ∨ s.dsEn k = false ∨ (s.ds k).noclk = false ∨ s.mclkOk k = false) := by decide +kernel
theorem test_w_DecimationChannels_13 :
    let s : State := { (stopd.wr Reg.decCtrl 0x164).wr (Reg.clkGate 3) 1 with dec := { stopd.dec with own0 := true } }
    let k : Fin 16 := 3
    let v : Word := 0x80000081
    let t := after (exec (.dscfgWrite .pf0 k v) s) s
    (s.allowsWrite .pf0 (Reg.decDscfg k) v = true) ∧ (dscfgOk (s.rd Reg.decCtrl) (v &&& 0xff03ffff) = true) ∧
      (bit v 7 = false ∨ (if bit v 2 = true then s.dec.own1 else s.dec.own0) = true) ∧ (s.regsOk) ∧
      (t.rd (Reg.decDscfg 3) = 0x80000081 ∧ (t.ds 3).fill = true) := by decide +kernel
theorem test_w_DecimationChannels_14 :
    let s : State := (stopd.wr Reg.decCtrl 0x164).wr (Reg.clkGate 3) 1
    let k : Fin 16 := 3
    let v : Word := 0x80000081
    let t := after (exec (.dscfgWrite .pf0 k v) s) s
    (s.allowsWrite .pf0 (Reg.decDscfg k) v = true) ∧ (dscfgOk (s.rd Reg.decCtrl) (v &&& 0xff03ffff) = true) ∧
      (bit v 7 = true) ∧ ((if bit v 2 = true then s.dec.own1 else s.dec.own0) = false) ∧ (s.regsOk) ∧
      (t.rd (Reg.decDscfg 3) = 0x80000081 ∧ (t.ds 3).fill = true) := by decide +kernel
theorem test_w_DecimationChannels_15 :
    let s : State := (stopd.wr Reg.decCtrl 0x164).wr (Reg.clkGate 3) 1
    let pf : Pf := .pf0
    let k : Fin 16 := 3
    let v : Word := 0x81000003
    (s.allowsWrite pf (Reg.decDscfg k) v = true) ∧ (dscfgOk (s.rd Reg.decCtrl) (v &&& 0xff03ffff) = false) := by decide +kernel
theorem test_w_DecimationChannels_16 :
    let s : State := (stopd.wr Reg.decCtrl 0x64).wr (Reg.clkGate 3) 1
    let m : Byte := 110
    let t := after (exec (.decTestStart .pf0 m) s) s
    (s.allowsWrite .pf0 Reg.decTest (wd (1 + 256 * m.toNat)) = true) ∧ (s.tmdOk m.toNat = true) ∧
      (s.rsmpOn = false) ∧ (∀ k : Fin 16, s.dsEn k = true → s.mclkOk k = true) ∧ (s.regsOk) ∧ (t.decTest = true) ∧
      (t.decTmd = m.toNat) ∧ (bit (t.rd 0x18010) 4 = true) ∧ (s.reports t 0x1806 []) ∧ (∀ k : Fin 16, s.dsEn k = true →
      (t.ds k).fill = true) := by decide +kernel
theorem test_w_DecimationChannels_17 :
    let s : State := (stopd.wr Reg.decCtrl 0x64).wr (Reg.clkGate 3) 1
    let pf : Pf := .pf0
    let m : Byte := 20
    (s.allowsWrite pf Reg.decTest (wd (1 + 256 * m.toNat)) = true) ∧ (s.tmdOk m.toNat = false) := by decide +kernel
theorem test_w_DecimationChannels_18 :
    let s : State := ((stopd.wr Reg.decCtrl 0x64).wr (Reg.clkGate 3) 1).wr Reg.decTest 0x6401
    let m : Byte := 110
    let t := after (exec (.decTestStart .pf0 m) s) s
    (s.allowsWrite .pf0 Reg.decTest (wd (1 + 256 * m.toNat)) = true) ∧ (s.tmdOk m.toNat = true) ∧ (s.rsmpOn = true) ∧
      (∀ k : Fin 16, s.dsEn k = true → s.mclkOk k = true) ∧ (s.regsOk) ∧ (t.decTest = true) ∧ (t.decTmd = m.toNat) ∧
      (t.sett = s.sett) ∧ (∀ k : Fin 16, s.dsEn k = true → (t.ds k).fill = true) := by decide +kernel
theorem test_w_DecimationChannels_19 :
    let s : State := ((stopd.wr Reg.decCtrl 0x64).wr Reg.decTest 0x6401).wr (Reg.clkGate 3) 1
    let t := after (exec (.decTestStop .pf0) s) s
    (s.allowsWrite .pf0 Reg.decTest (s.rd Reg.decTest &&& 0xff00) = true) ∧ (s.decTest = true) ∧
      (s.tmdOk s.decTmd = true) ∧ (s.dec.eps = none) ∧ (∀ k : Fin 16, s.dsEn k = true → s.mclkOk k = true) ∧
      (s.regsOk) ∧ (t.decTest = false) ∧ (t.decTmd = s.decTmd) ∧ (bit (t.rd 0x18010) 5 = true) ∧
      (s.reports t 0x1807 []) := by decide +kernel
theorem test_w_DecimationChannels_20 :
    let s : State := ((stopd.wr Reg.decCtrl 0x64).wr Reg.decTest 0x6400).wr (Reg.clkGate 3) 1
    let t := after (exec (.decTestStop .pf0) s) s
    (s.allowsWrite .pf0 Reg.decTest (s.rd Reg.decTest &&& 0xff00) = true) ∧ (s.decTest = false) ∧
      (s.tmdOk s.decTmd = true) ∧ (s.regsOk) ∧ (t.decTest = false) ∧ (t.decTmd = s.decTmd) ∧ (t.dec = s.dec) ∧
      (t.sett = s.sett) := by decide +kernel
theorem test_w_SwitchesForwardAndCount_1 :
    let s : State := live.wr (Reg.netCtrl 0) 7
    let x : Plane := .a
    let p : Fin 4 := 1
    let f : EthFrame := ⟨0x010203040506, 0x020202020202, none, 64, false, .other 0x0800 []⟩
    let t := after (exec (.switchFrameRx x p f) s) s
    (s.alive = true) ∧ (p.val < 2) ∧ (s.portEn (planeIdx x) p = true) ∧ (f.fcsOk = false) ∧ (s.regsOk) ∧
      (t.rd (Reg.netPerr 0 1) = 1) := by decide +kernel
theorem test_w_SwitchesForwardAndCount_2 :
    let s : State := live.wr (Reg.netCtrl 0) 7
    let x : Plane := .a
    let p : Fin 4 := 1
    let f : EthFrame := ⟨0x020304040506, 0x020202020202, none, 64, true, .other 0x0800 []⟩
    (s.alive = true) ∧ (p.val < 2) ∧ (s.portEn (planeIdx x) p = true) ∧ (f.fcsOk = true) ∧ (f.len ≤ 1522) ∧
      (f.body ≠ .pause) ∧ (bit (s.portVlan (planeIdx x) p) 12 = false) ∧ (isMulticast f.dst = false) ∧
      (isMulticast f.src = false) ∧ ((s.plane (planeIdx x)).table.length < 2048) ∧ (s.regsOk) := by decide +kernel
theorem test_w_SwitchesForwardAndCount_3 :
    let s : State := live
    let x : Plane := .a
    let p : Fin 4 := 2
    let f : EthFrame := ⟨1, 2, none, 64, true, .pause⟩
    (s.alive = false ∨ 2 ≤ p.val ∨ s.portEn (planeIdx x) p = false) := by decide +kernel
theorem test_w_SwitchesForwardAndCount_4 :
    let s : State := { ((live.wr (Reg.netCtrl 0) 7).wr (Reg.netStat 0) 3).wr Reg.ptpCtrl 0 with planes := live.planes.set 0 { NetPlane.reset with queues := #v[[], [⟨⟨1, 2, none, 64, true, .pause⟩, 3, 0⟩, ⟨⟨1, 2, none, 65, true, .pause⟩, 5, 0⟩], [], []] } }
    let x : Plane := .a
    let p : Fin 4 := 1
    let q : QFrame := ⟨⟨1, 2, none, 65, true, .pause⟩, 5, 0⟩
    let t := after (exec (.switchFrameTx x p) s) s
    (s.alive = true) ∧ (p.val < 2) ∧ (nextFrame (Vec.at (s.plane (planeIdx x)).queues p []) = some q) ∧
      (s.portUp (planeIdx x) p = true) ∧ (bit (s.rd Reg.ptpCtrl) 3 = false) ∧ (s.regsOk) ∧
      (t.outbox = s.outbox ++ [.eth x p q.f]) ∧
      (Vec.at (t.plane (planeIdx x)).queues p [] = (Vec.at (s.plane (planeIdx x)).queues p []).erase q) ∧
      (q ∈ Vec.at (s.plane (planeIdx x)).queues p []) ∧ (∀ o ∈ Vec.at (s.plane (planeIdx x)).queues p [], o.pcp < 8 →
      o.pcp ≤ q.pcp) ∧ (t.rd (Reg.netPtx (planeIdx x) p) = satInc (s.rd (Reg.netPtx (planeIdx x) p)) 0xffffffff) := by decide +kernel
theorem test_w_SwitchesForwardAndCount_5 :
    let s : State := live
    let x : Plane := .a
    let p : Fin 4 := 2
    (s.alive = false ∨ nextFrame (Vec.at (s.plane (planeIdx x)).queues p []) = none ∨ s.portUp (planeIdx x) p =
        false) := by decide +kernel
theorem test_w_SwitchesForwardAndCount_6 :
    let s : State := live
    let x : Plane := .a
    let f : EthFrame := ⟨1, 2, none, 64, true, .pause⟩
    (s.booted = true) ∧ (s.p3Takes (planeIdx x) f = false) ∧ (s.hostEn (planeIdx x) = false) ∧ (s.regsOk) := by exact ⟨by decide +kernel, p3Takes_pause _ _ _ rfl, by decide +kernel, by decide +kernel⟩
theorem test_w_SwitchesForwardAndCount_7 :
    let s : State := State.reset
    let x : Plane := .a
    let f : EthFrame := ⟨1, 2, none, 64, true, .pause⟩
    (s.booted = false) := by decide +kernel
theorem test_w_SwitchesForwardAndCount_8 :
    let s : State := { live.wr (Reg.netIpaddr 0) 5 with planes := live.planes.set 0 { NetPlane.reset with p3 := [⟨0, 0, false, ⟨1, 2, none, 64, true, .pause⟩⟩] } }
    let x : Plane := .a
    let o : P3Out := ⟨0, 0, false, ⟨1, 2, none, 64, true, .pause⟩⟩
    let r : List P3Out := []
    let t := after (exec (.p3FrameTx x) s) s
    (s.alive = true) ∧ ((s.plane (planeIdx x)).p3 = o :: r) ∧ (s.p3Sends (planeIdx x) o = true) ∧
      ((t.plane (planeIdx x)).p3 = r) ∧ (t.pim = s.pim) ∧ (t.trdp = s.trdp) := by decide +kernel
theorem test_w_SwitchesForwardAndCount_9 :
    let s : State := { live with planes := live.planes.set 0 { NetPlane.reset with p3 := [⟨0, 0, false, ⟨1, 2, none, 64, true, .pause⟩⟩] } }
    let x : Plane := .a
    let o : P3Out := ⟨0, 0, false, ⟨1, 2, none, 64, true, .pause⟩⟩
    let r : List P3Out := []
    (s.alive = true) ∧ ((s.plane (planeIdx x)).p3 = o :: r) ∧ (s.p3Sends (planeIdx x) o = false) := by decide +kernel
theorem test_w_SwitchesForwardAndCount_10 :
    let s : State := live
    let x : Plane := .a
    (s.alive = false ∨ (s.plane (planeIdx x)).p3 = []) := by decide +kernel
theorem test_w_SwitchesForwardAndCount_11 :
    let s : State := ((live.wr (Reg.netCtrl 0) 7).wr (Reg.netHtxprod 0) 1).wr (Reg.netHtxbase 0) 0x200000
    let x : Plane := .a
    let n : Nat := 0
    (s.booted = true) ∧ (s.hostEn (planeIdx x) = true) ∧ (fld (s.rd (Reg.netHtxcons (planeIdx x))) 0 8 = n) ∧
      (n ≠ fld (s.rd (Reg.netHtxprod (planeIdx x))) 0 8) ∧ (s.regsOk) := by decide +kernel
theorem test_w_SwitchesForwardAndCount_12 :
    let s : State := live
    let x : Plane := .a
    (s.booted = false ∨ s.hostEn (planeIdx x) = false ∨ fld (s.rd (Reg.netHtxcons (planeIdx x))) 0 8 = fld (s.rd
        (Reg.netHtxprod (planeIdx x))) 0 8) := by decide +kernel
theorem test_w_SwitchesForwardAndCount_13 :
    let s : State := live
    let x : Plane := .b
    let v : Byte := 5
    let t := after (exec (.hostTxProduce .pf0 x (v.zeroExtend 32)) s) s
    (s.allowsWrite .pf0 (Reg.netHtxprod (planeIdx x)) (v.zeroExtend 32) = true) ∧ (s.regsOk) ∧
      (t.rd (Reg.netHtxprod 1) = 5) := by decide +kernel
theorem test_w_SwitchesForwardAndCount_14 :
    let s : State := live
    let x : Plane := .b
    let v : Byte := 5
    let t := after (exec (.hostRxConsume .pf0 x (v.zeroExtend 32)) s) s
    (s.allowsWrite .pf0 (Reg.netHrxcons (planeIdx x)) (v.zeroExtend 32) = true) ∧ (s.regsOk) ∧
      (t.rd (Reg.netHrxcons 1) = 5) := by decide +kernel
theorem test_w_SwitchesForwardAndCount_15 :
    let s : State := live.wr (Reg.netPerr 1 2) 7
    let x : Plane := .b
    let t := after (exec (.netCounterClear .pf0 x) s) s
    (s.allowsWrite .pf0 (Reg.netCntclr (planeIdx x)) 1 = true) ∧ (s.regsOk) ∧
      (∀ q : Fin 4, t.rd (Reg.netPrx (planeIdx x) q) = 0 ∧ t.rd (Reg.netPtx (planeIdx x) q) = 0 ∧
      t.rd (Reg.netPerr (planeIdx x) q) = 0 ∧ t.rd (Reg.netPdrop (planeIdx x) q) = 0) ∧ (t.planes = s.planes) := by decide +kernel
theorem test_w_SwitchesForwardAndCount_16 :
    let s : State := live.wr (Reg.netCtrl 0) 7
    let x : Plane := .a
    let p : Fin 2 := 1
    let y : BitVec 2 := 2
    let t := after (exec (.ethLinkChange x p y) s) s
    (s.alive = true) ∧ (s.portEn (planeIdx x) p = true) ∧
      (fld (s.rd (Reg.netStat (planeIdx x))) (2 + 2 * p.val) 2 ≠ y.toNat) ∧ (y ≠ 0) ∧ (s.regsOk) ∧
      (fld (t.rd (Reg.netStat (planeIdx x))) (2 + 2 * p.val) 2 = y.toNat) ∧
      (bit (t.rd (Reg.netStat (planeIdx x))) p = true) ∧ (bit (t.rd (0x20010 + 0x1000 * planeIdx x)) 0 = true) ∧
      (s.reports t (0x2001 + 0x100 * planeIdx x) [wd (p.val + 1)]) := by decide +kernel
theorem test_w_SwitchesForwardAndCount_17 :
    let s : State := (live.wr (Reg.netCtrl 0) 7).wr (Reg.netStat 0) 0x22
    let x : Plane := .a
    let p : Fin 2 := 1
    let t := after (exec (.ethLinkChange x p 0) s) s
    (s.alive = true) ∧ (s.portEn (planeIdx x) p = true) ∧
      (fld (s.rd (Reg.netStat (planeIdx x))) (2 + 2 * p.val) 2 ≠ 0) ∧ (s.regsOk) ∧
      (fld (t.rd (Reg.netStat (planeIdx x))) (2 + 2 * p.val) 2 = 0) ∧
      (bit (t.rd (Reg.netStat (planeIdx x))) p = false) ∧ (bit (t.rd (0x20010 + 0x1000 * planeIdx x)) 0 = true) := by decide +kernel
theorem test_w_SwitchesForwardAndCount_18 :
    let s : State := live
    let x : Plane := .a
    let p : Fin 2 := 1
    let y : BitVec 2 := 0
    (s.alive = false ∨ s.portEn (planeIdx x) p = false ∨ fld (s.rd (Reg.netStat (planeIdx x))) (2 + 2 * p.val) 2 =
        y.toNat) := by decide +kernel
theorem test_w_SwitchesForwardAndCount_19 :
    let s : State := { live with now := 300000000001, planes := live.planes.set 0 { NetPlane.reset with table := [⟨7, 0, 1⟩, ⟨8, 0, 1⟩] } }
    let x : Plane := .a
    let m : BitVec 48 := 7
    let t := after (exec (.addressAgeing x m) s) s
    (s.alive = true) ∧ (((t.plane 0).table.map fun e => e.mac) = [8]) := by decide +kernel
theorem test_w_SwitchesForwardAndCount_20 :
    let s : State := { State.reset with supply := .off }
    let x : Plane := .a
    let m : BitVec 48 := 7
    (s.alive = false) := by decide +kernel
theorem test_w_ProcessDataAndTelegrams_1 :
    let s : State := { ((((live.setTbl 0 7 3 0x80100000).setTbl 0 7 5 1000)).wr (Reg.netIpaddr 0) 0x0a000001) with now := 5000000 }
    let e : Fin 1024 := 7
    let i : Nat := 5000000
    (s.bridgeRuns = true) ∧ (bit (s.tbl 0 e 3) 31 = true) ∧
      (lastInstant s.now (s.tbl 0 e 5).toNat (s.tbl 0 e 6).toNat = some i) ∧ (s.pubAt e < i) ∧ (s.commitBy i = false) ∧
      (s.readLines 4 (((s.pubMaps e).map fun m => (pimOpc + m.piw) / 8).eraseDups) = (s, true)) ∧ (s.regsOk) ∧
      (Store.wf tableReset s.tables = true) ∧ (Store.wf (fun _ => s.trdp.since) s.trdp.pubAt = true) := by decide +kernel
theorem test_w_ProcessDataAndTelegrams_2 :
    let s : State := State.reset
    let e : Fin 1024 := 7
    (s.bridgeRuns = false ∨ bit (s.tbl 0 e 3) 31 = false ∨ ∀ i, lastInstant s.now (s.tbl 0 e 5).toNat (s.tbl 0 e
        6).toNat = some i → i ≤ s.pubAt e ∨ s.commitBy i = true) := by exact .inl rfl
theorem test_w_ProcessDataAndTelegrams_3 :
    let s : State := { ((((live.setTbl 0 7 3 0x80100000).setTbl 0 7 5 1000)).wr (Reg.netIpaddr 0) 0x0a000001) with now := 5000000, pimc := { live.pimc with retry := some (1, 1, false) } }
    let u : State := s
    let e : Fin 1024 := 7
    let i : Nat := 5000000
    (s.bridgeRuns = true) ∧ (bit (s.tbl 0 e 3) 31 = true) ∧
      (lastInstant s.now (s.tbl 0 e 5).toNat (s.tbl 0 e 6).toNat = some i) ∧ (s.pubAt e < i) ∧ (s.commitBy i = false) ∧
      (s.readLines 4 (((s.pubMaps e).map fun m => (pimOpc + m.piw) / 8).eraseDups) = (u, false)) := by decide +kernel
theorem test_w_ProcessDataAndTelegrams_4 :
    let s : State := ((((live.setTbl 1 0 0 77).setTbl 1 0 3 0x80000030).setTbl 1 0 1 0xe0000001).setTbl 1 0 4 4).wr (Reg.netIpaddr 0) 5
    let x : Plane := .a
    let d : PdFrame := ⟨5, 0xe0000001, 17224, 17224, 64, 0, 9, 0x0100, 0x5064, 77, 0, 0, 4, 0, 0, 0, true, false, [1, 2, 3, 4]⟩
    let f : EthFrame := ⟨groupMac 0xe0000001, 2, none, 94, true, .pd d⟩
    let e : Nat := 0
    (s.booted = true) ∧ (s.bridgeRuns = true) ∧ (s.p3Takes (planeIdx x) f = true) ∧ (f.body = .pd d) ∧
      (s.subOf d.comId = some e) ∧
      (s.pdReason (planeIdx x) d (fld (s.tbl 1 e 3) 4 2) (s.tbl 1 e 1) (s.tbl 1 e 2) (fld (s.tbl 1 e 4) 0 11) (bit
        (s.tbl 1 e 3) 6) = none) ∧ (bit (s.tbl 1 e 6) 0 = true ∨ newer d.seq (s.tbl 1 e 7) = true) ∧ (s.regsOk) ∧
      (Store.wf tableReset s.tables = true) ∧ (Store.wf (fun _ => (⟨0, false⟩ : SubSt)) s.trdp.subs = true) := by exact ⟨by decide +kernel, by decide +kernel, p3Takes_pd _ _ _ _ rfl (by decide +kernel) (by decide +kernel) (by decide +kernel) (by decide +kernel) (by decide +kernel), by decide +kernel⟩
theorem test_w_ProcessDataAndTelegrams_5 :
    let s : State := { (((((live.setTbl 1 0 0 77).setTbl 1 0 3 0x80000030).setTbl 1 0 1 0xe0000001).setTbl 1 0 4 4).wr (Reg.netIpaddr 0) 5) with mstate := .safe }
    let x : Plane := .a
    let f : EthFrame := ⟨groupMac 0xe0000001, 2, none, 94, true, .pd ⟨5, 0xe0000001, 17224, 17224, 64, 0, 9, 0x0100, 0x5064, 77, 0, 0, 4, 0, 0, 0, true, false, [1, 2, 3, 4]⟩⟩
    let d : PdFrame := ⟨5, 0xe0000001, 17224, 17224, 64, 0, 9, 0x0100, 0x5064, 77, 0, 0, 4, 0, 0, 0, true, false, [1, 2, 3, 4]⟩
    (s.booted = true) ∧ (s.bridgeRuns = false) ∧ (s.p3Takes (planeIdx x) f = true) ∧ (f.body = .pd d) ∧ (s.regsOk) := by exact ⟨by decide +kernel, by decide +kernel, p3Takes_pd _ _ _ _ rfl (by decide +kernel) (by decide +kernel) (by decide +kernel) (by decide +kernel) (by decide +kernel), by decide +kernel⟩
theorem test_w_ProcessDataAndTelegrams_6 :
    let s : State := { ((((live.setTbl 1 33 0 77).setTbl 1 33 3 0x80000030).setTbl 1 33 1 0xe0000001).setTbl 1 33 5 1000) with now := 1000004 }
    let e : Fin 2048 := 33
    let t := after (exec (.pdTimeout e) s) s
    (s.bridgeRuns = true) ∧ (bit (s.tbl 1 e 3) 31 = true) ∧ ((s.sub e).told = false) ∧ (s.subEnd e / 4 < s.now / 4) ∧
      (s.regsOk) ∧ (Store.wf tableReset s.tables = true) ∧
      (Store.wf (fun _ => (⟨0, false⟩ : SubSt)) s.trdp.subs = true) ∧ (bit (t.tbl 1 e 6) 0 = true) ∧
      (t.tbl 1 e 7 = s.tbl 1 e 7) ∧ (t.sub e = ⟨(s.sub e).at', true⟩) ∧
      (bit (t.rd (Reg.trdTo (e / 32))) (e % 32) = true) ∧ (bit (t.rd 0x22010) 0 = true) ∧ (s.reports t 0x2201 [wd e]) := by decide +kernel
theorem test_w_ProcessDataAndTelegrams_7 :
    let s : State := live
    let e : Fin 2048 := 33
    (s.bridgeRuns = false ∨ bit (s.tbl 1 e 3) 31 = false ∨ (s.sub e).told = true ∨ s.now / 4 ≤ s.subEnd e / 4) := by decide +kernel
theorem test_w_ProcessDataAndTelegrams_8 :
    let s : State := { ((live.setTbl 2 7 0 0x80000001).setTbl 2 7 6 1000) with now := 5000000, eng := { live.eng with telOpen := [7] } }
    let e : Fin 256 := 7
    let i : Nat := 5000000
    (s.telSends = true) ∧ (bit (s.tbl 2 e 0) 31 = true) ∧ (bit (s.tbl 2 e 0) 0 = true) ∧
      (s.eng.telOpen.contains e.val = true) ∧ ((s.tel e).stopped = false) ∧
      (lastInstant s.now (s.tbl 2 e 6).toNat (s.tbl 2 e 7).toNat = some i) ∧ ((s.tel e).sentAt < i) ∧
      (s.trdp.telFrom ≤ i) ∧ (s.commitBy i = false) ∧
      (s.readLines 4 (linesOf (telSendBuf e) (s.telLen e)) = (s, true)) ∧ (Store.wf tableReset s.tables = true) ∧
      (Store.wf (fun _ => TelSt.zero) s.trdp.tels = true) := by decide +kernel
theorem test_w_ProcessDataAndTelegrams_9 :
    let s : State := { ((live.setTbl 2 7 0 0x80000001).setTbl 2 7 6 1000) with now := 5000000, eng := { live.eng with telOpen := [7] } }
    let e : Fin 256 := 7
    let i : Nat := 5000000
    let t := after (exec (.telegramSend e true) s) s
    (s.telSends = true) ∧ (bit (s.tbl 2 e 0) 31 = true) ∧ (bit (s.tbl 2 e 0) 0 = true) ∧
      (s.eng.telOpen.contains e.val = true) ∧ ((s.tel e).stopped = false) ∧
      (lastInstant s.now (s.tbl 2 e 6).toNat (s.tbl 2 e 7).toNat = some i) ∧ ((s.tel e).sentAt < i) ∧
      (s.trdp.telFrom ≤ i) ∧ (s.commitBy i = false) ∧
      (s.readLines 4 (linesOf (telSendBuf e) (s.telLen e)) = (s, true)) ∧ (s.regsOk) ∧
      (Store.wf tableReset s.tables = true) ∧ (Store.wf (fun _ => TelSt.zero) s.trdp.tels = true) ∧
      ((t.tel e).stopped = true) ∧ (t.planes = s.planes) ∧ (bit (t.rd 0x23010) 5 = true) ∧ (s.reports t 0x2305 [wd e]) := by decide +kernel
theorem test_w_ProcessDataAndTelegrams_10 :
    let s : State := State.reset
    let e : Fin 256 := 7
    let u : Bool := true
    (s.telSends = false ∨ bit (s.tbl 2 e 0) 31 = false ∨ bit (s.tbl 2 e 0) 0 = false ∨ s.eng.telOpen.contains e.val =
        false ∨ (s.tel e).stopped = true ∨ ∀ i, lastInstant s.now (s.tbl 2 e 6).toNat (s.tbl 2 e 7).toNat = some i →
      i ≤ (s.tel e).sentAt ∨ i < s.trdp.telFrom ∨ s.commitBy i = true) := by exact .inl rfl
theorem test_w_ProcessDataAndTelegrams_11 :
    let s : State := { ((live.setTbl 2 7 0 0x80000001).setTbl 2 7 6 1000) with now := 5000000, eng := { live.eng with telOpen := [7] }, pimc := { live.pimc with retry := some (1, 1, false) } }
    let u : State := s
    let e : Fin 256 := 7
    let i : Nat := 5000000
    let x : Bool := false
    (s.telSends = true) ∧ (bit (s.tbl 2 e 0) 31 = true) ∧ (bit (s.tbl 2 e 0) 0 = true) ∧
      (s.eng.telOpen.contains e.val = true) ∧ ((s.tel e).stopped = false) ∧
      (lastInstant s.now (s.tbl 2 e 6).toNat (s.tbl 2 e 7).toNat = some i) ∧ ((s.tel e).sentAt < i) ∧
      (s.trdp.telFrom ≤ i) ∧ (s.commitBy i = false) ∧
      (s.readLines 4 (linesOf (telSendBuf e) (s.telLen e)) = (u, false)) := by decide +kernel
theorem test_w_ProcessDataAndTelegrams_12 :
    let s : State := { ((((live.setTbl 2 7 0 0x80000000).setTbl 2 7 5 0x01000000).setTbl 2 7 7 6000).setTbl 2 7 8 0) with now := 5000000, trdp := { live.trdp with tels := [(7, ⟨some ⟨.a, 5, [1], 4⟩, 0, 0, false⟩)] } }
    let e : Fin 256 := 7
    let w : TelWin := ⟨.a, 5, [1], 4⟩
    let t := after (exec (.compareWindowClose e) s) s
    (s.bridgeRuns = true) ∧ ((s.tel e).win = some w) ∧ (s.winEnd e w ≤ s.now) ∧ (s.winEnd e w / 4 < s.telEnd e / 4) ∧
      (s.now / 4 < (s.winEnd e w + 1000 * (s.tbl 2 e 7).toNat) / 4) ∧ (s.telTout e = false) ∧
      (s.telCount e < fld (s.tbl 2 e 5) 24 4 + 1) ∧ (Store.wf tableReset s.tables = true) ∧
      (Store.wf (fun _ => TelSt.zero) s.trdp.tels = true) ∧ (t.tbl 2 e 9 = w.ssc) ∧ (t.telSingle e = true) ∧
      (t.telTout e = false) ∧ (t.telCount e = s.telCount e + 1) ∧ ((t.tel e).win = none) ∧
      ((t.tel e).at' = s.winEnd e w) := by decide +kernel
theorem test_w_ProcessDataAndTelegrams_13 :
    let s : State := { ((live.setTbl 2 7 0 0x80000000).setTbl 2 7 8 8).setTbl 2 7 7 6000 with now := 5000000, trdp := { live.trdp with tels := [(7, ⟨some ⟨.a, 5, [1], 4⟩, 0, 0, false⟩)] } }
    let e : Fin 256 := 7
    let w : TelWin := ⟨.a, 5, [1], 4⟩
    let t := after (exec (.compareWindowClose e) s) s
    (s.bridgeRuns = true) ∧ ((s.tel e).win = some w) ∧ (s.winEnd e w ≤ s.now) ∧ (s.winEnd e w / 4 < s.telEnd e / 4) ∧
      (s.telTout e = false) ∧ (fld (s.tbl 2 e 5) 24 4 + 1 ≤ s.telCount e) ∧ (s.regsOk) ∧
      (Store.wf tableReset s.tables = true) ∧ (Store.wf (fun _ => TelSt.zero) s.trdp.tels = true) ∧
      (t.telTout e = true) ∧ ((t.tel e).win = none) ∧ (t.tbl 2 e 9 = s.tbl 2 e 9) ∧ (bit (t.rd 0x23010) 1 = true) ∧
      (s.reports t 0x2302 [wd e]) := by decide +kernel
theorem test_w_ProcessDataAndTelegrams_14 :
    let s : State := { ((live.setTbl 2 7 0 0x80000000).setTbl 2 7 8 4) with now := 5000000, trdp := { live.trdp with tels := [(7, ⟨some ⟨.a, 5, [1], 4⟩, 0, 0, false⟩)] } }
    let e : Fin 256 := 7
    let w : TelWin := ⟨.a, 5, [1], 4⟩
    let t := after (exec (.compareWindowClose e) s) s
    (s.bridgeRuns = true) ∧ ((s.tel e).win = some w) ∧ (s.winEnd e w ≤ s.now) ∧ (s.telEnd e / 4 ≤ s.winEnd e w / 4) ∧
      (bit (s.tbl 2 e 0) 31 = true) ∧ (bit (s.tbl 2 e 0) 0 = false) ∧ (s.telTout e = false) ∧ (s.regsOk) ∧
      (Store.wf tableReset s.tables = true) ∧ (Store.wf (fun _ => TelSt.zero) s.trdp.tels = true) ∧
      (t.telTout e = true) ∧ ((t.tel e).win = none) ∧ (t.tbl 2 e 9 = s.tbl 2 e 9) ∧ (bit (t.rd 0x23010) 0 = true) ∧
      (s.reports t 0x2301 [wd e]) := by decide +kernel
theorem test_w_ProcessDataAndTelegrams_15 :
    let s : State := { ((live.setTbl 2 7 0 0x80000000).setTbl 2 7 8 1) with now := 5000000, trdp := { live.trdp with tels := [(7, ⟨some ⟨.a, 5, [1], 4⟩, 0, 0, false⟩)] } }
    let e : Fin 256 := 7
    let w : TelWin := ⟨.a, 5, [1], 4⟩
    (s.bridgeRuns = true) ∧ ((s.tel e).win = some w) ∧ (s.winEnd e w ≤ s.now) ∧ (s.telTout e = true) ∧
      (Store.wf (fun _ => TelSt.zero) s.trdp.tels = true) := by decide +kernel
theorem test_w_ProcessDataAndTelegrams_16 :
    let s : State := State.reset
    let e : Fin 256 := 7
    (s.bridgeRuns = false ∨ (s.tel e).win = none ∨ ∀ w, (s.tel e).win = some w → s.now < s.winEnd e w) := by exact .inl rfl
theorem test_w_ProcessDataAndTelegrams_17 :
    let s : State := { (((live.setTbl 2 7 0 0x80000000).setTbl 2 7 7 8).setTbl 2 7 8 0) with now := 5000000 }
    let e : Fin 256 := 7
    let t := after (exec (.telegramTimeout e) s) s
    (s.bridgeRuns = true) ∧ (bit (s.tbl 2 e 0) 31 = true) ∧ (bit (s.tbl 2 e 0) 0 = false) ∧ (s.telTout e = false) ∧
      (s.telEnd e / 4 ≤ s.now / 4) ∧ ((s.tel e).win.all (fun w => decide (s.telEnd e / 4 ≤ s.winEnd e w / 4)) = true) ∧
      (s.regsOk) ∧ (Store.wf tableReset s.tables = true) ∧ (t.telTout e = true) ∧
      (bit (t.rd (Reg.twpTout (e / 32))) (e % 32) = true) ∧ (bit (t.rd 0x23010) 0 = true) ∧
      (s.reports t 0x2301 [wd e]) ∧ (t.tbl 2 e 9 = s.tbl 2 e 9) := by decide +kernel
theorem test_w_ProcessDataAndTelegrams_18 :
    let s : State := live
    let e : Fin 256 := 7
    (s.bridgeRuns = false ∨ s.now / 4 < s.telEnd e / 4 ∨ ((s.tel e).win = none ∧ (bit (s.tbl 2 e 0) 31 = false ∨ bit
        (s.tbl 2 e 0) 0 = true ∨ s.telTout e = true))) := by decide +kernel
theorem test_w_CanChannelsReceiveAndSend_1 :
    let s : State := live.wr (Reg.canCtrl 2) 1
    let c : Fin 4 := 2
    let f : CanFrame := ⟨false, false, false, false, true, 0x123, []⟩
    let t := after (exec (.canFrameRx c f) s) s
    (s.canOn c = true) ∧ (f.rtr = true) ∧ (s.regsOk) ∧
      (t.rd (Reg.canRxdisc c) = satInc (s.rd (Reg.canRxdisc c)) 0xffffffff) ∧
      (bit (t.rd ((0x28 + c) * 0x1000 + 0x10)) 3 = true) ∧ (t.brg = s.brg) ∧ (t.cans = s.cans) := by decide +kernel
theorem test_w_CanChannelsReceiveAndSend_2 :
    let s : State := { live.wr (Reg.canCtrl 2) 1 with cans := live.cans.set 2 { Can.reset with rec' := 9 } }
    let c : Fin 4 := 2
    let f : CanFrame := ⟨false, false, false, false, false, 0x123, [1]⟩
    let t := after (exec (.canFrameRx c f) s) s
    (s.canOn c = true) ∧ (f.rtr = false) ∧ (f.fd = true → bit (s.rd (Reg.canCtrl c)) 1 = true) ∧
      (s.routing = false) ∧ (s.regsOk) ∧ ((t.canCh 2).rec' = 8) := by decide +kernel
theorem test_w_CanChannelsReceiveAndSend_3 :
    let s : State := ((live.wr (Reg.canCtrl 2) 1).wr Reg.brgCtrl 1).setTbl 4 5 0 0x80000000
    let c : Fin 4 := 2
    let f : CanFrame := ⟨false, false, false, false, false, 0x123, [1]⟩
    let t := after (exec (.canFrameRx c f) s) s
    (s.canOn c = true) ∧ (f.rtr = false) ∧ (f.fd = true → bit (s.rd (Reg.canCtrl c)) 1 = true) ∧ (s.routing = true) ∧
      ((s.routes.filter fun e => (s.route e).sport == c.val && (s.route e).side == f.ext && (f.id.toNat &&& (s.route
        e).smask) == ((s.route e).sid &&& (s.route e).smask)) = []) ∧ (s.regsOk) ∧
      (t.rd (Reg.canRxcnt c) = satInc (s.rd (Reg.canRxcnt c)) 0xffffffff) ∧
      (t.rd Reg.brgUnmatched = satInc (s.rd Reg.brgUnmatched) 0xffffffff) ∧ (t.brg = s.brg) := by decide +kernel
theorem test_w_CanChannelsReceiveAndSend_4 :
    let s : State := (((((((live.wr (Reg.canCtrl 2) 1).wr (Reg.canCtrl 1) 1).wr Reg.brgCtrl 1).setTbl 4 5 0 0x80000012).setTbl 4 5 1 0x123).setTbl 4 5 2 0x7ff).setTbl 4 5 3 0x20001).setTbl 4 5 4 0x200
    let c : Fin 4 := 2
    let d : Fin 4 := 1
    let e : Nat := 5
    let f : CanFrame := ⟨false, false, false, false, false, 0x123, [1, 2, 3]⟩
    let t := after (exec (.canFrameRx c f) s) s
    (s.canOn c = true) ∧ (f.rtr = false) ∧ (f.fd = true → bit (s.rd (Reg.canCtrl c)) 1 = true) ∧ (s.routing = true) ∧
      ((s.routes.filter fun e => (s.route e).sport == c.val && (s.route e).side == f.ext && (f.id.toNat &&& (s.route
        e).smask) == ((s.route e).sid &&& (s.route e).smask)) = [e]) ∧ ((s.route e).dport = d.val) ∧
      ((s.route e).soff + (s.route e).slen ≤ f.data.length) ∧ ((s.route e).miniv = 0) ∧ (s.canErrst d < 2) ∧
      (((s.buf c d).filter fun m => !m.side).length < 16) ∧ (Store.wf (fun _ => ([] : List BMsg)) s.brg.bufs = true) ∧
      (s.regsOk) ∧ ((t.buf 2 1).map (fun m => (m.frame.id, m.frame.data)) = [(0x200, [2, 3])]) := by decide +kernel
theorem test_w_CanChannelsReceiveAndSend_5 :
    let s : State := live.wr (Reg.canCtrl 2) 1
    let c : Fin 4 := 2
    let f : CanFrame := ⟨false, true, false, false, false, 0x123, [1]⟩
    (s.canOn c = false ∨ (f.rtr = false ∧ f.fd = true ∧ bit (s.rd (Reg.canCtrl c)) 1 = false)) := by decide +kernel
theorem test_w_CanChannelsReceiveAndSend_6 :
    let s : State := (((live.wr (Reg.canCtrl 2) 1).setBuf 0 2 [⟨3, false, ⟨false, false, false, false, false, 0x200, [1]⟩⟩]).setBuf 4 2 [⟨4, false, ⟨false, false, false, false, false, 0x100, [2]⟩⟩])
    let c : Fin 4 := 2
    let t := after (exec (.canTxStart c) s) s
    (s.canOn c = true) ∧ ((s.canCh c).tx = none) ∧ ((t.canCh 2).tx.map (fun x => (x.1, x.2.entry)) = some (4, 4)) := by decide +kernel
theorem test_w_CanChannelsReceiveAndSend_7 :
    let s : State := live
    let c : Fin 4 := 2
    (s.canOn c = false ∨ (s.canCh c).tx ≠ none) := by decide +kernel
theorem test_w_CanChannelsReceiveAndSend_8 :
    let l : List (Nat × BMsg) := [(0, ⟨3, false, ⟨false, false, false, false, false, 0x200, [1]⟩⟩), (4, ⟨4, false, ⟨true, false, false, false, false, 0x100, [2]⟩⟩)]
    let b : Nat × BMsg := (4, ⟨4, false, ⟨true, false, false, false, false, 0x100, [2]⟩⟩)
    (winner l = some b) ∧ (winner l = some b) := by decide +kernel
theorem test_w_CanChannelsReceiveAndSend_9 :
    let s : State := { (live.wr (Reg.canCtrl 2) 1).setBuf 0 2 [⟨3, false, ⟨false, false, false, false, false, 0x200, [1]⟩⟩] with cans := live.cans.set 2 { Can.reset with tec := 3, tx := some (0, ⟨3, false, ⟨false, false, false, false, false, 0x200, [1]⟩⟩) } }
    let c : Fin 4 := 2
    let p : Nat := 0
    let m : BMsg := ⟨3, false, ⟨false, false, false, false, false, 0x200, [1]⟩⟩
    let t := after (exec (.canTxDone c .sent) s) s
    (s.canOn c = true) ∧ ((s.canCh c).tx = some (p, m)) ∧ (Store.wf (fun _ => ([] : List BMsg)) s.brg.bufs = true) ∧
      (s.regsOk) ∧ (t.outbox = s.outbox ++ [.can c { m.frame with esi := m.frame.fd && s.canErrst c == 1 }]) ∧
      (t.buf p c = (s.buf p c).drop 1) ∧ ((t.canCh c).tx = none) ∧ ((t.canCh c).tec = (s.canCh c).tec - 1) ∧
      (t.rd (Reg.canTxcnt c) = satInc (s.rd (Reg.canTxcnt c)) 0xffffffff) := by decide +kernel
theorem test_w_CanChannelsReceiveAndSend_10 :
    let s : State := live
    let c : Fin 4 := 2
    let r : CanTxEnd := .error
    (s.canOn c = false ∨ (s.canCh c).tx = none ∨ r ≠ .sent) := by decide +kernel
theorem test_w_CanChannelsReceiveAndSend_11 :
    let s : State := { live.wr (Reg.canCtrl 2) 1 with cans := live.cans.set 2 { Can.reset with tec := 127 } }
    let c : Fin 4 := 2
    let e : CanErr := ⟨8, 0⟩
    let t := after (exec (.canBusError c e) s) s
    (s.canOn c = true) ∧ ((s.canCh c).tec + e.dTec ≤ 255) ∧ (s.regsOk) ∧ (t.canErrst 2 = 1 ∧ (t.canCh 2).tec = 135) := by decide +kernel
theorem test_w_CanChannelsReceiveAndSend_12 :
    let s : State := { (live.wr (Reg.canCtrl 2) 1).setBuf 0 2 [⟨3, false, ⟨false, false, false, false, false, 0x200, [1]⟩⟩] with cans := live.cans.set 2 { Can.reset with tec := 250 } }
    let c : Fin 4 := 2
    let e : CanErr := ⟨8, 0⟩
    let t := after (exec (.canBusError c e) s) s
    (s.canOn c = true) ∧ (255 < (s.canCh c).tec + e.dTec) ∧
      (Store.wf (fun _ => ([] : List BMsg)) s.brg.bufs = true) ∧ (s.regsOk) ∧ (t.canErrst c = 2) ∧
      ((t.canCh c).tx = none) ∧ (∀ p < 7, t.buf p c = []) ∧
      (t.rd (Reg.canBocnt c) = satInc (s.rd (Reg.canBocnt c)) 0xffffffff) ∧
      (bit (t.rd ((0x28 + c) * 0x1000 + 0x10)) 1 = true) ∧ (s.reports t (0x2802 + 0x100 * c) [wd c]) := by decide +kernel
theorem test_w_CanChannelsReceiveAndSend_13 :
    let s : State := live
    let c : Fin 4 := 2
    let e : CanErr := ⟨8, 0⟩
    (s.canOn c = false) := by decide +kernel
theorem test_w_CanChannelsReceiveAndSend_14 :
    let s : State := { live.wr (Reg.canCtrl 2) 9 with cans := live.cans.set 2 { Can.reset with tec := 256, busOff := true } }
    let c : Fin 4 := 2
    let t := after (exec (.canBusoffRecovery c) s) s
    (s.bridgeRuns = true) ∧ (s.canEn c = true) ∧ (bit (s.rd (Reg.canCtrl c)) 2 = false) ∧
      ((s.canCh c).busOff = true) ∧ (bit (s.rd (Reg.canCtrl c)) 3 = true ∨ (s.canCh c).recover = true) ∧ (s.regsOk) ∧
      (t.canErrst c = 0) ∧ (t.canCh c = Can.reset) ∧ (bit (t.rd ((0x28 + c) * 0x1000 + 0x10)) 2 = true) ∧
      (s.reports t (0x2803 + 0x100 * c) [wd c]) := by decide +kernel
theorem test_w_CanChannelsReceiveAndSend_15 :
    let s : State := live
    let c : Fin 4 := 2
    (s.bridgeRuns = false ∨ s.canEn c = false ∨ bit (s.rd (Reg.canCtrl c)) 2 = true ∨ (s.canCh c).busOff = false ∨
        (bit (s.rd (Reg.canCtrl c)) 3 = false ∧ (s.canCh c).recover = false)) := by decide +kernel
theorem test_w_CanChannelsReceiveAndSend_16 :
    let s : State := { (live.wr (Reg.canCtrl 2) 1).wr (Reg.clkGate 10) 1 with cans := live.cans.set 2 { Can.reset with tec := 256, busOff := true } }
    let c : Fin 4 := 2
    let t := after (exec (.canRecoveryCmd .pf0 c) s) s
    (s.allowsWrite .pf0 (Reg.canCmd c) 1 = true) ∧ ((t.canCh 2).recover = true) := by decide +kernel
theorem test_w_MvbAndBridgeComplete_1 :
    let s : State := (live.wr Reg.mvbCtrl 7).setTbl 3 4 0 0x80010123
    let fc : BitVec 4 := 0
    let a : BitVec 12 := 0x123
    let e : Nat := 4
    let t := after (exec (.mvbMasterFrame fc a) s) s
    (s.mvbOn = true) ∧ (fc ≠ 15) ∧ (s.mvbEntry a.toNat true = some e) ∧ (fld (s.tbl 3 e 0) 12 3 = fc.toNat) ∧
      (t.outbox = [.mvb 0x123 [0, 0]]) := by decide +kernel
theorem test_w_MvbAndBridgeComplete_2 :
    let s : State := (live.wr Reg.mvbCtrl 7).setTbl 3 4 0 0x80000123
    let fc : BitVec 4 := 0
    let a : BitVec 12 := 0x123
    let e : Nat := 4
    let t := after (exec (.mvbMasterFrame fc a) s) s
    (s.mvbOn = true) ∧ (fc ≠ 15) ∧ (s.mvbEntry a.toNat true = none) ∧ (s.mvbEntry a.toNat false = some e) ∧
      (fld (s.tbl 3 e 0) 12 3 = fc.toNat) ∧ (t.mvb.tel = some (a.toNat, none)) ∧
      (t.mvb.run = s.mvb.run.map fun n => satNat 0xffff (n + 1)) ∧ (t.mvb.bytes = s.mvb.bytes) ∧ (t.outbox = s.outbox) := by decide +kernel
theorem test_w_MvbAndBridgeComplete_3 :
    let s : State := (live.wr Reg.mvbCtrl 7).wr Reg.mvbDevaddr 0x77
    let a : BitVec 12 := 0x77
    (s.mvbOn = true) ∧ (a.toNat = fld (s.rd Reg.mvbDevaddr) 0 12) := by decide +kernel
theorem test_w_MvbAndBridgeComplete_4 :
    let s : State := State.reset
    let fc : BitVec 4 := 0
    let a : BitVec 12 := 5
    (s.mvbOn = false ∨ (fc = 15 ∧ a.toNat ≠ fld (s.rd Reg.mvbDevaddr) 0 12) ∨ (fc ≠ 15 ∧ ∀ e, s.mvbEntry a.toNat true
        = some e ∨ (s.mvbEntry a.toNat true = none ∧ s.mvbEntry a.toNat false = some e) → fld (s.tbl 3 e 0) 12 3 ≠
        fc.toNat)) := by exact .inl (by decide +kernel)
theorem test_w_MvbAndBridgeComplete_5 :
    let s : State := (live.wr Reg.mvbCtrl 7).setTbl 3 4 0 0x80000123
    let line : Plane := .b
    let a : BitVec 12 := 0x123
    let e : Nat := 4
    let bs : List Byte := [1]
    let t := after (exec (.mvbSlaveFrame line a bs) s) s
    (s.mvbOn = true) ∧ (s.mvbLineEn (planeIdx line) = true) ∧ (s.mvbEntry a.toNat false = some e) ∧
      (bs.length ≠ s.mvbSize e) ∧ (s.regsOk) ∧
      (t.rd (Reg.mvbErr (planeIdx line)) = satInc (s.rd (Reg.mvbErr (planeIdx line))) 0xffffffff) ∧ (t.mvb = s.mvb) := by decide +kernel
theorem test_w_MvbAndBridgeComplete_6 :
    let s : State := { (live.wr Reg.mvbCtrl 7).setTbl 3 4 0 0x80000123 with mvb := { Mvb.reset with tel := some (0x123, none) } }
    let line : Plane := .b
    let a : BitVec 12 := 0x123
    let e : Nat := 4
    let bs : List Byte := [1, 2]
    (s.mvbOn = true) ∧ (s.mvbLineEn (planeIdx line) = true) ∧ (s.mvbEntry a.toNat false = some e) ∧
      (bs.length = s.mvbSize e) ∧ (∀ l0 d0, s.mvb.tel = some (a.toNat, some (l0, d0)) → l0 = line) ∧
      (s.routing = false) ∧ (Store.wf (fun _ => (0 : Byte)) s.mvb.bytes = true) ∧
      (Store.wf (fun _ => 0) s.mvb.at' = true) ∧ (Store.wf tableReset s.tables = true) ∧ (s.regsOk) := by exact ⟨by decide +kernel, by decide +kernel, by decide +kernel, by decide +kernel, fun _ _ h => by simp at h, by decide +kernel, by decide +kernel, by decide +kernel, by decide +kernel, by decide +kernel⟩
theorem test_w_MvbAndBridgeComplete_7 :
    let s : State := { (live.wr Reg.mvbCtrl 7).setTbl 3 4 0 0x80000123 with mvb := { Mvb.reset with tel := some (0x123, some (.a, [1, 2])) } }
    let line : Plane := .b
    let l0 : Plane := .a
    let a : BitVec 12 := 0x123
    let e : Nat := 4
    let bs : List Byte := [1, 3]
    let d0 : List Byte := [1, 2]
    let t := after (exec (.mvbSlaveFrame line a bs) s) s
    (s.mvbOn = true) ∧ (s.mvbLineEn (planeIdx line) = true) ∧ (s.mvbEntry a.toNat false = some e) ∧
      (bs.length = s.mvbSize e) ∧ (s.mvb.tel = some (a.toNat, some (l0, d0))) ∧ (l0 ≠ line) ∧ (s.regsOk) ∧
      (bit t.mvb.dis 1 = true) := by decide +kernel
theorem test_w_MvbAndBridgeComplete_8 :
    let s : State := live
    let line : Plane := .b
    let a : BitVec 12 := 5
    let bs : List Byte := [1]
    (s.mvbOn = false ∨ s.mvbLineEn (planeIdx line) = false ∨ s.mvbEntry a.toNat false = none) := by decide +kernel
theorem test_w_MvbAndBridgeComplete_9 :
    let s : State := { (live.wr Reg.mvbCtrl 7).wr Reg.mvbStat 3 with mvb := { Mvb.reset with run := #v[0, 16] } }
    let line : Plane := .b
    let t := after (exec (.mvbLineBad line) s) s
    (s.mvbOn = true) ∧ (s.mvbLineEn (planeIdx line) = true) ∧
      (bit s.mvb.dis (planeIdx line) = true ∨ 16 ≤ Vec.at s.mvb.run (planeIdx line) 0) ∧ (s.regsOk) ∧
      (t.mvbLineOk (planeIdx line) = false) ∧ (bit (t.rd 0x2c010) (planeIdx line) = true) ∧
      (s.reports t (0x2c01 + planeIdx line) [wd (planeIdx line)]) ∧ (bit t.mvb.dis (planeIdx line) = false) ∧
      (Vec.at t.mvb.run (planeIdx line) 0 = 0) := by decide +kernel
theorem test_w_MvbAndBridgeComplete_10 :
    let s : State := live
    let line : Plane := .b
    (s.mvbOn = false ∨ s.mvbLineEn (planeIdx line) = false ∨ (bit s.mvb.dis (planeIdx line) = false ∧ Vec.at
        s.mvb.run (planeIdx line) 0 < 16)) := by decide +kernel
theorem test_w_MvbAndBridgeComplete_11 :
    let s : State := { ((live.wr Reg.mvbCtrl 7).setTbl 3 4 0 0x80000123).setTbl 3 4 1 16 with now := 16000000 }
    let e : Fin 256 := 4
    let t := after (exec (.mvbSinkStale e) s) s
    (s.mvbOn = true) ∧ (bit (s.tbl 3 e 0) 31 = true) ∧ (bit (s.tbl 3 e 0) 16 = false) ∧
      (fld (s.tbl 3 e 1) 0 16 ≠ 0) ∧ (bit (s.tbl 3 e 2) 16 = false) ∧
      (Store.get (fun _ => 0) s.mvb.at' e - 1 + 1000000 * fld (s.tbl 3 e 1) 0 16 ≤ s.now) ∧
      (Store.wf tableReset s.tables = true) ∧ (s.regsOk) ∧ (bit (t.tbl 3 e 2) 16 = true) ∧
      (bit (t.rd 0x2c010) 2 = true) ∧ (s.reports t 0x2c03 [wd e]) ∧ (t.mvb = s.mvb) := by decide +kernel
theorem test_w_MvbAndBridgeComplete_12 :
    let s : State := live
    let e : Fin 256 := 4
    (s.mvbOn = false ∨ bit (s.tbl 3 e 0) 31 = false ∨ bit (s.tbl 3 e 0) 16 = true ∨ fld (s.tbl 3 e 1) 0 16 = 0 ∨ bit
        (s.tbl 3 e 2) 16 = true ∨ s.now < Store.get (fun _ => 0) s.mvb.at' e - 1 + 1000000 * fld (s.tbl 3 e 1) 0 16) := by decide +kernel
theorem test_w_MvbAndBridgeComplete_13 :
    let s : State := { (((((live.wr (Reg.canCtrl 1) 1).wr Reg.brgCtrl 1).setTbl 4 5 0 0x80000012).setTbl 4 5 6 10).modEnt 5 fun x => { x with held := some [7], fwdAt := 1 }) with now := 10000 }
    let e : Fin 4096 := 5
    let bs : List Byte := [7]
    let d : Fin 4 := 1
    let t := after (exec (.minivRelease e) s) s
    (s.routing = true) ∧ ((s.ent e).held = some bs) ∧ ((s.ent e).fwdAt - 1 + 1000 * (s.route e).miniv ≤ s.now) ∧
      ((s.route e).dport = d.val) ∧ (s.canErrst d < 2) ∧
      (((s.buf (s.route e).sport d).filter fun m => !m.side).length < 16) ∧
      (Store.wf (fun _ => ([] : List BMsg)) s.brg.bufs = true) ∧ (Store.wf (fun _ => EntSt.zero) s.brg.ents = true) ∧
      (s.regsOk) ∧ (t.buf (s.route e).sport d = s.buf (s.route e).sport d ++ [⟨e, false, (s.route e).frame bs⟩]) ∧
      ((t.ent e).held = none) ∧ ((t.ent e).fwdAt = s.now + 1) ∧
      (t.rd Reg.brgFwdcnt = satInc (s.rd Reg.brgFwdcnt) 0xffffffff) := by decide +kernel
theorem test_w_MvbAndBridgeComplete_14 :
    let s : State := live
    let e : Fin 4096 := 4
    (s.routing = false ∨ (s.ent e).held = none ∨ s.now < (s.ent e).fwdAt - 1 + 1000 * (s.route e).miniv) := by decide +kernel
theorem test_w_MvbAndBridgeComplete_15 :
    let s : State := { live with now := 1000000, cans := live.cans.set 2 { Can.reset with tec := 256, rec' := 5, busOff := true } }
    let c : Fin 4 := 2
    let t := after (exec .bridgePoll s) s
    (s.bridgeRuns = true) ∧ (s.brg.pollMs < s.now / 1000000) ∧ (s.routing = false) ∧ (s.maps = []) ∧ (s.regsOk) ∧
      (t.rd (Reg.canStat 2) &&& 0xffff00 = 0x5ff00) := by decide +kernel
theorem test_w_MvbAndBridgeComplete_16 :
    let s : State := { (((live.wr (Reg.canCtrl 2) 1).wr Reg.brgCtrl 1).setTbl 4 5 0 0x80000012).setTbl 4 5 6 0x10000 with now := 1000000 }
    let e : Nat := 5
    let t := after (exec .bridgePoll s) s
    (s.routing = true) ∧ (s.brg.pollMs < s.now / 1000000) ∧ (s.routes = [e]) ∧ ((s.enabled 3 0) = []) ∧
      (s.maps = []) ∧ ((s.route e).priv = false) ∧ (Store.wf tableReset s.tables = true) ∧
      (Store.wf (fun _ => EntSt.zero) s.brg.ents = true) ∧ (s.regsOk) ∧ ((t.ent 5).stat = 4 ∧
      t.rd Reg.brgLaststale = 0x80000005) := by decide +kernel
theorem test_w_MvbAndBridgeComplete_17 :
    let s : State := live
    (s.bridgeRuns = false ∨ s.now / 1000000 ≤ s.brg.pollMs) := by decide +kernel
theorem test_w_OrdinaryClockFollowsItsMaster_1 :
    let s : State := live.wr Reg.ptpCtrl 0x31
    let h : PtpHdr := ⟨.a, 77, 0, 5, 0⟩
    let two : Bool := false
    let o : Nat := 1
    let r : Nat := 2
    let t := after (exec (.ptpSyncRx h two o r) s) s
    (s.ptpOn = true) ∧ (s.fromMaster h = false) ∧ (s.regsOk) ∧ (t.rd Reg.ptpCntdisc = 1 ∧ t.ptp = s.ptp) := by decide +kernel
theorem test_w_OrdinaryClockFollowsItsMaster_2 :
    let s : State := { live.wr Reg.ptpCtrl 0x11 with ptp := { Ptp.reset with master := some 77 } }
    let h : PtpHdr := ⟨.a, 77, 0, 5, 0⟩
    let o : Nat := 1
    let r : Nat := 2
    let t := after (exec (.ptpSyncRx h true o r) s) s
    (s.ptpOn = true) ∧ (s.fromMaster h = true) ∧ (s.regsOk) ∧
      (t.rd Reg.ptpCntsync = satInc (s.rd Reg.ptpCntsync) 0xffffffff) ∧ (t.ptp.sync = some (h.src, h.seq, r, h.corr)) ∧
      (t.ptp.syncAt = s.now) ∧ (t.ptp.integ = s.ptp.integ) ∧ (t.now = s.now) := by decide +kernel
theorem test_w_OrdinaryClockFollowsItsMaster_3 :
    let s : State := { live.wr Reg.ptpCtrl 0x11 with ptp := { Ptp.reset with master := some 77 } }
    let h : PtpHdr := ⟨.a, 77, 0, 5, 0⟩
    let o : Nat := 1
    let r : Nat := 2
    (s.ptpOn = true) ∧ (s.fromMaster h = true) ∧ (s.twn.role ≠ .standby) := by decide +kernel
theorem test_w_OrdinaryClockFollowsItsMaster_4 :
    let s : State := live
    let h : PtpHdr := ⟨.a, 77, 0, 5, 0⟩
    let two : Bool := true
    let o : Nat := 1
    let r : Nat := 2
    (s.ptpOn = false) := by decide +kernel
theorem test_w_OrdinaryClockFollowsItsMaster_5 :
    let s : State := { live.wr Reg.ptpCtrl 0x11 with ptp := { Ptp.reset with master := some 77, sync := some (77, 5, 2, 0) } }
    let h : PtpHdr := ⟨.a, 77, 0, 5, 0⟩
    let o : Nat := 1
    let t2 : Nat := 2
    let c : Int := 0
    (s.ptpOn = true) ∧ (s.fromMaster h = true) ∧ (s.ptp.sync = some (h.src, h.seq, t2, c)) ∧ (s.twn.role ≠ .standby) := by decide +kernel
theorem test_w_OrdinaryClockFollowsItsMaster_6 :
    let s : State := live.wr Reg.ptpCtrl 0x11
    let h : PtpHdr := ⟨.a, 77, 0, 5, 0⟩
    let o : Nat := 1
    (s.ptpOn = true) ∧ (s.ptp.sync = none ∨ ∀ src seq t2 c, s.ptp.sync = some (src, seq, t2, c) →
      s.fromMaster h = false ∨ h.src ≠ src ∨ h.seq ≠ seq) ∧ (s.regsOk) := by exact ⟨by decide +kernel, .inl (by decide +kernel), by decide +kernel⟩
theorem test_w_OrdinaryClockFollowsItsMaster_7 :
    let s : State := live
    let h : PtpHdr := ⟨.a, 77, 0, 5, 0⟩
    let o : Nat := 1
    (s.ptpOn = false) := by decide +kernel
theorem test_w_OrdinaryClockFollowsItsMaster_8 :
    let s : State := live.wr Reg.ptpCtrl 0x11
    let h : PtpHdr := ⟨.a, 77, 0, 5, 0⟩
    let a : Announce := ⟨9, 1, 2, 6, 0x21, 0x4000, 0, none⟩
    let t := after (exec (.ptpAnnounceRx h a) s) s
    (s.ptpOn = true) ∧ (h.domain.toNat = fld (s.rd Reg.ptpDomain) 0 8) ∧ (h.plane = s.ptpPlane) ∧
      (s.ptpBoth = false) ∧ (s.ptp.heard = []) ∧ (s.regsOk) ∧
      (t.rd Reg.ptpCntann = satInc (s.rd Reg.ptpCntann) 0xffffffff) ∧ (t.ptp.heard = [⟨h.src, h.plane, a, 1, s.now⟩]) ∧
      (t.ptp.master = s.ptp.master) ∧ (t.sstate = s.sstate) := by decide +kernel
theorem test_w_OrdinaryClockFollowsItsMaster_9 :
    let s : State := { live.wr Reg.ptpCtrl 0x15 with ptp := { Ptp.reset with heard := [⟨Config.clockId + 1, .a, ⟨9, 1, 2, 6, 0x21, 0x4000, 0, none⟩, 1, 0⟩] } }
    let h : PtpHdr := ⟨.a, Config.clockId + 1, 0, 5, 0⟩
    let a : Announce := ⟨9, 1, 2, 6, 0x21, 0x4000, 0, none⟩
    let a' : Announce := ⟨9, 1, 2, 6, 0x21, 0x4000, 0, none⟩
    let l : Nat := 0
    (s.ptpOn = true) ∧ (h.domain.toNat = fld (s.rd Reg.ptpDomain) 0 8) ∧ (h.plane = s.ptpPlane) ∧
      (s.ptpBoth = false) ∧ (s.ptp.heard = [⟨h.src, h.plane, a', 1, l⟩]) ∧ (l ≤ s.now) ∧
      (s.now ≤ l + 4 * s.annInterval) ∧ (0 < s.annTimeout) ∧ (h.src ≠ Config.clockId) ∧ (s.ptp.master = none) ∧
      (bit (s.rd Reg.ptpCtrl) 2 = true) ∧ (s.regsOk) := by exact ⟨by decide +kernel, by decide +kernel, by decide +kernel, by decide +kernel, rfl, by decide +kernel, by decide +kernel, by decide +kernel, by show Config.clockId + 1 ≠ Config.clockId; generalize Config.clockId = c; bv_omega, by decide +kernel, by decide +kernel, by decide +kernel⟩
theorem test_w_OrdinaryClockFollowsItsMaster_10 :
    let s : State := live.wr Reg.ptpCtrl 0x11
    let h : PtpHdr := ⟨.a, 77, 3, 5, 0⟩
    let a : Announce := ⟨9, 1, 2, 6, 0x21, 0x4000, 0, none⟩
    let t := after (exec (.ptpAnnounceRx h a) s) s
    (s.ptpOn = true) ∧ (h.domain.toNat ≠ fld (s.rd Reg.ptpDomain) 0 8 ∨ (h.plane ≠ s.ptpPlane ∧ s.ptpBoth = false)) ∧
      (s.regsOk) ∧ (t.ptp = s.ptp ∧ t.rd Reg.ptpCntdisc = 1) := by decide +kernel
theorem test_w_OrdinaryClockFollowsItsMaster_11 :
    let s : State := live
    let h : PtpHdr := ⟨.a, 77, 0, 5, 0⟩
    let a : Announce := ⟨9, 1, 2, 6, 0x21, 0x4000, 0, none⟩
    (s.ptpOn = false) := by decide +kernel
theorem test_w_OrdinaryClockFollowsItsMaster_12 :
    let s : State := { live.wr Reg.ptpCtrl 0x11 with ptp := { Ptp.reset with master := some 77, req := some (5, 100), ms := 40 } }
    let h : PtpHdr := ⟨.a, 77, 0, 5, 0⟩
    let t3 : Nat := 100
    let t4 : Nat := 160
    let t := after (exec (.ptpDelayRespRx h t4) s) s
    (s.ptpOn = true) ∧ (s.fromMaster h = true) ∧ (s.ptpP2p = false) ∧ (s.ptp.req = some (h.seq, t3)) ∧ (s.regsOk) ∧
      (t.ptp.mpd = 50) := by decide +kernel
theorem test_w_OrdinaryClockFollowsItsMaster_13 :
    let s : State := live.wr Reg.ptpCtrl 0x11
    let h : PtpHdr := ⟨.a, 77, 0, 5, 0⟩
    let t4 : Nat := 1
    (s.ptpOn = true) ∧
      (s.fromMaster h = false ∨ s.ptpP2p = true ∨ s.ptp.req = none ∨ ∀ seq t3, s.ptp.req = some (seq, t3) →
      h.seq ≠ seq) ∧ (s.regsOk) := by exact ⟨by decide +kernel, .inr (.inr (.inl (by decide +kernel))), by decide +kernel⟩
theorem test_w_OrdinaryClockFollowsItsMaster_14 :
    let s : State := live
    let h : PtpHdr := ⟨.a, 77, 0, 5, 0⟩
    let t4 : Nat := 1
    (s.ptpOn = false) := by decide +kernel
theorem test_w_OrdinaryClockFollowsItsMaster_15 :
    let s : State := live.wr Reg.ptpCtrl 0x13
    let h : PtpHdr := ⟨.a, 77, 0, 5, 0⟩
    let a : Nat := 1
    let b : Nat := 2
    (s.ptpOn = true) ∧ (s.ptpFits h = true) ∧ (s.ptpP2p = true) := by decide +kernel
theorem test_w_OrdinaryClockFollowsItsMaster_16 :
    let s : State := { live.wr Reg.ptpCtrl 0x13 with ptp := { Ptp.reset with req := some (5, 100) } }
    let h : PtpHdr := ⟨.a, 77, 0, 5, 0⟩
    let a : Nat := 1
    let b : Nat := 2
    let t1 : Nat := 100
    let t := after (exec (.ptpPdelayRx h .pdelayResp a b) s) s
    (s.ptpOn = true) ∧ (s.ptpFits h = true) ∧ (s.ptpP2p = true) ∧ (s.ptp.req = some (h.seq, t1)) ∧
      (t.ptp.pdResp = some (h.src, h.seq, a, b, h.corr)) ∧ (t.regs = s.regs) := by decide +kernel
theorem test_w_OrdinaryClockFollowsItsMaster_17 :
    let s : State := { live.wr Reg.ptpCtrl 0x13 with ptp := { Ptp.reset with req := some (5, 100), pdResp := some (77, 5, 20, 300, 0) } }
    let h : PtpHdr := ⟨.a, 77, 0, 5, 0⟩
    let t3 : Nat := 60
    let b : Nat := 0
    let t1 : Nat := 100
    let t2 : Nat := 20
    let t4 : Nat := 300
    let c : Int := 0
    let t := after (exec (.ptpPdelayRx h .pdelayRespFollowUp t3 b) s) s
    (s.ptpOn = true) ∧ (s.ptpFits h = true) ∧ (s.ptpP2p = true) ∧ (s.ptp.req = some (h.seq, t1)) ∧
      (s.ptp.pdResp = some (h.src, h.seq, t2, t4, c)) ∧ (s.regsOk) ∧ (t.ptp.mpd = 80) := by decide +kernel
theorem test_w_OrdinaryClockFollowsItsMaster_18 :
    let s : State := live.wr Reg.ptpCtrl 0x11
    let h : PtpHdr := ⟨.a, 77, 0, 5, 0⟩
    let k : PtpKind := .pdelayReq
    let a : Nat := 1
    let b : Nat := 1
    let t := after (exec (.ptpPdelayRx h k a b) s) s
    (s.ptpOn = true) ∧
      (s.ptpFits h = false ∨ s.ptpP2p = false ∨ k ∉ [.pdelayReq, .pdelayResp, .pdelayRespFollowUp] ∨ (k ≠ .pdelayReq ∧
        s.ptp.req = none)) ∧ (s.regsOk) ∧ (t.ptp = s.ptp ∧ t.rd Reg.ptpCntdisc = 1) := by decide +kernel
theorem test_w_OrdinaryClockFollowsItsMaster_19 :
    let s : State := live
    let h : PtpHdr := ⟨.a, 77, 0, 5, 0⟩
    let k : PtpKind := .pdelayReq
    let a : Nat := 1
    let b : Nat := 1
    (s.ptpOn = false) := by decide +kernel
theorem test_w_OrdinaryClockFollowsItsMaster_20 :
    let s : State := (live.wr Reg.ptpCtrl 0x11).wr Reg.ptpStat 8
    let h : PtpHdr := ⟨.a, 77, 0, 5, 0⟩
    let t4 : Nat := 9
    (s.ptpOn = true) ∧ (s.ptpFits h = true) ∧ (s.ptpMaster = true) ∧ (s.ptpP2p = false) := by decide +kernel
theorem test_w_OrdinaryClockFollowsItsMaster_21 :
    let s : State := live.wr Reg.ptpCtrl 0x11
    let h : PtpHdr := ⟨.a, 77, 0, 5, 0⟩
    let t4 : Nat := 1
    let t := after (exec (.ptpDelayReqRx h t4) s) s
    (s.ptpOn = true) ∧ (s.ptpFits h = false ∨ s.ptpMaster = false ∨ s.ptpP2p = true) ∧ (s.regsOk) ∧ (t.ptp = s.ptp ∧
      t.rd Reg.ptpCntdisc = 1) := by decide +kernel
theorem test_w_OrdinaryClockFollowsItsMaster_22 :
    let s : State := live
    let h : PtpHdr := ⟨.a, 77, 0, 5, 0⟩
    let t4 : Nat := 1
    (s.ptpOn = false) := by decide +kernel
theorem test_w_OrdinaryClockFollowsItsMaster_23 :
    let s : State := (live.wr Reg.ptpCtrl 0x11).wr Reg.ptpStat 8
    (s.ptpOn = true) ∧ (s.ptpMaster = true) := by decide +kernel
theorem test_w_OrdinaryClockFollowsItsMaster_24 :
    let s : State := live
    (s.ptpOn = false ∨ s.ptpMaster = false) := by decide +kernel
theorem test_w_OrdinaryClockFollowsItsMaster_25 :
    let s : State := (live.wr Reg.ptpCtrl 0x11).wr Reg.ptpStat 8
    (s.ptpOn = true) ∧ (s.ptpMaster = true) := by decide +kernel
theorem test_w_OrdinaryClockFollowsItsMaster_26 :
    let s : State := live
    (s.ptpOn = false ∨ s.ptpMaster = false) := by decide +kernel
theorem test_w_OrdinaryClockFollowsItsMaster_27 :
    let s : State := { live.wr Reg.ptpCtrl 0x11 with ptp := { Ptp.reset with master := some 77 } }
    (s.ptpOn = true) ∧ (s.ptpP2p = false) ∧ (s.ptp.master.isSome = true) := by decide +kernel
theorem test_w_OrdinaryClockFollowsItsMaster_28 :
    let s : State := live.wr Reg.ptpCtrl 0x13
    (s.ptpOn = true) ∧ (s.ptpP2p = true) := by decide +kernel
theorem test_w_OrdinaryClockFollowsItsMaster_29 :
    let s : State := live
    (s.ptpOn = false ∨ (s.ptpP2p = false ∧ s.ptp.master = none)) := by decide +kernel
theorem test_w_OrdinaryClockFollowsItsMaster_30 :
    let s : State := { live.wr Reg.ptpCtrl 0x15 with now := 40000000000, ptp := { Ptp.reset with master := some 77 } }
    let m : Dword := 77
    let t := after (exec .ptpMasterLost s) s
    (s.ptpOn = true) ∧ (s.ptp.master = some m) ∧
      (s.ptp.annAt + s.annTimeout ≤ s.now ∨ s.ptp.syncAt + 4 * s.syncInterval ≤ s.now) ∧ (s.qualified .a = []) ∧
      (s.qualified .b = []) ∧ (s.regsOk) ∧ (t.sstate = 3 ∧ bit (t.rd 0x24010) 1 = true) := by decide +kernel
theorem test_w_OrdinaryClockFollowsItsMaster_31 :
    let s : State := { live.wr Reg.ptpCtrl 0x11 with now := 40000000000 }
    let t := after (exec .ptpMasterLost s) s
    (s.ptpOn = true) ∧ (s.ptp.master = none) ∧ (s.ptpMaster = false) ∧ (s.safeLatch = false) ∧
      (bit (s.rd Reg.ptpCtrl) 2 = false) ∧ (s.ptp.annAt + s.annTimeout ≤ s.now) ∧ (s.qualified s.ptpPlane = []) ∧
      (s.regsOk) ∧ (t.ptpMaster = true) ∧ (t.ptp = s.ptp) := by decide +kernel
theorem test_w_OrdinaryClockFollowsItsMaster_32 :
    let s : State := { State.reset with supply := .off }
    (s.alive = false ∨ (s.now < s.ptp.annAt + s.annTimeout ∧ s.now < s.ptp.syncAt + 4 * s.syncInterval)) := by decide +kernel
theorem test_w_OrdinaryClockFollowsItsMaster_33 :
    let s : State := { live.wr Reg.ptpStat 3 with now := 70000000000000, ptp := { Ptp.reset with holdFrom := some 0 } }
    let f : Nat := 0
    let t := after (exec .holdoverLong s) s
    (s.alive = true) ∧ (s.sstate = 3) ∧ (s.ptp.longTold = false) ∧ (s.ptp.holdFrom = some f) ∧
      (f + 1000000000 * fld (s.rd Reg.ptpHoldmax) 0 16 < s.now) ∧ (s.regsOk) ∧ (t.ptp.longTold = true) ∧
      (bit (t.rd 0x24010) 4 = true) ∧ (s.reports t 0x2404 []) ∧ (t.sstate = 3) := by decide +kernel
theorem test_w_OrdinaryClockFollowsItsMaster_34 :
    let s : State := live
    (s.alive = false ∨ s.sstate ≠ 3 ∨ s.ptp.longTold = true ∨ s.ptp.holdFrom = none ∨ ∀ f, s.ptp.holdFrom = some f →
      s.now ≤ f + 1000000000 * fld (s.rd Reg.ptpHoldmax) 0 16) := by exact .inr (.inl (by decide +kernel))
theorem test_w_TimePinsAndSteps_1 :
    let s : State := { live.wr (Reg.tpinPincfg 3) 2 with now := 5000, pins := live.pins.set 3 { TPin.reset with owner := .mode, due := some 4000 } }
    let n : Fin 8 := 3
    let d : Nat := 4000
    let t := after (exec (.tpinPulseStart n) s) s
    ((s.pin n).due = some d) ∧ (s.pinsOn = true) ∧ (d ≤ s.now) ∧ (s.pinMode n = 2) ∧ (s.regsOk) ∧
      (t.outbox = s.outbox ++ [.pin n true]) ∧ ((t.pin n).running = some (d + (s.rd (Reg.tpinWidth n)).toNat)) ∧
      ((t.pin n).due = some (d + (s.rd (Reg.tpinPeriod n)).toNat)) ∧ ((t.pin n).late = (s.pin n).late) ∧
      (t.regs = s.regs) ∧ (∀ m : Fin 8, m ≠ n → t.pin m = s.pin m) := by decide +kernel
theorem test_w_TimePinsAndSteps_2 :
    let s : State := { live.wr (Reg.tpinPincfg 3) 1 with now := 5000, pins := live.pins.set 3 { TPin.reset with owner := .mode, due := some 4000, start := 400 } }
    let n : Fin 8 := 3
    let d : Nat := 4000
    let t := after (exec (.tpinPulseStart n) s) s
    ((s.pin n).due = some d) ∧ (s.pinsOn = true) ∧ (d ≤ s.now) ∧ (s.pinMode n = 1) ∧ (d ≠ (s.pin n).start) ∧
      (s.regsOk) ∧ (t.outbox = s.outbox ++ [.pin n true]) ∧
      ((t.pin n).running = some (d + (s.rd (Reg.tpinWidth n)).toNat)) ∧ ((t.pin n).due = none) ∧
      ((t.pin n).late = true) ∧ (bit (t.rd 0x19010) 16 = true) ∧ (s.reports t 0x1903 [wd n]) := by decide +kernel
theorem test_w_TimePinsAndSteps_3 :
    let s : State := { live.wr (Reg.tpinPincfg 3) 1 with now := 5000, pins := live.pins.set 3 { TPin.reset with owner := .mode, due := some 4000, start := 4000 } }
    let n : Fin 8 := 3
    let d : Nat := 4000
    let t := after (exec (.tpinPulseStart n) s) s
    ((s.pin n).due = some d) ∧ (s.pinsOn = true) ∧ (d ≤ s.now) ∧ (s.pinMode n ≠ 2) ∧ (s.pinMode n = 1 →
      d = (s.pin n).start) ∧ (t.outbox = s.outbox ++ [.pin n true]) ∧
      ((t.pin n).running = some (d + (s.rd (Reg.tpinWidth n)).toNat)) ∧ ((t.pin n).due = none) ∧
      ((t.pin n).late = (s.pin n).late) ∧ (t.regs = s.regs) := by decide +kernel
theorem test_w_TimePinsAndSteps_4 :
    let s : State := live
    let n : Fin 8 := 3
    (s.pinsOn = false ∨ (s.pin n).due = none ∨ ∀ d, (s.pin n).due = some d → s.now < d) := by exact .inr (.inl (by decide +kernel))
theorem test_w_TimePinsAndSteps_5 :
    let s : State := { live with now := 5000, pins := live.pins.set 3 { TPin.reset with owner := .mode, running := some 4000 } }
    let n : Fin 8 := 3
    let e : Nat := 4000
    let t := after (exec (.tpinPulseEnd n) s) s
    (s.alive = true) ∧ ((s.pin n).running = some e) ∧ (e ≤ s.now) ∧ (t.outbox = s.outbox ++ [.pin n false]) ∧
      ((t.pin n).running = none) ∧ ((t.pin n).due = (s.pin n).due) ∧ (t.regs = s.regs) := by decide +kernel
theorem test_w_TimePinsAndSteps_6 :
    let s : State := live
    let n : Fin 8 := 3
    (s.alive = false ∨ (s.pin n).running = none ∨ ∀ e, (s.pin n).running = some e → s.now < e) := by exact .inr (.inl (by decide +kernel))
theorem test_w_TimePinsAndSteps_7 :
    let s : State := live.wr (Reg.tpinPincfg 3) 0x13
    let n : Fin 8 := 3
    let r : Bool := true
    let a : Nat := 1
    let b : Nat := 2
    let c : Nat := 3
    let t := after (exec (.tpinCaptureEdge n r a b c) s) s
    (s.pinsOn = true) ∧ (s.pinMode n = 3) ∧ (bit (s.rd (Reg.tpinPincfg n)) (if r then 4 else 5) = true) ∧
      ((s.pin n).edge = none) ∧ ((t.pin n).edge = some (a, b, c)) ∧ ((t.pin n).miss = (s.pin n).miss) ∧
      (t.regs = s.regs) := by decide +kernel
theorem test_w_TimePinsAndSteps_8 :
    let s : State := { live.wr (Reg.tpinPincfg 3) 0x23 with pins := live.pins.set 3 { TPin.reset with owner := .mode, edge := some (1, 1, 1) } }
    let n : Fin 8 := 3
    let r : Bool := false
    let a : Nat := 1
    let b : Nat := 2
    let c : Nat := 3
    let t := after (exec (.tpinCaptureEdge n r a b c) s) s
    (s.pinsOn = true) ∧ (s.pinMode n = 3) ∧ (bit (s.rd (Reg.tpinPincfg n)) (if r then 4 else 5) = true) ∧
      ((s.pin n).edge.isSome = true) ∧ (s.regsOk) ∧ ((t.pin n).edge = (s.pin n).edge) ∧
      ((t.pin n).miss = satNat 255 ((s.pin n).miss + 1)) ∧ (bit (t.rd 0x19010) (8 + n.val) = true) ∧
      ((s.pin n).missAt = none → s.reports t 0x1902 [wd n]) := by decide +kernel
theorem test_w_TimePinsAndSteps_9 :
    let s : State := live
    let n : Fin 8 := 3
    let r : Bool := true
    let a : Nat := 1
    let b : Nat := 1
    let c : Nat := 1
    (s.pinsOn = false ∨ s.pinMode n ≠ 3 ∨ bit (s.rd (Reg.tpinPincfg n)) (if r then 4 else 5) = false) := by decide +kernel
theorem test_w_TimePinsAndSteps_10 :
    let s : State := stopd.wr Reg.ptpSettimeLo 5000
    let t := after (exec (.timeSetCmd .pf0) s) s
    (s.allowsWrite .pf0 Reg.ptpSetcmd 1 = true) ∧ (s.eng.mode = .stop) ∧ (s.regsOk) ∧ (t.now = 5000) := by decide +kernel
theorem test_w_TimePinsAndSteps_11 :
    let s : State := live.wr Reg.ptpSettimeLo 5000
    let t := after (exec (.timeSetCmd .pf0) s) s
    (s.allowsWrite .pf0 Reg.ptpSetcmd 1 = true) ∧ (s.eng.mode ≠ .stop) ∧ (t.now = 0) := by decide +kernel
theorem test_w_TimePinsAndSteps_12 :
    let s : State := { live with now := 0x500000001 }
    let t := after (exec (.timeSnapshot .pf0) s) s
    (s.allowsWrite .pf0 Reg.ptpTsnap 1 = true) ∧ (s.now < 2 ^ 64) ∧ (s.regsOk) ∧ (t.rd64 Reg.ptpTimeLo = s.now) ∧
      (t.rd Reg.ptpOffs = wi (max (-2147483648) (min 2147483647 s.ptp.offs))) ∧ (t.ptp = s.ptp) := by decide +kernel
theorem test_w_TimePinsAndSteps_13 :
    let s : State := { live with now := 0x500000001 }
    let t := after (exec (.mtimeSnapshot .pf0) s) s
    (s.allowsWrite .pf0 Reg.sysSnap 1 = true) ∧ (s.now < 2 ^ 64) ∧ (s.regsOk) ∧ (t.rd Reg.sysMtimeLo = 1 ∧
      t.rd (Reg.sysMtimeLo + 4) = 5) := by decide +kernel
theorem test_w_TimePinsAndSteps_14 :
    let s : State := stopd.wr (Reg.tpinPeriod 2) 100000
    let n : Fin 8 := 2
    let v : Word := 400
    let t := after (exec (.tpinConfigWrite .pf0 n 4 v) s) s
    (s.allowsWrite .pf0 (Reg.tpinWidth n) v = true) ∧ (pinTimesOk (s.rd (Reg.tpinPeriod n)).toNat v.toNat = true) ∧
      (s.regsOk) ∧ (t.rd (Reg.tpinWidth 2) = 400) := by decide +kernel
theorem test_w_TimePinsAndSteps_15 :
    let s : State := stopd.wr (Reg.tpinPeriod 2) 100000
    let n : Fin 8 := 2
    let v : Word := 402
    let t := after (exec (.tpinConfigWrite .pf0 n 4 v) s) s
    (s.allowsWrite .pf0 (Reg.tpinWidth n) v = true) ∧ (pinTimesOk (s.rd (Reg.tpinPeriod n)).toNat v.toNat = false) ∧
      (t.rd 0x19010 = 0x40000000) := by decide +kernel
theorem test_w_MailboxesCarryMessages_1 :
    let s : State := live.wr (Reg.mbxBind 5) 0x80000081
    let pf : Pf := .pf0
    let n : Fin 32 := 5
    let v : Word := 77
    let a : Bool := false
    let t := after (exec (.mbTxWord pf n v) s) s
    (s.allowsWrite pf (Reg.mbxTxword n) v = true) ∧ (s.pfEnd pf n = some a) ∧ (((s.chan n).staging a).length < 16) ∧
      ((t.chan n).staging a = (s.chan n).staging a ++ [v]) ∧ ((t.chan n).txq a = (s.chan n).txq a) ∧
      (∀ m : Fin 32, m ≠ n → t.chan m = s.chan m) ∧ (t.regs = s.regs) := by decide +kernel
theorem test_w_MailboxesCarryMessages_2 :
    let s : State := (live.wr (Reg.mbxBind 5) 0x80000081).modChan 5 fun c => { c with stB := List.replicate 16 1 }
    let pf : Pf := .pf0
    let n : Fin 32 := 5
    let v : Word := 77
    let a : Bool := false
    let t := after (exec (.mbTxWord pf n v) s) s
    (s.allowsWrite pf (Reg.mbxTxword n) v = true) ∧ (s.pfEnd pf n = some a) ∧ (16 ≤ ((s.chan n).staging a).length) ∧
      (s.regsOk) ∧ ((t.chan n).staging a = []) ∧ (bit (t.chan n).flags (6 + b2n (!a)) = true) ∧
      (t.rd 0x31010 = s.rd 0x31010 ||| 0x40000008) := by decide +kernel
theorem test_w_MailboxesCarryMessages_3 :
    let s : State := live.wr (Reg.mbxBind 5) 0x80000021
    let pf : Pf := .pf0
    let n : Fin 32 := 5
    let v : Word := 7
    (s.allowsWrite pf (Reg.mbxTxword n) v = true) ∧ (s.pfEnd pf n = none) := by decide +kernel
theorem test_w_MailboxesCarryMessages_4 :
    let s : State := (live.wr (Reg.mbxBind 20) 0x80000098).modChan 20 fun c => { c with stA := [0x8200000, 0x120000] }
    let pf : Pf := .pf0
    let n : Fin 32 := 20
    let len : BitVec 5 := 2
    let a : Bool := true
    let st : List Word := [0x8200000, 0x120000]
    let t := after (exec (.mbTxCommit pf n len) s) s
    (s.allowsWrite pf (Reg.mbxTxcommit n) (len.zeroExtend 32) = true) ∧ (s.pfEnd pf n = some a) ∧
      (s.chanEn n = true) ∧ (s.peerMid n a = 1 → s.twn.role ≠ .standby) ∧ ((s.chan n).staging a = st) ∧
      (len.toNat = st.length) ∧ (st ≠ []) ∧ (16 ≤ n.val → st.length = 2 ∧ noticeOk n st = true) ∧
      (chanRoom n ((s.chan n).txq a) st.length = true) ∧ (s.regsOk) ∧
      ((t.chan n).txq a = (s.chan n).txq a ++ [⟨(s.chan n).epoch a, st⟩]) ∧ ((t.chan n).staging a = []) ∧
      ((t.chan n).txq (!a) = (s.chan n).txq (!a)) ∧ (s.peerMid n a ≠ 1 →
      bit (t.rd (Reg.dblDb (s.peerMid n a))) n = true) := by decide +kernel
theorem test_w_MailboxesCarryMessages_5 :
    let s : State := (live.wr (Reg.mbxBind 5) 0x80000081).modChan 5 fun c => { c with stB := [1, 2] }
    let pf : Pf := .pf0
    let n : Fin 32 := 5
    let len : BitVec 5 := 3
    let a : Bool := false
    let t := after (exec (.mbTxCommit pf n len) s) s
    (s.allowsWrite pf (Reg.mbxTxcommit n) (len.zeroExtend 32) = true) ∧ (s.pfEnd pf n = some a) ∧
      (s.chanEn n = true) ∧ (len ≠ 0) ∧
      (len.toNat ≠ ((s.chan n).staging a).length ∨ (16 ≤ n.val ∧ (len.toNat ≠ 2 ∨ noticeOk n ((s.chan n).staging a) =
        false))) ∧ (s.regsOk) ∧ ((t.chan n).staging a = []) ∧ ((t.chan n).txq a = (s.chan n).txq a) ∧
      (bit (t.chan n).flags (6 + b2n (!a)) = true) ∧ (bit (t.rd 0x31010) 3 = true) := by decide +kernel
theorem test_w_MailboxesCarryMessages_6 :
    let s : State := (live.wr (Reg.mbxBind 5) 0x80000081).modChan 5 fun c => { c with stB := [1, 2], ba := [⟨0, List.replicate 15 9⟩] }
    let pf : Pf := .pf0
    let n : Fin 32 := 5
    let len : BitVec 5 := 2
    let a : Bool := false
    let t := after (exec (.mbTxCommit pf n len) s) s
    (s.allowsWrite pf (Reg.mbxTxcommit n) (len.zeroExtend 32) = true) ∧ (s.pfEnd pf n = some a) ∧
      (s.chanEn n = true) ∧ (16 ≤ n.val → len.toNat = 2 ∧ noticeOk n ((s.chan n).staging a) = true) ∧ (len ≠ 0) ∧
      (len.toNat = ((s.chan n).staging a).length) ∧ (chanRoom n ((s.chan n).txq a) len.toNat = false) ∧ (s.regsOk) ∧
      ((t.chan n).staging a = (s.chan n).staging a) ∧ ((t.chan n).txq a = (s.chan n).txq a) ∧
      (bit (t.chan n).flags (4 + b2n (!a)) = true) ∧ (bit (t.rd 0x31010) 2 = true) := by decide +kernel
theorem test_w_MailboxesCarryMessages_7 :
    let s : State := live.wr (Reg.mbxBind 5) 0x80000021
    let pf : Pf := .pf0
    let n : Fin 32 := 5
    let len : BitVec 5 := 2
    (s.allowsWrite pf (Reg.mbxTxcommit n) (len.zeroExtend 32) = true) ∧
      (s.pfEnd pf n = none ∨ (len ≠ 0 ∧ s.chanEn n = false)) := by decide +kernel
theorem test_w_MailboxesCarryMessages_8 :
    let s : State := (live.wr (Reg.mbxBind 5) 0x80000081).modChan 5 fun c => { c with stB := [1, 2] }
    let pf : Pf := .pf0
    let n : Fin 32 := 5
    let a : Bool := false
    let t := after (exec (.mbTxCommit pf n 0) s) s
    (s.allowsWrite pf (Reg.mbxTxcommit n) 0 = true) ∧ (s.pfEnd pf n = some a) ∧ ((t.chan n).staging a = []) ∧
      ((t.chan n).txq a = (s.chan n).txq a) ∧ (t.regs = s.regs) := by decide +kernel
theorem test_w_MailboxesCarryMessages_9 :
    let s : State := (live.wr (Reg.mbxBind 5) 0x80000081).modChan 5 fun c => { c with stB := [1, 2] }
    let pf : Pf := .pf0
    let n : Fin 32 := 5
    let a : Bool := false
    let t := after (exec (.mbTxDiscard pf n) s) s
    (s.allowsWrite pf (Reg.mbxTxcommit n) 0 = true) ∧ (s.pfEnd pf n = some a) ∧ ((t.chan n).staging a = []) ∧
      ((t.chan n).txq a = (s.chan n).txq a) ∧ ((t.chan n).flags = (s.chan n).flags) ∧ (t.regs = s.regs) := by decide +kernel
theorem test_w_MailboxesCarryMessages_10 :
    let s : State := live.wr (Reg.mbxBind 5) 0x80000021
    let pf : Pf := .pf0
    let n : Fin 32 := 5
    (s.allowsWrite pf (Reg.mbxTxcommit n) 0 = true) ∧ (s.pfEnd pf n = none) := by decide +kernel
theorem test_w_MailboxesCarryMessages_11 :
    let s : State := live.wr (Reg.mbxBind 5) 0x80000039
    let pf : Pf := .pf1
    let v : Word := 5
    let t := after (exec (.mbRxSelect pf v) s) s
    (s.allowsWrite pf (Reg.mbxRxsel (pfIdx pf)) v = true) ∧ (s.regsOk) ∧
      (t.rd (Reg.mbxRxsel (pfIdx pf)) = v &&& 0x1f) ∧ (bit (t.rd (Reg.mbxRxinfo (pfIdx pf))) 30 = true) ∧
      (t.host = s.host) := by decide +kernel
theorem test_w_MailboxesCarryMessages_12 :
    let s : State := (((live.wr (Reg.mbxBind 5) 0x80000039).wr (Reg.mbxRxsel 1) 5).wr (Reg.mbxRxinfo 1) 0x40000000).modChan 5 fun c => { c with ba := [⟨3, [7, 8]⟩] }
    let pf : Pf := .pf1
    let m : MbMsg := ⟨3, [7, 8]⟩
    let t := after (exec (.mbRxWindowReady pf) s) s
    (s.alive = true) ∧ (bit (s.rd (Reg.mbxRxinfo (pfIdx pf))) 30 = true) ∧
      (s.mbHead (fld (s.rd (Reg.mbxRxsel (pfIdx pf))) 0 5) (pfMid pf) = some m) ∧ (s.regsOk) ∧
      (t.rd (Reg.mbxRxinfo (pfIdx pf)) = wd (m.words.length + 256 * m.epoch.toNat + 0x80000000)) ∧
      (∀ j : Fin 16, t.rd (Reg.mbxRxdata (pfIdx pf) j) = m.words.getD j 0) ∧ (t.host = s.host) := by decide +kernel
theorem test_w_MailboxesCarryMessages_13 :
    let s : State := ((live.wr (Reg.mbxBind 5) 0x80000039).wr (Reg.mbxRxsel 1) 5).wr (Reg.mbxRxinfo 1) 0x40000000
    let pf : Pf := .pf1
    let t := after (exec (.mbRxWindowReady pf) s) s
    (s.alive = true) ∧ (bit (s.rd (Reg.mbxRxinfo (pfIdx pf))) 30 = true) ∧
      (s.mbHead (fld (s.rd (Reg.mbxRxsel (pfIdx pf))) 0 5) (pfMid pf) = none) ∧ (s.regsOk) ∧
      (t.rd (Reg.mbxRxinfo (pfIdx pf)) = 0) ∧ (∀ j : Fin 16, t.rd (Reg.mbxRxdata (pfIdx pf) j) = 0) := by decide +kernel
theorem test_w_MailboxesCarryMessages_14 :
    let s : State := live
    let pf : Pf := .pf1
    (s.alive = false ∨ bit (s.rd (Reg.mbxRxinfo (pfIdx pf))) 30 = false) := by decide +kernel
theorem test_w_MailboxesCarryMessages_15 :
    let s : State := ((live.wr (Reg.mbxBind 5) 0x80000039).wr (Reg.mbxRxsel 1) 5).modChan 5 fun c => { c with ba := [⟨3, [7, 8]⟩, ⟨3, [9]⟩] }
    let pf : Pf := .pf1
    let n : Fin 32 := 5
    let a : Bool := true
    let m : MbMsg := ⟨3, [7, 8]⟩
    let r : List MbMsg := [⟨3, [9]⟩]
    let t := after (exec (.mbRxPop pf n) s) s
    (s.allowsWrite pf (Reg.mbxRxpop n) 1 = true) ∧ (s.pfEnd pf n = some a) ∧ ((s.chan n).txq (!a) = m :: r) ∧
      (s.regsOk) ∧ ((t.chan n).txq (!a) = r) ∧ ((t.chan n).txq a = (s.chan n).txq a) ∧
      ((t.chan n).popBA = (s.chan n).popBA + (if a then 1 else 0)) ∧
      ((t.chan n).popAB = (s.chan n).popAB + (if a then 0 else 1)) ∧ (fld (s.rd (Reg.mbxRxsel (pfIdx pf))) 0 5 = n →
      bit (t.rd (Reg.mbxRxinfo (pfIdx pf))) 30 = true) := by decide +kernel
theorem test_w_MailboxesCarryMessages_16 :
    let s : State := live.wr (Reg.mbxBind 5) 0x80000021
    let pf : Pf := .pf0
    let n : Fin 32 := 5
    (s.allowsWrite pf (Reg.mbxRxpop n) 1 = true) ∧ (s.pfEnd pf n = none) := by decide +kernel
theorem test_w_MailboxesCarryMessages_17 :
    let s : State := live.wr (Reg.mbxBind 5) 0x80000039
    let pf : Pf := .pf1
    let n : Fin 32 := 5
    let a : Bool := true
    (s.allowsWrite pf (Reg.mbxRxpop n) 1 = true) ∧ (s.pfEnd pf n = some a) ∧ ((s.chan n).txq (!a) = []) := by decide +kernel
theorem test_w_MailboxesCarryMessages_18 :
    let s : State := (live.wr (Reg.mbxBind 5) 0x80000039).modChan 5 fun c => { c with ba := [⟨3, [7, 8]⟩], stA := [1] }
    let pf : Pf := .pf1
    let n : Fin 32 := 5
    let a : Bool := true
    let t := after (exec (.mbEndReset pf n) s) s
    (s.allowsWrite pf (Reg.mbxEndrst n) 1 = true) ∧ (s.pfEnd pf n = some a) ∧ (n.val < 16) ∧ (s.regsOk) ∧
      ((t.chan n).staging a = []) ∧ ((t.chan n).txq (!a) = []) ∧ ((t.chan n).txq a = (s.chan n).txq a) ∧
      ((t.chan n).epoch a = (s.chan n).epoch a + 1) ∧ (bit (t.chan n).flags (b2n a) = true) ∧
      (bit (t.rd 0x31010) 0 = true) ∧ (s.peerMid n a ≠ 1 → bit (t.rd (Reg.dblDb (s.peerMid n a))) n = true ∧
      s.reports t 0x3101 [wd n]) := by decide +kernel
theorem test_w_MailboxesCarryMessages_19 :
    let s : State := (live.wr (Reg.mbxBind 21) 0x80000098).modChan 21 fun c => { c with ba := [⟨3, [0x8200000, 0x120000]⟩] }
    let pf : Pf := .pf0
    let n : Fin 32 := 21
    let a : Bool := true
    let t := after (exec (.mbEndReset pf n) s) s
    (s.allowsWrite pf (Reg.mbxEndrst n) 1 = true) ∧ (s.pfEnd pf n = some a) ∧ (16 < n.val) ∧
      ((s.chan n).txq (!a) ≠ []) ∧ (s.regsOk) ∧ ((t.chan n).txq (!a) = []) ∧ (bit (t.chan n).flags (b2n a) = true) ∧
      (bit (t.chan n).flags (2 + b2n a) = true) ∧ (bit (t.rd 0x31010) 1 = true) := by decide +kernel
theorem test_w_MailboxesCarryMessages_20 :
    let s : State := live.wr (Reg.mbxBind 5) 0x80000021
    let pf : Pf := .pf0
    let n : Fin 32 := 5
    (s.allowsWrite pf (Reg.mbxEndrst n) 1 = true) ∧ (s.pfEnd pf n = none) := by decide +kernel
theorem test_w_MailboxesCarryMessages_21 :
    let s : State := stopd.wr (Reg.mbxBind 5) 0
    let n : Fin 32 := 5
    let v : Word := 0x80000098
    let t := after (exec (.mbBindWrite .pf0 n v) s) s
    (s.allowsWrite .pf0 (Reg.mbxBind n) v = true) ∧ (n.val ≠ 16) ∧ (bindOk n (v &&& 0x800000ff) = true) ∧
      (v &&& 0x800000ff ≠ s.bind n) ∧ (s.chanEn n = false) ∧ (s.regsOk) ∧ (t.bind n = v &&& 0x800000ff) ∧
      ((t.chan n).ab = [] ∧ (t.chan n).ba = [] ∧ (t.chan n).stA = [] ∧ (t.chan n).stB = []) ∧
      ((t.chan n).epA = (s.chan n).epA + 1 ∧ (t.chan n).epB = (s.chan n).epB + 1) ∧ (∀ m : Fin 32, m ≠ n →
      t.chan m = s.chan m ∧ t.bind m = s.bind m) := by decide +kernel
theorem test_w_MailboxesCarryMessages_22 :
    let s : State := stopd.wr (Reg.mbxBind 5) 0x80000098
    let n : Fin 32 := 5
    let v : Word := 0x98
    let t := after (exec (.mbBindWrite .pf0 n v) s) s
    (s.allowsWrite .pf0 (Reg.mbxBind n) v = true) ∧ (n.val ≠ 16) ∧ (bindOk n (v &&& 0x800000ff) = true) ∧
      (v &&& 0x800000ff ≠ s.bind n) ∧ (s.chanEn n = true) ∧ (t.bind 5 = 0x98) := by decide +kernel
theorem test_w_MailboxesCarryMessages_23 :
    let s : State := stopd.wr (Reg.mbxBind 5) 0x80000098
    let n : Fin 32 := 5
    let v : Word := 0x80000098
    (s.allowsWrite .pf0 (Reg.mbxBind n) v = true) ∧ (n.val ≠ 16) ∧ (bindOk n (v &&& 0x800000ff) = true) ∧
      (v &&& 0x800000ff = s.bind n) := by decide +kernel
theorem test_w_MailboxesCarryMessages_24 :
    let s : State := stopd
    let n : Fin 32 := 2
    let v : Word := 0x80000098
    let t := after (exec (.mbBindWrite .pf0 n v) s) s
    (s.allowsWrite .pf0 (Reg.mbxBind n) v = true) ∧ (n.val = 16 ∨ bindOk n (v &&& 0x800000ff) = false) ∧
      (t.rd 0x31010 = 0x40000000) := by decide +kernel
theorem test_w_HostLinkVectorsAndStatusBlocks_1 :
    let s : State := ((live.wr (Reg.dblPba 1) 8).wr Reg.hifStat 0xa01).wr (Reg.dblMsixData 1 3) 99
    let pf : Pf := .pf1
    let v : Fin 32 := 3
    let t := after (exec (.msixUnmask pf v) s) s
    (s.allowsWrite pf (Reg.dblMsixCtl (pfIdx pf) v) 0 = true) ∧ (bit (s.rd (Reg.dblMsixCtl (pfIdx pf) v)) 0 = true) ∧
      (bit (s.rd (Reg.dblPba (pfIdx pf))) v = true) ∧ (s.msixEn (pfIdx pf) = true) ∧ (s.canPost (pfIdx pf) = true) ∧
      (s.regsOk) ∧ (t.outbox = [.msix .pf1 3 0 99] ∧ t.rd (Reg.dblPba 1) = 0) := by decide +kernel
theorem test_w_HostLinkVectorsAndStatusBlocks_2 :
    let s : State := live
    let pf : Pf := .pf0
    let v : Fin 32 := 3
    let t := after (exec (.msixUnmask pf v) s) s
    (s.allowsWrite pf (Reg.dblMsixCtl (pfIdx pf) v) 0 = true) ∧
      (bit (s.rd (Reg.dblPba (pfIdx pf))) v = false ∨ s.msixEn (pfIdx pf) = false) ∧ (t.rd (Reg.dblMsixCtl 0 3) = 0) := by decide +kernel
theorem test_w_HostLinkVectorsAndStatusBlocks_3 :
    let s : State := { ((live.wr (Reg.dblSbctrl 0) 1).wr Reg.hifStat 0x501).wr (Reg.dblSblo 0) 0x1000 with now := 10000 }
    let pf : Pf := .pf0
    let t := after (exec (.statusBlockWrite pf) s) s
    (s.alive = true) ∧ (s.sbEn (pfIdx pf) = true) ∧
      ((Vec.at s.host.fn (pfIdx pf) HostFn.reset).sbAt < s.now / 10000) ∧ (s.canPost (pfIdx pf) = true) ∧
      (s.vecMasked (pfIdx pf) 0 = true) ∧ (s.regsOk) ∧
      (t.outbox = s.outbox ++ [.posted pf (s.sbAddr (pfIdx pf)) ((s.sbWords (pfIdx pf)).flatMap fun x => bytesLE x 4)])
        ∧ (t.rd (Reg.dblSbseq (pfIdx pf)) = s.rd (Reg.dblSbseq (pfIdx pf)) + 1) ∧
      ((Vec.at t.host.fn (pfIdx pf) HostFn.reset).sbAt = s.now / 10000) ∧
      ((Vec.at t.host.fn (pfIdx pf) HostFn.reset).prev = some (sumWords (s.sbWords (pfIdx pf)))) := by decide +kernel
theorem test_w_HostLinkVectorsAndStatusBlocks_4 :
    let s : State := { live.wr (Reg.dblSbctrl 0) 1 with now := 10000 }
    let pf : Pf := .pf0
    let t := after (exec (.statusBlockWrite pf) s) s
    (s.alive = true) ∧ (s.sbEn (pfIdx pf) = true) ∧
      ((Vec.at s.host.fn (pfIdx pf) HostFn.reset).sbAt < s.now / 10000) ∧ (s.canPost (pfIdx pf) = false) ∧
      (s.vecMasked (pfIdx pf) 0 = true) ∧ (s.regsOk) ∧ (t.outbox = s.outbox) ∧
      (t.rd (Reg.dblSbseq (pfIdx pf)) = s.rd (Reg.dblSbseq (pfIdx pf))) ∧ (bit (t.rd 0x30010) 4 = true) := by decide +kernel
theorem test_w_HostLinkVectorsAndStatusBlocks_5 :
    let s : State := live
    let pf : Pf := .pf1
    (s.alive = false ∨ s.sbEn (pfIdx pf) = false ∨ s.now / 10000 ≤ (Vec.at s.host.fn (pfIdx pf) HostFn.reset).sbAt) := by decide +kernel
theorem test_w_HostLinkVectorsAndStatusBlocks_6 :
    let s : State := live
    let f : Nat := 0
    (s.sbWords f = [s.rd (Reg.dblSbseq f) + 1, wd (mstateCode s.mstate), s.rd (Reg.dblDb (8 + f)) &&& s.rd
        (Reg.dblDbmask (8 + f)), s.sbChans f, packBits 32 fun p => (pageTable.any fun d => d.page == p) && s.evtPend p
        != 0, packBits 32 fun p => (pageTable.any fun d => d.page == 32 + p) && s.evtPend (32 + p) != 0, loN s.now, hiN
        s.now, s.rd (Reg.dblC0acc f), 0, 0, 0, 0, 0, 0, 0]) := by decide +kernel
theorem test_w_HostLinkVectorsAndStatusBlocks_7 :
    let s : State := (((live.wr (Reg.dblSbctrl 0) 1).wr Reg.hifStat 0x501).wr (Reg.dblMsixCtl 0 1) 0).modFn 0 fun x => { x with c0 := 2 }
    let pf : Pf := .pf0
    let k : Nat := 1
    let t := after (exec (.c0MessageSend pf) s) s
    (s.alive = true) ∧ ((Vec.at s.host.fn (pfIdx pf) HostFn.reset).c0 = k + 1) ∧ (s.sbEn (pfIdx pf) = true) ∧
      (s.canPost (pfIdx pf) = true) ∧ (s.vecMasked (pfIdx pf) 1 = false) ∧ (s.msixEn (pfIdx pf) = true) ∧
      (t.outbox = s.outbox ++ [.posted pf (s.sbAddr (pfIdx pf) + 0x20) (bytesLE (s.rd (Reg.dblC0acc (pfIdx pf))) 4),
        .msix pf 1 (dword (s.rd (Reg.dblMsixHi (pfIdx pf) 1)) (s.rd (Reg.dblMsixLo (pfIdx pf) 1))) (s.rd
        (Reg.dblMsixData (pfIdx pf) 1))]) ∧ ((Vec.at t.host.fn (pfIdx pf) HostFn.reset).c0 = k) ∧ (t.regs = s.regs) := by decide +kernel
theorem test_w_HostLinkVectorsAndStatusBlocks_8 :
    let s : State := live.modFn 0 fun x => { x with c0 := 2 }
    let pf : Pf := .pf0
    let k : Nat := 1
    let t := after (exec (.c0MessageSend pf) s) s
    (s.alive = true) ∧ ((Vec.at s.host.fn (pfIdx pf) HostFn.reset).c0 = k + 1) ∧ (s.sbEn (pfIdx pf) = false) ∧
      (s.vecMasked (pfIdx pf) 1 = true) ∧ (s.regsOk) ∧ (t.outbox = s.outbox) ∧
      (bit (t.rd (Reg.dblPba (pfIdx pf))) 1 = true) ∧ ((Vec.at t.host.fn (pfIdx pf) HostFn.reset).c0 = k) := by decide +kernel
theorem test_w_HostLinkVectorsAndStatusBlocks_9 :
    let s : State := live
    let pf : Pf := .pf1
    (s.alive = false ∨ (Vec.at s.host.fn (pfIdx pf) HostFn.reset).c0 = 0) := by decide +kernel
theorem test_w_HostLinkVectorsAndStatusBlocks_10 :
    let s : State := ((live.wr Reg.hifStat 0x501).wr (Reg.dblMsixCtl 0 4) 0).modFn 0 fun x => { x with priv := 4 }
    let pf : Pf := .pf0
    let v : Fin 4 := 2
    let t := after (exec (.privVectorSend pf v) s) s
    (s.alive = true) ∧ (bit (Vec.at s.host.fn (pfIdx pf) HostFn.reset).priv v = true) ∧
      (fld (s.rd (Reg.mbxRxsel (pfIdx pf))) 0 5 ≠ v.val ∨ bit (s.rd (Reg.mbxRxinfo (pfIdx pf))) 30 = false) ∧
      (s.vecMasked (pfIdx pf) (2 + v) = false) ∧ (s.msixEn (pfIdx pf) = true) ∧ (s.canPost (pfIdx pf) = true) ∧
      (t.outbox = s.outbox ++ [.msix pf (2 + v) (dword (s.rd (Reg.dblMsixHi (pfIdx pf) (2 + v))) (s.rd (Reg.dblMsixLo
        (pfIdx pf) (2 + v)))) (s.rd (Reg.dblMsixData (pfIdx pf) (2 + v)))]) ∧
      (bit (Vec.at t.host.fn (pfIdx pf) HostFn.reset).priv v = false) ∧ (t.regs = s.regs) := by decide +kernel
theorem test_w_HostLinkVectorsAndStatusBlocks_11 :
    let s : State := live
    let pf : Pf := .pf1
    let v : Fin 4 := 2
    (s.alive = false ∨ bit (Vec.at s.host.fn (pfIdx pf) HostFn.reset).priv v = false ∨ (fld (s.rd (Reg.mbxRxsel
        (pfIdx pf))) 0 5 = v.val ∧ bit (s.rd (Reg.mbxRxinfo (pfIdx pf))) 30 = true)) := by decide +kernel
theorem test_w_HostLinkVectorsAndStatusBlocks_12 :
    let s : State := { (live.wr Reg.hifStat 0xa01).wr (Reg.dblMsixCtl 1 6) 0 with host := { live.host with safeTell := true } }
    let t := after (exec .safeHostNotify s) s
    (s.alive = true) ∧ (s.host.safeTell = true) ∧ (s.sbEn 0 = false) ∧ (s.sbEn 1 = false) ∧
      (s.vecMasked 0 6 = true) ∧ (s.vecMasked 1 6 = false) ∧ (s.msixEn 1 = true) ∧ (s.canPost 1 = true) ∧ (s.regsOk) ∧
      (t.host.safeTell = false) ∧ (bit (t.rd (Reg.dblPba 0)) 6 = true) ∧
      (t.outbox = s.outbox ++ [.msix .pf1 6 (dword (s.rd (Reg.dblMsixHi 1 6)) (s.rd (Reg.dblMsixLo 1 6))) (s.rd
        (Reg.dblMsixData 1 6))]) := by decide +kernel
theorem test_w_HostLinkVectorsAndStatusBlocks_13 :
    let s : State := { (live.wr Reg.hifStat 0x501).wr (Reg.dblSbctrl 0) 1 with host := { live.host with safeTell := true } }
    let t := after (exec .safeHostNotify s) s
    (s.alive = true) ∧ (s.host.safeTell = true) ∧ (s.sbEn 0 = true) ∧ (s.sbEn 1 = false) ∧ (s.vecMasked 0 6 = true) ∧
      (s.vecMasked 1 6 = true) ∧ (s.regsOk) ∧
      (t.outbox = (({ s with host := { s.host with safeTell := false } }).writeBlock 0).outbox) ∧
      (bit (t.rd (Reg.dblPba 0)) 6 = true) ∧ (bit (t.rd (Reg.dblPba 1)) 6 = true) := by decide +kernel
theorem test_w_HostLinkVectorsAndStatusBlocks_14 :
    let s : State := live
    (s.alive = false ∨ s.host.safeTell = false) := by decide +kernel
theorem test_w_HostLinkVectorsAndStatusBlocks_15 :
    let s : State := live
    let g : BitVec 2 := 2
    let w : BitVec 4 := 4
    let t := after (exec (.pcieLinkUp g w) s) s
    (s.alive = true) ∧ (s.linkUp = false) ∧ (s.regsOk) ∧ (t.rd Reg.hifStat = 0x45) := by decide +kernel
theorem test_w_HostLinkVectorsAndStatusBlocks_16 :
    let s : State := live.wr Reg.hifStat 1
    let g : BitVec 2 := 2
    let w : BitVec 4 := 4
    (s.alive = false ∨ s.linkUp = true) := by decide +kernel
theorem test_w_HostLinkVectorsAndStatusBlocks_17 :
    let s : State := (live.wr Reg.hifStat 1).wr (Reg.dblPba 1) 8
    let pf : Pf := .pf1
    let b : Bool := true
    let m : Bool := true
    let t := after (exec (.configSpaceWrite pf b m) s) s
    (s.alive = true) ∧ (s.linkUp = true) ∧ (s.regsOk) ∧ (t.rd Reg.hifStat = 0xa01) := by decide +kernel
theorem test_w_HostLinkVectorsAndStatusBlocks_18 :
    let s : State := live
    let pf : Pf := .pf1
    let b : Bool := true
    let m : Bool := true
    (s.alive = false ∨ s.linkUp = false) := by decide +kernel
theorem test_w_HostLinkVectorsAndStatusBlocks_19 :
    let s : State := live.wr Reg.hifStat 1
    let t := after (exec .pcieLinkDown s) s
    (s.alive = true) ∧ (s.linkUp = true) ∧ (t.rd Reg.hifStat = 0 ∧ t.rd Reg.hifLinkdncnt = 1 ∧ t.rd 0x30010 = 1) := by decide +kernel
theorem test_w_HostLinkVectorsAndStatusBlocks_20 :
    let s : State := (List.range 32).foldl (fun s n => s.wr (Reg.mbxBind n) 0) ((live.wr Reg.hifStat 1).wr (Reg.hifSem 3) 8)
    let k : Fin 32 := 3
    let t := after (exec .pcieLinkDown s) s
    (s.alive = true) ∧ (s.linkUp = true) ∧ (∀ n < 32, s.chanEn n = false) ∧ (s.regsOk) ∧ (t.linkUp = false ∧
      t.canPost 0 = false ∧ t.canPost 1 = false) ∧
      (t.rd Reg.hifLinkdncnt = satInc (s.rd Reg.hifLinkdncnt) 0xffffffff) ∧
      (t.rd (Reg.hifSem k) = if s.rd (Reg.hifSem k) = 8 then 0 else s.rd (Reg.hifSem k)) ∧ (t.host = s.host) ∧
      (bit (t.rd 0x30010) 0 = true) ∧ (s.reports t 0x3001 []) := by decide +kernel
theorem test_w_HostLinkVectorsAndStatusBlocks_21 :
    let s : State := live
    (s.alive = false ∨ s.linkUp = false) := by decide +kernel
theorem test_w_HostLinkVectorsAndStatusBlocks_22 :
    let s : State := live.wr Reg.hifStat 1
    let t := after (exec .perstAssert s) s
    (s.alive = true) ∧ (s.linkUp = true) ∧ (t.rd Reg.hifStat = 0 ∧ t.rd Reg.hifLinkdncnt = 1) := by decide +kernel
theorem test_w_HostLinkVectorsAndStatusBlocks_23 :
    let s : State := live
    (s.alive = false ∨ s.linkUp = false) := by decide +kernel
theorem test_w_HostLinkVectorsAndStatusBlocks_24 :
    let s : State := live.wr Reg.hifStat 0xf01
    let t := after (exec (.functionLevelReset .pf0) s) s
    (s.alive = true) ∧ (s.linkUp = true) ∧ (t.rd Reg.hifStat = 0xa01 ∧ t.rd 0x30010 = 2) := by decide +kernel
theorem test_w_HostLinkVectorsAndStatusBlocks_25 :
    let s : State := live.wr Reg.hifStat 0xf01
    let t := after (exec (.functionLevelReset .pf1) s) s
    (s.alive = true) ∧ (s.linkUp = true) ∧ (t.rd Reg.hifStat = 0x501 ∧ t.rd 0x30010 = 4) := by decide +kernel
theorem test_w_HostLinkVectorsAndStatusBlocks_26 :
    let s : State := live
    let pf : Pf := .pf1
    (s.alive = false ∨ s.linkUp = false) := by decide +kernel
theorem test_w_RecorderTakesSealsAndLoses_1 :
    let s : State := live.raise 0x2101 [7]
    let e : Event := ⟨0x121, 0x2101, [7, 0, 0, 0, 0, 0, 0, 0], 0, none⟩
    let r : List Intake := []
    let k : Nat := 0
    (s.settOn = true) ∧ (nextIntake s.sett.intake = some (.event e k, r)) ∧ (s.sett.opened = none) ∧
      (s.ringFull = false) := by decide +kernel
theorem test_w_RecorderTakesSealsAndLoses_2 :
    let s : State := { live with now := 9, sett := { live.sett with intake := [.event ⟨0x8021, 0x2101, [7], 9, none⟩], opened := some (⟨0, 3, 1, 2, 0x21, 0x2101, pay8 [7]⟩, 2) } }
    let e : Event := ⟨0x8021, 0x2101, [7], 9, none⟩
    let r : List Intake := []
    let k : Nat := 9
    let c : Rec := ⟨0, 3, 1, 2, 0x21, 0x2101, pay8 [7]⟩
    let l : Nat := 2
    let t := after (exec .recordIntake s) s
    (s.settOn = true) ∧ (nextIntake s.sett.intake = some (.event e k, r)) ∧ (s.sett.opened = some (c, l)) ∧
      (s.sett.ovf = none) ∧ (c.same e = true) ∧ (t.sett.opened = some (⟨0, 4, 1, 9, 0x21, 0x2101, pay8 [7]⟩, 9)) := by decide +kernel
theorem test_w_RecorderTakesSealsAndLoses_3 :
    let s : State := { live with now := 9, sett := { live.sett with intake := [.event ⟨0x8021, 0x2101, [7], 9, none⟩], opened := some (⟨0, 3, 1, 2, 0x21, 0x2101, pay8 [8]⟩, 2) } }
    let e : Event := ⟨0x8021, 0x2101, [7], 9, none⟩
    let r : List Intake := []
    let k : Nat := 9
    let c : Rec := ⟨0, 3, 1, 2, 0x21, 0x2101, pay8 [8]⟩
    let l : Nat := 2
    let t := after (exec .recordIntake s) s
    (s.settOn = true) ∧ (nextIntake s.sett.intake = some (.event e k, r)) ∧ (s.sett.opened = some (c, l)) ∧
      (c.same e = false) ∧ (s.ringFull = false) ∧
      (t.sett.ring = s.sett.ring ++ [({ c with seq := s.sett.flash.nextSeq }, s.now)]) ∧
      (t.sett.flash.nextSeq = nextSeqNo s.sett.flash.nextSeq) ∧ (t.sett.opened = some (recOf e, s.now)) ∧
      (t.sett.intake = r) := by decide +kernel
theorem test_w_RecorderTakesSealsAndLoses_4 :
    let s : State := { live with now := 9, sett := { live.sett with intake := [.event ⟨0x8021, 0x2101, [7], 9, none⟩], ring := List.replicate 16384 (⟨0, 3, 1, 2, 0x21, 0x2101, []⟩, 2) } }
    let e : Event := ⟨0x8021, 0x2101, [7], 9, none⟩
    let r : List Intake := []
    let k : Nat := 9
    let t := after (exec .recordIntake s) s
    (s.settOn = true) ∧ (nextIntake s.sett.intake = some (.event e k, r)) ∧ (s.sett.opened = none) ∧
      (ringSize ≤ s.sett.ring.length) ∧ (s.sett.ovf = none) ∧ (s.regsOk) ∧ (t.rd Reg.settLostcnt = 1) := by decide +kernel
theorem test_w_RecorderTakesSealsAndLoses_5 :
    let s : State := { live with now := 9, sett := { live.sett with intake := [.seal], opened := some (⟨0, 3, 1, 2, 0x21, 0x2101, pay8 [8]⟩, 2) } }
    let r : List Intake := []
    let c : Rec := ⟨0, 3, 1, 2, 0x21, 0x2101, pay8 [8]⟩
    let l : Nat := 2
    let t := after (exec .recordIntake s) s
    (s.settOn = true) ∧ (nextIntake s.sett.intake = some (.seal, r)) ∧ (s.sett.opened = some (c, l)) ∧
      (s.ringFull = false) ∧ (t.sett.ring = s.sett.ring ++ [({ c with seq := s.sett.flash.nextSeq }, s.now)]) ∧
      (t.sett.opened = none) ∧ (t.sett.intake = r) := by decide +kernel
theorem test_w_RecorderTakesSealsAndLoses_6 :
    let s : State := live
    (s.settOn = false ∨ s.sett.intake = []) := by decide +kernel
theorem test_w_RecorderTakesSealsAndLoses_7 :
    let s : State := { live with now := 1000000002, sett := { live.sett with opened := some (⟨0, 3, 1, 2, 0x21, 0x2101, pay8 [8]⟩, 2) } }
    let c : Rec := ⟨0, 3, 1, 2, 0x21, 0x2101, pay8 [8]⟩
    let l : Nat := 2
    let t := after (exec .openRecordExpiry s) s
    (s.settOn = true) ∧ (s.sett.opened = some (c, l)) ∧ (l + 1000000000 ≤ s.now) ∧ (s.ringFull = false) ∧
      (s.now / 5 ≠ (l + 1000000000) / 5 ∨ s.mergeNext c = false) ∧
      (t.sett.ring = s.sett.ring ++ [({ c with seq := s.sett.flash.nextSeq }, s.now)]) ∧ (t.sett.opened = none) ∧
      (t.sett.flash.nextSeq = nextSeqNo s.sett.flash.nextSeq) := by decide +kernel
theorem test_w_RecorderTakesSealsAndLoses_8 :
    let s : State := live
    (s.settOn = false ∨ s.ringFull = true ∨ s.sett.opened = none ∨ ∀ c l, s.sett.opened = some (c, l) →
      s.now < l + 1000000000) := by exact .inr (.inr (.inl (by decide +kernel)))
theorem test_w_RecorderTakesSealsAndLoses_9 :
    let s : State := { live with now := 1000000002, sett := { live.sett with intake := [.event ⟨0x8021, 0x2101, [8], 1000000002, none⟩], opened := some (⟨0, 3, 1, 2, 0x21, 0x2101, pay8 [8]⟩, 2) } }
    let c : Rec := ⟨0, 3, 1, 2, 0x21, 0x2101, pay8 [8]⟩
    let l : Nat := 2
    (s.sett.opened = some (c, l)) ∧ (s.now / 5 = (l + 1000000000) / 5) ∧ (s.mergeNext c = true) := by decide +kernel
theorem test_w_RecorderTakesSealsAndLoses_10 :
    let s : State := live
    let t := after (exec (.settSealCmd .pf0) s) s
    (s.allowsWrite .pf0 Reg.settCmd 1 = true) ∧ (t.sett = { s.sett with intake := s.sett.intake ++ [.seal] }) ∧
      (t.regs = s.regs) := by decide +kernel
theorem test_w_RecorderTakesSealsAndLoses_11 :
    let s : State := (List.range 32).foldl (fun s n => s.wr (Reg.mbxBind n) 0) { live with sett := { live.sett with opened := some (⟨0, 3, 1, 2, 0x21, 0x2101, pay8 [8]⟩, 2) } }
    let t := after (exec (.settRestartCmd .pf0) s) s
    (s.allowsWrite .pf0 Reg.settCmd 2 = true) ∧ (t.sett.opened = none ∧ t.sett.flash.recs.map (fun r => r.seq) = [1]) := by decide +kernel
theorem test_w_RecorderTakesSealsAndLoses_12 :
    let s : State := { live with sett := { live.sett with restart := true } }
    let r : Rec := ⟨1, 0, 0, 0, 0x34, 0x3402, pay8 []⟩
    let t := after (exec .settRestartDone s) s
    (s.settOn = true) ∧ (s.sett.restart = true) ∧ (s.sett.ring = []) ∧
      (r =
        ⟨nextSeqNo s.sett.flash.last, 0, s.now, s.now, mkSource 0x34 0 s.synced, 0x3402, pay8 [0, loN s.sett.flash.last, hiN s.sett.flash.last]⟩)
        ∧ (t.sett.ready = true ∧ t.sett.restart = false ∧ t.sett.flashFlt = false) ∧ (s.sett.ovf = none →
      s.sett.flash.blocks = [] → t.sett.ring = [(r, s.now)]) ∧ (s.sett.ovf = none → s.sett.flash.blocks = [] →
      t.sett.flash.nextSeq = nextSeqNo r.seq) := by decide +kernel
theorem test_w_RecorderTakesSealsAndLoses_13 :
    let s : State := live
    (s.settOn = false ∨ s.sett.restart = false) := by decide +kernel
theorem test_w_RecorderTakesSealsAndLoses_14 :
    let s : State := { live with sett := { live.sett with ring := [(⟨0, 3, 1, 2, 0x21, 0x2101, []⟩, 2)] } }
    let d : Nat := 3
    let t := after (exec (.storeScanDone d) s) s
    (s.settOn = true) ∧ (s.sett.ready = false) ∧ (s.sett.restart = false) ∧ (t.sett.ready = true) ∧
      (s.sett.ovf = none → t.sett.ring.length = s.sett.ring.length + 1) ∧
      ((t.sett.ring.head?.map fun e => e.1.code) = some 0x3402) ∧
      ((t.sett.ring.head?.map fun e => e.1.pay.headD 0) = some (wd d)) ∧ (s.sett.ovf = none →
      t.sett.opened = s.sett.opened) := by decide +kernel
theorem test_w_RecorderTakesSealsAndLoses_15 :
    let s : State := { live with sett := { live.sett with ready := true } }
    let d : Nat := 3
    (s.settOn = false ∨ s.sett.ready = true ∨ s.sett.restart = true) := by decide +kernel
theorem test_w_RecorderTakesSealsAndLoses_16 :
    let s : State := (live.wr (Reg.mbxBind 2) 0x80000083).modChan 2 fun c => { c with ba := [⟨0, [0x24]⟩] }
    let m : MbMsg := ⟨0, [0x24]⟩
    let a : Bool := true
    let op : Nat := 4
    let k : Nat := 2
    let t := after (exec .settMb2Command s) s
    (s.settOn = true) ∧ (s.sett.restart = false) ∧ (s.endOf 2 3 = some a) ∧ (s.mbHead 2 3 = some m) ∧
      (op = fld (m.words.headD 0) 0 4) ∧ (k = fld (m.words.headD 0) 4 2) ∧
      (t = if op = 1 then (s.mbPop 2 a).settSeal else if op = 3 then (s.mbPop 2 a).settProtect k else if op = 4 then
        (s.mbPop 2 a).settRelease k else s.mbPop 2 a) := by decide +kernel
theorem test_w_RecorderTakesSealsAndLoses_17 :
    let s : State := live
    (s.settOn = false ∨ s.sett.restart = true ∨ s.mbHead 2 3 = none) := by decide +kernel
theorem test_w_RecorderTakesSealsAndLoses_18 :
    let s : State := { live with sett := { live.sett with flash := { Flash.new with blocks := [⟨[(0, ⟨5, 0, 1, 2, 0x21, 0x2101, []⟩), (1, ⟨6, 0, 1, 2, 0x21, 0x2101, []⟩)], 256, false⟩] } } }
    let t := after (exec (.settSnapshot .pf0) s) s
    (s.allowsWrite .pf0 Reg.settSnap 1 = true) ∧ (s.regsOk) ∧ (t.rd Reg.settFirstLo = 5 ∧ t.rd Reg.settLastLo = 6) := by decide +kernel
theorem test_w_RecorderTakesSealsAndLoses_19 :
    let s : State := (List.range 32).foldl (fun s n => s.wr (Reg.mbxBind n) 0) live
    let t := after (exec .flashControllerFault s) s
    (s.settOn = true) ∧ (s.sett.restart = false) ∧ (t.sett.flashFlt = true ∧ bit (t.rd 0x34010) 4 = true) := by decide +kernel
theorem test_w_RecorderTakesSealsAndLoses_20 :
    let s : State := { live with supply := .off }
    (s.settOn = false ∨ s.sett.restart = true) := by decide +kernel
theorem test_w_RecorderStoresProtectsAndReads_1 :
    let s : State := { live with sett := { live.sett with ready := true, ring := List.replicate 257 (⟨0, 3, 1, 2, 0x21, 0x2101, []⟩, 2) } }
    let t := after (exec (.flashPageWrite true) s) s
    (s.pageOn = true) ∧ (256 ≤ s.sett.ring.length ∨ (s.sett.stopped = true ∧ s.sett.ring ≠ [])) ∧
      (s.sett.ovf = none) ∧ (s.regsOk) ∧ (t.sett.ring.length = 1 ∧ t.sett.flash.recs.length = 256 ∧
      t.sett.flash.erased = 511 ∧ t.rd Reg.settPagecnt = 1) := by decide +kernel
theorem test_w_RecorderStoresProtectsAndReads_2 :
    let s : State := { live.wr (Reg.mbxBind 2) 0 with sett := { live.sett with ready := true, ring := List.replicate 256 (⟨0, 3, 1, 2, 0x21, 0x2101, []⟩, 2) } }
    let t := after (exec (.flashPageWrite false) s) s
    (s.pageOn = true) ∧ (256 ≤ s.sett.ring.length ∨ (s.sett.stopped = true ∧ s.sett.ring ≠ [])) ∧
      (s.sett.flash.spare ≠ 0) ∧ (s.regsOk) ∧ (t.sett.ring = s.sett.ring) ∧
      (t.sett.flash = { s.sett.flash with retired := s.sett.flash.retired + 1, spare := s.sett.flash.spare - 1 }) ∧
      (bit (t.rd 0x34010) 3 = true) ∧ (s.chanEn 2 = false → s.reports t 0x3404 []) := by decide +kernel
theorem test_w_RecorderStoresProtectsAndReads_3 :
    let s : State := live
    let ok : Bool := true
    (s.pageOn = false ∨ s.sett.ring = [] ∨ (s.sett.ring.length < 256 ∧ s.sett.stopped = false)) := by decide +kernel
theorem test_w_RecorderStoresProtectsAndReads_4 :
    let s : State := { live with now := 2000000000, sett := { live.sett with ready := true, ring := [(⟨4, 3, 1, 2, 0x21, 0x2101, []⟩, 2)] } }
    let r : Rec := ⟨4, 3, 1, 2, 0x21, 0x2101, []⟩
    let q : List (Rec × Nat) := []
    let l : Nat := 2
    let t := after (exec .flushTimeout s) s
    (s.pageOn = true) ∧ (s.sett.ring = (r, l) :: q) ∧ (l + 1000000 * fld (s.rd Reg.settCtrl) 0 16 ≤ s.now) ∧
      (s.sett.ovf = none) ∧ (s.regsOk) ∧ (t.sett.ring = s.sett.ring.drop 256) ∧
      (t.sett.flash = s.sett.flash.ready.page ((s.sett.ring.take 256).map fun e => e.1)) ∧
      (t.rd Reg.settPagecnt = satInc (s.rd Reg.settPagecnt) 0xffffffff) := by decide +kernel
theorem test_w_RecorderStoresProtectsAndReads_5 :
    let s : State := live
    (s.pageOn = false ∨ s.sett.ring = [] ∨ ∀ r l q, s.sett.ring = (r, l) :: q →
      s.now < l + 1000000 * fld (s.rd Reg.settCtrl) 0 16) := by exact .inr (.inl (by decide +kernel))
theorem test_w_RecorderStoresProtectsAndReads_6 :
    let s : State := { live with sett := { live.sett with ready := true, flash := { Flash.new with erased := 2, blocks := [⟨[(0, ⟨5, 0, 1, 2, 0x21, 0x2101, []⟩)], 256, false⟩, ⟨[(0, ⟨6, 0, 1, 2, 0x21, 0x2101, []⟩)], 256, false⟩], prot := #v[some (5, 1), none, none, none] } } }
    let i : Nat := 1
    let t := after (exec (.blockErase true) s) s
    (s.pageOn = true) ∧ (s.sett.flash.erased ≤ 2) ∧ (s.sett.flash.oldest = some i) ∧
      (t.sett.flash.blocks = [⟨[(0, ⟨5, 0, 1, 2, 0x21, 0x2101, []⟩)], 256, true⟩]) := by decide +kernel
theorem test_w_RecorderStoresProtectsAndReads_7 :
    let s : State := live
    let ok : Bool := true
    (s.pageOn = false ∨ 2 < s.sett.flash.erased ∨ s.sett.flash.oldest = none) := by decide +kernel
theorem test_w_RecorderStoresProtectsAndReads_8 :
    let s : State := live.wr Reg.settRdseqHi 2
    let v : Word := 5
    let t := after (exec (.recordRead .pf0 v) s) s
    (s.allowsWrite .pf0 Reg.settRdseqLo v = true) ∧ (s.regsOk) ∧ (t.sett.reading = some 0x200000005) := by decide +kernel
theorem test_w_RecorderStoresProtectsAndReads_9 :
    let s : State := { live with sett := { live.sett with ready := true, reading := some 5, flash := { Flash.new with blocks := [⟨[(0, ⟨5, 0, 1, 2, 0x21, 0x2101, List.replicate 8 3⟩)], 256, false⟩] } } }
    let n : Nat := 5
    let r : Rec := ⟨5, 0, 1, 2, 0x21, 0x2101, List.replicate 8 3⟩
    let j : Fin 16 := 0
    let t := after (exec .recordReadDone s) s
    (s.pageOn = true) ∧ (s.sett.reading = some n) ∧ (s.sett.flash.find n = some r) ∧ (s.regsOk) ∧
      (t.rd (Reg.settRddata 0) = 5 ∧ t.rd (Reg.settRddata 6) = 0x21010021) := by decide +kernel
theorem test_w_RecorderStoresProtectsAndReads_10 :
    let s : State := { live with sett := { live.sett with ready := true, reading := some 5 } }
    let n : Nat := 5
    let j : Fin 16 := 0
    let bad : Bool := false
    let t := after (exec (.recordReadDone bad) s) s
    (s.pageOn = true) ∧ (s.sett.reading = some n) ∧ (s.sett.flash.find n = none) ∧ (s.regsOk) ∧
      (t.rd Reg.settRdstat = 4) ∧ (t.rd (Reg.settRddata j) = 0) ∧ (t.sett.reading = none) := by decide +kernel
theorem test_w_RecorderStoresProtectsAndReads_11 :
    let s : State := { live with sett := { live.sett with ready := true, reading := some 5, flash := { Flash.new with blocks := [⟨[(0, ⟨5, 0, 1, 2, 0x21, 0x2101, List.replicate 8 3⟩)], 256, false⟩] } } }
    let n : Nat := 5
    let r : Rec := ⟨5, 0, 1, 2, 0x21, 0x2101, List.replicate 8 3⟩
    let t := after (exec (.recordReadDone true) s) s
    (s.pageOn = true) ∧ (s.sett.reading = some n) ∧ (s.sett.flash.find n = some r) ∧ (s.regsOk) ∧
      (t.rd Reg.settRdstat = 10) ∧ (t.sett.reading = none) := by decide +kernel
theorem test_w_RecorderStoresProtectsAndReads_12 :
    let s : State := live
    let bad : Bool := false
    (s.pageOn = false ∨ s.sett.reading = none) := by decide +kernel
theorem test_w_RecorderStoresProtectsAndReads_13 :
    let s : State := { (live.wr Reg.settProtfirstLo 5).wr Reg.settProtcnt 1 with sett := { live.sett with ready := true, flash := { Flash.new with blocks := [⟨[(0, ⟨5, 0, 1, 2, 0x21, 0x2101, []⟩)], 256, false⟩] } } }
    let k : Fin 4 := 2
    let a : Nat := 5
    let c : Nat := 1
    let l : Nat := 5
    let f : Flash := s.sett.flash
    let g : Flash := { f with prot := #v[none, none, some (5, 1), none] }
    let t := after (exec (.settProtect .pf0 k) s) s
    (s.allowsWrite .pf0 Reg.settCmd (wd (3 + 16 * k.val)) = true) ∧ (a = s.rd64 Reg.settProtfirstLo % 2 ^ 48) ∧
      (c = fld (s.rd Reg.settProtcnt) 0 26) ∧ (l = (a + c - 1) % 2 ^ 48) ∧ (f = s.sett.flash) ∧
      (g = { f with prot := Vec.updAt f.prot k fun _ => some (a, c) }) ∧ (Vec.at f.prot k none = none) ∧
      (s.sett.ready = true) ∧ (c ≠ 0) ∧ (f.first ≠ 0) ∧ (seqLe f.first a = true) ∧ (seqLe l f.last = true) ∧
      (seqLe a l = true) ∧ (64 ≤ (f.blocks.filter fun b => !b.passed && !g.protBlock b).length + f.erased) ∧
      (s.regsOk) ∧ (t.sett.flash.protSeq 5 = true ∧ t.rd 0x34010 = 2) := by decide +kernel
theorem test_w_RecorderStoresProtectsAndReads_14 :
    let s : State := { live with sett := { live.sett with flash := { Flash.new with prot := #v[none, none, some (5, 1), none] } } }
    let k : Fin 4 := 2
    let a : Nat := 0
    let c : Nat := 0
    let t := after (exec (.settProtect .pf0 k) s) s
    (s.allowsWrite .pf0 Reg.settCmd (wd (3 + 16 * k.val)) = true) ∧ (a = s.rd64 Reg.settProtfirstLo % 2 ^ 48) ∧
      (c = fld (s.rd Reg.settProtcnt) 0 26) ∧
      (s.sett.ready = false ∨ (Vec.at s.sett.flash.prot k none).isSome = true ∨ c = 0 ∨ s.sett.flash.first = 0 ∨ seqLe
        s.sett.flash.first a = false ∨ seqLe ((a + c - 1) % 2 ^ 48) s.sett.flash.last = false) ∧ (t = s.evt 0x34 4) := by decide +kernel
theorem test_w_RecorderStoresProtectsAndReads_15 :
    let s : State := { live with sett := { live.sett with flash := { Flash.new with prot := #v[none, none, some (5, 1), some (7, 2)] } } }
    let k : Fin 4 := 2
    let t := after (exec (.settReleaseRange .pf0 k) s) s
    (s.allowsWrite .pf0 Reg.settCmd (wd (4 + 16 * k.val)) = true) ∧ (Vec.at t.sett.flash.prot k none = none) ∧
      (∀ j : Fin 4, j ≠ k → Vec.at t.sett.flash.prot j none = Vec.at s.sett.flash.prot j none) ∧
      (t.sett.flash.blocks = s.sett.flash.blocks) ∧ (t.regs = s.regs) := by decide +kernel
theorem test_w_RecorderStoresProtectsAndReads_16 :
    let s : State := { (live.wr (Reg.mbxBind 17) 0x80000083).modChan 17 fun c => { c with ba := [⟨0, [0x80200000, 0x120000]⟩] } with sett := { live.sett with ready := true } }
    let m : MbMsg := ⟨0, [0x80200000, 0x120000]⟩
    let t := after (exec .extractRequest s) s
    (s.pageOn = true) ∧ (s.sett.extract = none) ∧ (s.mbHead 17 3 = some m) ∧
      (t = s.modSett fun x => { x with extract := some m.words }) := by decide +kernel
theorem test_w_RecorderStoresProtectsAndReads_17 :
    let s : State := live
    (s.pageOn = false ∨ s.sett.extract ≠ none ∨ s.mbHead 17 3 = none) := by decide +kernel
theorem test_w_RecorderStoresProtectsAndReads_18 :
    let s : State := { (live.wr (Reg.mbxBind 17) 0x80000083).modChan 17 fun c => { c with ba := [⟨0, [0x80200000, 0x120000]⟩] } with sett := { live.sett with ready := true, extract := some [0x80200000, 0x120000], flash := { Flash.new with blocks := [⟨[(0, ⟨5, 0, 1, 2, 0x21, 0x2101, List.replicate 8 3⟩)], 256, false⟩] } }, notice := [(0x200008, 1), (0x20000c, 1)] }
    let ws : List Word := [0x80200000, 0x120000]
    let m : MbMsg := ⟨0, [0x80200000, 0x120000]⟩
    let q : List MbMsg := []
    let n : Nat := 1
    let t := after (exec .extractDone s) s
    (s.pageOn = true) ∧ (s.sett.extract = some ws) ∧ (s.midA 17 = 3) ∧ (s.midB 17 ≠ 1) ∧ (s.chanEn 17 = true) ∧
      (chanRoom 17 (s.chan 17).ab 2 = true) ∧ ((s.chan 17).ba = m :: q) ∧ (m.words = ws) ∧
      (n = (s.extractReply (noticeOff ws) (noticeLen ws)).2) ∧ (s.regsOk) ∧
      ((t.chan 17).ab.map (fun m => m.words) = [[0x80200000, 0x120000]] ∧
      t.notice.readBytes ramFill 0x200040 6 = [5, 0, 0, 0, 0, 0]) := by decide +kernel
theorem test_w_RecorderStoresProtectsAndReads_19 :
    let s : State := live
    (s.sett.extract = none ∨ s.endOf 17 3 = none ∨ ∃ a, s.endOf 17 3 = some a ∧
      (s.mbHead 17 3).map (fun m => m.words) = s.sett.extract ∧
      (s.pageOn = false ∨ s.chanEn 17 = false ∨ chanRoom 17 ((s.chan 17).txq a) 2 = false)) := by exact .inl (by decide +kernel)
theorem test_w_RecorderStoresProtectsAndReads_20 :
    let s : State := { live.wr (Reg.mbxBind 17) 0x80000083 with sett := { live.sett with ready := true, extract := some [1, 2] } }
    let ws : List Word := [1, 2]
    let a : Bool := true
    let t := after (exec .extractDone s) s
    (s.sett.extract = some ws) ∧ (s.endOf 17 3 = some a) ∧ ((s.mbHead 17 3).map (fun m => m.words) ≠ some ws) ∧
      (t = s.modSett fun x => { x with extract := none }) := by decide +kernel
theorem test_w_ClockTreesFollowTheirPlls_1 :
    let s : State := live.wr Reg.clkStat 0x11f
    let p : Pll := .a
    let t := after (exec (.pllLockLost p) s) s
    (s.alive = true) ∧ (pllIsB p = s.fixB) ∧ (s.fixLock = true) ∧ (s.pllRdy (!s.fixB) = true) ∧ (s.regsOk) ∧
      (t.rd Reg.clkStat = 0x177 ∧ t.rd Reg.clkSwcnt = 1) := by decide +kernel
theorem test_w_ClockTreesFollowTheirPlls_2 :
    let s : State := live.wr Reg.clkStat 0x10f
    let p : Pll := .a
    let t := after (exec (.pllLockLost p) s) s
    (s.alive = true) ∧ (pllIsB p = s.fixB) ∧ (s.fixLock = true) ∧ (s.pllRdy (!s.fixB) = false) ∧ (s.regsOk) ∧
      (t.fixLock = false) ∧ (t.engSrc = 2) ∧ (t.pllRdy s.fixB = false) ∧
      (t.rd Reg.clkSwcnt = satIncFld (s.rd Reg.clkSwcnt) 16 16) ∧ (bit (t.rd 0x2010) 2 = true) ∧
      (s.reports t 0x0203 []) := by decide +kernel
theorem test_w_ClockTreesFollowTheirPlls_3 :
    let s : State := live.wr Reg.clkStat 0x11f
    let p : Pll := .b
    let t := after (exec (.pllLockLost p) s) s
    (s.alive = true) ∧ (pllIsB p ≠ s.fixB) ∧ (s.pllRdy (pllIsB p) = true) ∧ (s.regsOk) ∧
      (t.pllRdy (pllIsB p) = false) ∧ (t.fixB = s.fixB ∧ t.fixLock = s.fixLock ∧ t.engSrc = s.engSrc) ∧
      (bit (t.rd 0x2010) 1 = true) := by decide +kernel
theorem test_w_ClockTreesFollowTheirPlls_4 :
    let s : State := { live with supply := .off }
    let p : Pll := .a
    (s.alive = false ∨ (pllIsB p = s.fixB ∧ s.fixLock = false) ∨ (pllIsB p ≠ s.fixB ∧ s.pllRdy (pllIsB p) = false)) := by decide +kernel
theorem test_w_ClockTreesFollowTheirPlls_5 :
    let s : State := live.wr Reg.clkStat 0x10f
    let p : Pll := .b
    let t := after (exec (.pllReady p) s) s
    (s.alive = true) ∧ (s.bootPh ≠ .clocks) ∧ (s.pllRdy (pllIsB p) = false) ∧ (s.fixLock = true) ∧ (s.regsOk) ∧
      (t.pllRdy (pllIsB p) = true) ∧ (t.fixB = s.fixB ∧ t.fixLock = true ∧ t.engSrc = s.engSrc) ∧
      (bit (t.rd 0x2010) 4 = true) ∧ (s.reports t 0x0207 []) := by decide +kernel
theorem test_w_ClockTreesFollowTheirPlls_6 :
    let s : State := stopd.wr Reg.clkStat 0x087
    let p : Pll := .b
    let t := after (exec (.pllReady p) s) s
    (s.alive = true) ∧ (s.bootPh ≠ .clocks) ∧ (s.pllRdy (pllIsB p) = false) ∧ (s.fixLock = false) ∧ (s.engSrc = 2) ∧
      (s.eng.mode = .stop) ∧ (s.regsOk) ∧ (t.fixB = pllIsB p) ∧ (t.fixLock = true) ∧ (t.engSrc = b2n (pllIsB p)) ∧
      (bit (t.rd 0x2010) 4 = true) := by decide +kernel
theorem test_w_ClockTreesFollowTheirPlls_7 :
    let s : State := { live with supply := .off }
    let p : Pll := .a
    (s.alive = false ∨ s.bootPh = .clocks ∨ s.pllRdy (pllIsB p) = true) := by decide +kernel
theorem test_w_ClockTreesFollowTheirPlls_8 :
    let s : State := live.wr Reg.clkStat 0x087
    let t := after (exec .pllOutOfTolerance s) s
    (s.alive = true) ∧ (s.bootPh ≠ .clocks) ∧ (s.fixLock = false) ∧ (t.mstate = .safe ∧
      t.rd Reg.diaSafecause = 0x80000204) := by decide +kernel
theorem test_w_ClockTreesFollowTheirPlls_9 :
    let s : State := { live with supply := .off }
    (s.alive = false ∨ s.bootPh = .clocks ∨ s.fixLock = true) := by decide +kernel
theorem test_w_ClockTreesFollowTheirPlls_10 :
    let s : State := live.wr Reg.clkStat 0x11f
    let t := after (exec .tcxoFail s) s
    (s.alive = true) ∧ (bit (s.rd Reg.clkStat) 0 = true) ∧ (s.regsOk) ∧ (t.mstate = .safe ∧
      t.rd Reg.diaSafecause = 0x80000206) := by decide +kernel
theorem test_w_ClockTreesFollowTheirPlls_11 :
    let s : State := { live with supply := .off }
    (s.alive = false ∨ bit (s.rd Reg.clkStat) 0 = false) := by decide +kernel
theorem test_w_ClockTreesFollowTheirPlls_12 :
    let s : State := live
    let t := after (exec .coreUndervoltage s) s
    (s.alive = true) ∧ (s.bootPh ≠ .clocks) ∧ (t.mstate = .safe ∧ t.rd Reg.diaSafecause = 0x80000308) := by decide +kernel
theorem test_w_ClockTreesFollowTheirPlls_13 :
    let s : State := { live with supply := .off }
    (s.alive = false ∨ s.bootPh = .clocks) := by decide +kernel
theorem test_w_ClockTreesFollowTheirPlls_14 :
    let s : State := live.wr Reg.clkStat 0x31f
    let t := after (exec .rtcCrystalFail s) s
    (s.alive = true) ∧ (bit (s.rd Reg.clkStat) 2 = true) ∧ (s.regsOk) ∧
      (t.rd Reg.clkStat = setBit (setBit (s.rd Reg.clkStat) 2 false) 9 false) ∧ (bit (t.rd 0x2010) 5 = true) ∧
      (s.reports t 0x0208 []) := by decide +kernel
theorem test_w_ClockTreesFollowTheirPlls_15 :
    let s : State := { live with supply := .off }
    (s.alive = false ∨ bit (s.rd Reg.clkStat) 2 = false) := by decide +kernel
theorem test_w_ClockTreesFollowTheirPlls_16 :
    let s : State := live
    let t := after (exec .rtcCrystalReady s) s
    (s.alive = true) ∧ (s.regsOk) ∧ (t.rd Reg.clkStat = 4) := by decide +kernel
theorem test_w_ClockTreesFollowTheirPlls_17 :
    let s : State := { live with supply := .off }
    (s.alive = false) := by decide +kernel
theorem test_w_ClockTreesFollowTheirPlls_18 :
    let s : State := { (live.wr Reg.ptpStat 2).wr Reg.clkStat 4 with now := 3000000005 }
    let t := after (exec .rtcSet s) s
    (s.alive = true) ∧ (s.bootPh ≠ .clocks) ∧ (s.sstate = 2) ∧ (s.rtc.setAt < s.now / 1000000000) ∧ (s.regsOk) ∧
      (t.rtc.ticks = s.now / 1000000000 * 32768 % 2 ^ 64) ∧ (t.rtc.part = 0) ∧
      (bit (t.rd Reg.clkStat) 9 = bit (s.rd Reg.clkStat) 2) := by decide +kernel
theorem test_w_ClockTreesFollowTheirPlls_19 :
    let s : State := { live with supply := .off }
    (s.alive = false ∨ s.bootPh = .clocks ∨ s.sstate ≠ 2 ∨ s.now / 1000000000 ≤ s.rtc.setAt) := by decide +kernel
theorem test_w_ClockTreesFollowTheirPlls_20 :
    let s : State := { live with rtc := { live.rtc with ticks := 0x300000005 } }
    let t := after (exec (.rtcSnapshot .pf0) s) s
    (s.allowsWrite .pf0 Reg.clkRtcsnap 1 = true) ∧ (s.rtc.ticks < 2 ^ 64) ∧ (s.regsOk) ∧
      (t.rd64 Reg.clkRtcLo = s.rtc.ticks) ∧ (t.rtc = s.rtc) := by decide +kernel
theorem test_w_ClockTreesFollowTheirPlls_21 :
    let s : State := live.wr Reg.clkStat 0x17f
    let t := after (exec (.clockSwitchPllA .pf0) s) s
    (s.allowsWrite .pf0 Reg.clkSwcmd 1 = true) ∧ (s.fixB = true) ∧ (s.pllRdy false = true) ∧ (s.regsOk) ∧
      (t.fixB = false ∧ t.fixLock = true ∧ t.engSrc = 0) ∧ (bit (t.rd 0x2010) 0 = true) := by decide +kernel
theorem test_w_ClockTreesFollowTheirPlls_22 :
    let s : State := live.wr Reg.clkStat 0x11f
    let t := after (exec (.clockSwitchPllA .pf0) s) s
    (s.allowsWrite .pf0 Reg.clkSwcmd 1 = true) ∧ (s.fixB = false) ∧ (s.fixLock = true) ∧ (t = s) := by decide +kernel
theorem test_w_ClockTreesFollowTheirPlls_23 :
    let s : State := live.wr Reg.clkStat 0x175
    let t := after (exec (.clockSwitchPllA .pf0) s) s
    (s.allowsWrite .pf0 Reg.clkSwcmd 1 = true) ∧ (s.fixB = true) ∧ (s.pllRdy false = false) ∧ (s.regsOk) ∧
      (t.rd Reg.clkStat = s.rd Reg.clkStat) ∧ (t.rd 0x2010 = s.rd 0x2010 ||| 0x40000008) ∧ (s.reports t 0x0205 []) := by decide +kernel
theorem test_w_ClockTreesFollowTheirPlls_24 :
    let s : State := live.wr Reg.clkStat 0x11f
    let t := after (exec (.clockSwitchPllB .pf0) s) s
    (s.allowsWrite .pf0 Reg.clkSwcmd 2 = true) ∧ (s.fixB = false) ∧ (s.pllRdy true = true) ∧ (s.regsOk) ∧
      (t.fixB = true ∧ t.fixLock = true ∧ t.engSrc = 1) ∧ (bit (t.rd 0x2010) 0 = true) := by decide +kernel
theorem test_w_ClockTreesFollowTheirPlls_25 :
    let s : State := live.wr Reg.clkStat 0x10f
    let t := after (exec (.clockSwitchPllB .pf0) s) s
    (s.allowsWrite .pf0 Reg.clkSwcmd 2 = true) ∧ (s.fixB = false) ∧ (s.pllRdy true = false) ∧ (s.regsOk) ∧
      (t.rd Reg.clkStat = s.rd Reg.clkStat) ∧ (t.rd 0x2010 = s.rd 0x2010 ||| 0x40000008) ∧ (s.reports t 0x0205 []) := by decide +kernel
theorem test_w_ClockTreesFollowTheirPlls_26 :
    let s : State := live.wr Reg.clkStat 0x17f
    let t := after (exec (.clockSwitchPllB .pf0) s) s
    (s.allowsWrite .pf0 Reg.clkSwcmd 2 = true) ∧ (s.fixB = true) ∧ (s.fixLock = true) ∧ (t = s) := by decide +kernel
theorem test_w_GovernorAndOperatingPoints_1 :
    let s : State := live
    let b : Int := 45
    let d : Int := 70
    let t := after (exec (.governorTempSample b d) s) s
    (s.alive = true) ∧ (s.bootPh ≠ .clocks) ∧ (b < 80) ∧ (-128 ≤ b) ∧ (s.pow.coolAt = none) ∧ (-128 ≤ d) ∧
      (d < 105) ∧ (s.regsOk) ∧ (t.rd Reg.pwrTemp = 0x462d) := by decide +kernel
theorem test_w_GovernorAndOperatingPoints_2 :
    let s : State := (live.wr Reg.pwrTemp 87).wr Reg.pwrOplim 0x300
    let b : Int := 90
    let d : Int := 70
    let t := after (exec (.governorTempSample b d) s) s
    (s.alive = true) ∧ (s.bootPh ≠ .clocks) ∧ (88 ≤ b) ∧ (b < 95) ∧ (d < 105) ∧ (s.pow.hotAt = none) ∧
      (80 ≤ sfld (s.rd Reg.pwrTemp) 0 8) ∧ (s.opTarget < s.opFloor) ∧ (s.pow.opNotBefore ≤ s.now) ∧ (s.regsOk) ∧
      (t.rd Reg.pwrKt = 0) ∧ (bit (t.rd Reg.pwrStat) 7 = true) ∧ (t.pow.hotAt = some s.now) ∧
      (bit (t.rd 0x3010) 1 = true) ∧ (s.reports t 0x0302 []) ∧ (s.pow.opWant = none → s.pow.opc = .none →
      t.opTarget = s.op + 1) := by decide +kernel
theorem test_w_GovernorAndOperatingPoints_3 :
    let s : State := { live with pow := { live.pow with opNotBefore := 5 } }
    let b : Int := 90
    let d : Int := 70
    let t := after (exec (.governorTempSample b d) s) s
    (s.alive = true) ∧ (s.bootPh ≠ .clocks) ∧ (88 ≤ b) ∧ (b < 95) ∧ (d < 105) ∧ (s.now < s.pow.opNotBefore) ∧
      (s.regsOk) ∧ (t.pow = { s.pow with coolAt := none }) ∧ (t.opTarget = s.opTarget) ∧ (t.mstate = s.mstate) := by decide +kernel
theorem test_w_GovernorAndOperatingPoints_4 :
    let s : State := live
    let b : Int := 70
    let d : Int := 105
    let t := after (exec (.governorTempSample b d) s) s
    (s.alive = true) ∧ (s.bootPh ≠ .clocks) ∧ (s.safeLatch = false) ∧ (105 ≤ d) ∧ (s.regsOk) ∧ (t.mstate = .safe) ∧
      (t.safeLatch = true) ∧ (t.rd Reg.diaSafecause = 0x80000304) ∧ (t.eng.mode = .stop) ∧ (bit (t.rd 0x3010) 4 = true) := by decide +kernel
theorem test_w_GovernorAndOperatingPoints_5 :
    let s : State := { live with supply := .off }
    let b : Int := 40
    let d : Int := 40
    (s.alive = false ∨ s.bootPh = .clocks) := by decide +kernel
theorem test_w_GovernorAndOperatingPoints_6 :
    let b : Int := 84
    (b ≤ 80 → ktOf b = 256) ∧ (88 ≤ b → ktOf b = 0) ∧ (80 ≤ b → b ≤ 88 → (ktOf b : Int) = (88 - b) * 32) := by decide +kernel
theorem test_w_GovernorAndOperatingPoints_7 :
    let s : State := { ((live.wr Reg.pwrPbudget 20000).wr Reg.pwrTokmax 100000).wr Reg.pwrKt 128 with now := 1000000 }
    let e : Nat := 18000
    let hd : Int := 2000
    let k : Int := 1000
    let t := after (exec (.tokenFill e) s) s
    (s.booted = true) ∧ (s.pow.tokAt < s.now / 1000000) ∧ (s.pow.deferPe = 0) ∧
      (hd = (fld (s.rd Reg.pwrPbudget) 0 16 : Int) - e) ∧ (0 < hd) ∧
      (k = min ((s.rd Reg.pwrTokmax).toNat : Int) (s.tokBal + Int.fdiv (hd * fld (s.rd Reg.pwrKt) 0 9) 256)) ∧
      (-2147483648 ≤ k) ∧ (k < 2147483648) ∧ (s.regsOk) ∧ (t.tokBal = k) ∧ (t.rd Reg.pwrPin = wd e) ∧
      (t.pow.tokAt = s.now / 1000000 ∧ t.pow.deferPe = 0 ∧ t.pow.overRun = 0) ∧ (bit (t.rd Reg.pwrStat) 10 = false) := by decide +kernel
theorem test_w_GovernorAndOperatingPoints_8 :
    let s : State := { live.wr Reg.pwrPbudget 20000 with now := 1000000, pow := { live.pow with overRun := 999 } }
    let e : Nat := 21000
    let hd : Int := -1000
    let t := after (exec (.tokenFill e) s) s
    (s.booted = true) ∧ (s.pow.tokAt < s.now / 1000000) ∧ (s.pow.deferPe = 0) ∧
      (hd = (fld (s.rd Reg.pwrPbudget) 0 16 : Int) - e) ∧ (hd < 0) ∧ (-2147483648 ≤ s.tokBal + hd) ∧
      (999 ≤ s.pow.overRun) ∧ (s.pow.overAt = none) ∧ (s.regsOk) ∧ (t.tokBal = s.tokBal + hd) ∧
      (t.pow.overRun = 1000) ∧ (bit (t.rd Reg.pwrStat) 10 = true) ∧ (bit (t.rd 0x3010) 5 = true) ∧
      (s.reports t 0x0305 []) := by decide +kernel
theorem test_w_GovernorAndOperatingPoints_9 :
    let s : State := live
    let e : Nat := 40
    (s.booted = false ∨ s.now / 1000000 ≤ s.pow.tokAt) := by decide +kernel
theorem test_w_GovernorAndOperatingPoints_10 :
    let s : State := { live with pow := { live.pow with opc := .ramp 1 0 } }
    let b : Fin 4 := 1
    let r : Nat := 0
    let t := after (exec .opPgood s) s
    (s.alive = true) ∧ (s.pow.opc = .ramp b r) ∧ (t = s.modPow fun p => { p with opc := .ready b }) := by decide +kernel
theorem test_w_GovernorAndOperatingPoints_11 :
    let s : State := { live with supply := .off }
    (s.alive = false ∨ ∀ b r, s.pow.opc ≠ .ramp b r) := by exact .inl rfl
theorem test_w_GovernorAndOperatingPoints_12 :
    let s : State := { live with pow := { live.pow with opc := .ready 1 } }
    let b : Fin 4 := 1
    let t := after (exec .opDividerSwitch s) s
    (s.alive = true) ∧ (s.pow.opc = .ready b) ∧ (s.dispatchPoint = true) ∧ (s.pstate ≠ .nap) ∧
      (t = s.modPow fun p => { p with opc := .halted b }) := by decide +kernel
theorem test_w_GovernorAndOperatingPoints_13 :
    let s : State := { live with supply := .off }
    (s.alive = false ∨ s.dispatchPoint = false ∨ s.pstate = .nap ∨ ∀ b, s.pow.opc ≠ .ready b) := by exact .inl rfl
theorem test_w_GovernorAndOperatingPoints_14 :
    let s : State := { live.wr Reg.clkStat 0x19f with pow := { live.pow with opc := .halted 1 } }
    let b : Fin 4 := 1
    let t := after (exec .opResume s) s
    (s.alive = true) ∧ (s.pow.opc = .halted b) ∧ (s.pow.opWant = none) ∧ (s.nextReady = none) ∧ (b.val ≠ s.op) ∧
      (s.regsOk) ∧ (t.op = 1 ∧ t.engSrc = 0) := by decide +kernel
theorem test_w_GovernorAndOperatingPoints_15 :
    let s : State := { live with supply := .off }
    (s.alive = false ∨ ∀ b, s.pow.opc ≠ .halted b) := by exact .inl rfl
theorem test_w_GovernorAndOperatingPoints_16 :
    let s : State := { live with now := 200000, pow := { live.pow with opc := .ramp 1 0 } }
    let b : Fin 4 := 1
    let r : Nat := 0
    let t := after (exec .opPgoodTimeout s) s
    (s.alive = true) ∧ (s.pow.opc = .ramp b r) ∧ (r + 200000 ≤ s.now) ∧ (s.regsOk) ∧
      (t.pow.opc = (if s.engSrc = 2 ∧ s.fixLock = true then .ready (Fin.ofNat 4 s.op) else .none)) ∧
      (t.pow.opWant = none ∧ t.pow.opNotBefore = s.now + 1000000000) ∧ (t.op = s.op) ∧ (bit (t.rd 0x3010) 6 = true) ∧
      (s.reports t 0x0307 []) := by decide +kernel
theorem test_w_GovernorAndOperatingPoints_17 :
    let s : State := { live with supply := .off }
    (s.alive = false ∨ ∀ b r, s.pow.opc = .ramp b r → s.now < r + 200000) := by exact .inl rfl
theorem test_w_GovernorAndOperatingPoints_18 :
    let s : State := { ((live.wr Reg.pwrCtrl 0).setPower .doze (some 40)) with now := 40 }
    let e : Nat := 40
    let t := after (exec .powerStateExit s) s
    (s.alive = true) ∧ (s.pow.planExit = some e) ∧ (s.pstate = .doze ∨ s.pstate = .nap) ∧ (e ≤ s.now) ∧
      (t = s.wakeUp) ∧ (bit (s.rd Reg.pwrCtrl) 0 = false → bit (s.rd Reg.pwrCtrl) 1 = false → t.pstate = .run) := by decide +kernel
theorem test_w_GovernorAndOperatingPoints_19 :
    let s : State := { live with supply := .off }
    (s.alive = false ∨ (s.pstate ≠ .doze ∧ s.pstate ≠ .nap) ∨ s.pow.planExit = none ∨ ∀ e, s.pow.planExit = some e →
      s.now < e) := by exact .inl rfl
theorem test_w_GovernorAndOperatingPoints_20 :
    let s : State := live.setPower .doze (some 40)
    let t := after (exec .powerStateEarlyExit s) s
    (s.alive = true) ∧ (s.pstate = .doze ∨ s.pstate = .nap) ∧ (s.regsOk) ∧ (t.pstate = .run ∧ t.pow.planExit = none ∧
      fld (t.rd Reg.pwrStat) 0 3 = 0) := by decide +kernel
theorem test_w_GovernorAndOperatingPoints_21 :
    let s : State := live
    (s.alive = false ∨ (s.pstate ≠ .doze ∧ s.pstate ≠ .nap)) := by decide +kernel
theorem test_w_UpdateSessionsProceed_1 :
    let s : State := updState 32 1 0 1 4096 0
    let r : Req := updReqOf 32 1 0 1 4096 0
    let st : Nat := 0x3821
    let i : Nat := 7
    let m : MbMsg := ⟨0, [0x20001000, 0x50000]⟩
    let q : List MbMsg := []
    ((s.chan 16).ab = m :: q) ∧ (s.midB 16 = 2) ∧ (s.midA 16 ≠ 1) ∧ (Memory.wf ramFill s.notice = true) ∧
      (r.off + 0x20 ≤ 0x800000) ∧ ((s.updReply r st i).upd = s.upd ∧ (s.updReply r st i).cfgFlash = s.cfgFlash) ∧
      ((s.updReply r st i).notice.readWord ramFill (r.off + 0x14) = wd st ∧
      (s.updReply r st i).notice.readWord ramFill (r.off + 0x18) = wd i) ∧
      (((s.updReply r st i).chan 16).ba = (s.chan 16).ba ++
        [⟨(s.chan 16).epB, [wd (r.off + 0x1000000 * 32), wd (0x10000 * r.tag)]⟩]) ∧
      (((s.updReply r st i).chan 16).ab = q) := by decide +kernel
theorem test_w_UpdateSessionsProceed_2 :
    let s : State := updState 32 1 0 1 4096 0
    let r : Req := updReqOf 32 1 0 1 4096 0
    let c : Nat := 0x3821
    let g : Nat := 1
    let i : Nat := 0
    (s.regsOk) ∧ ((s.updRefuse r c g i).upd = s.upd ∧ (s.updRefuse r c g i).cfgFlash = s.cfgFlash ∧
      (s.updRefuse r c g i).mstate = s.mstate) ∧ (s.midA 16 ≠ 1 →
      (s.updRefuse r c g i).rd Reg.updResult = wd (c + 0x10000 * g + 0x80000000)) := by decide +kernel
theorem test_w_UpdateSessionsProceed_3 :
    let s : State := updState 32 1 0 1 4096 0
    let r : Req := updReqOf 32 1 0 1 4096 0
    let t := after (exec .updOpen s) s
    (s.updReq = some r) ∧ (r.op = 1) ∧ (s.openRefusal r = none) ∧ (t.upd.st = .guarded ∧ t.upd.session = 1 ∧
      t.rd 0x38010 = 1 ∧ t.notice.readWord ramFill 0x1018 = 1) := by decide +kernel
theorem test_w_UpdateSessionsProceed_4 :
    let s : State := updState 32 1 0 1 4097 0
    let r : Req := updReqOf 32 1 0 1 4097 0
    let c : Nat := 0x3821
    let t := after (exec .updOpen s) s
    (s.updReq = some r) ∧ (r.op.toNat < 2 ∨ 6 < r.op.toNat) ∧ (s.openRefusal r = some c) ∧ (t.upd.st = .idle ∧
      t.rd Reg.updResult = 0x80013821 ∧ t.notice.readWord ramFill 0x1014 = 0x3821) := by decide +kernel
theorem test_w_UpdateSessionsProceed_5 :
    let s : State := live
    (s.updReq = none ∨ ∀ r, s.updReq = some r → 2 ≤ r.op.toNat ∧ r.op.toNat ≤ 6) := by exact .inl (by decide +kernel)
theorem test_w_UpdateSessionsProceed_6 :
    let s : State := (updState 36 2 1 0 4 0).modUpd fun x => { x with st := .quick, imglen := 4, session := 1, sectors := [0] }
    let r : Req := updReqOf 36 2 1 0 4 0
    let t := after (exec .updBlock s) s
    (s.updReq = some r) ∧ (r.op = 2) ∧ (s.blockRefusal r = none) ∧
      (s.upd.sectors.contains (r.a0.toNat / 65536) = true) ∧
      (t.upd = { s.upd with writing := some (r.a0.toNat, s.reqData r r.a1.toNat) }) ∧ (t.cfgFlash = s.cfgFlash) ∧
      (t.regs = s.regs ∧ t.host = s.host ∧ t.notice = s.notice) := by decide +kernel
theorem test_w_UpdateSessionsProceed_7 :
    let s : State := { (updState 36 2 1 0 4 0).modUpd fun x => { x with st := .quick, imglen := 4, session := 1 } with cfgFlash := [(3, 7), (70000, 8)] }
    let r : Req := updReqOf 36 2 1 0 4 0
    let t := after (exec .updBlock s) s
    (s.updReq = some r) ∧ (r.op = 2) ∧ (s.blockRefusal r = none) ∧
      (s.upd.sectors.contains (r.a0.toNat / 65536) = false) ∧ (t.cfgFlash = [(70000, 8)] ∧
      t.upd.writing = some (0, [0, 0, 0, 0])) := by decide +kernel
theorem test_w_UpdateSessionsProceed_8 :
    let s : State := (updState 36 2 1 0 4 0).modUpd fun x => { x with st := .quick, imglen := 4, session := 1, blocks := [0] }
    let r : Req := updReqOf 36 2 1 0 4 0
    let c : Nat := 0x3822
    let t := after (exec .updBlock s) s
    (s.updReq = some r) ∧ (r.op = 2) ∧ (s.blockRefusal r = some c) ∧ (t.rd Reg.updResult = 0x80013822) := by decide +kernel
theorem test_w_UpdateSessionsProceed_9 :
    let s : State := live
    (s.updReq = none ∨ ∀ r, s.updReq = some r → r.op ≠ 2) := by exact .inl (by decide +kernel)
theorem test_w_UpdateSessionsProceed_10 :
    let s : State := (updState 36 2 1 0 4 0).modUpd fun x => { x with st := .quick, imglen := 4, session := 1, sectors := [0], writing := some (0, [1, 2, 3, 4]) }
    let o : Nat := 0
    let d : List Byte := [1, 2, 3, 4]
    let r : Req := updReqOf 36 2 1 0 4 0
    let t := after (exec (.updBlockDone false) s) s
    (s.alive = true) ∧ (s.upd.writing = some (o, d)) ∧ (o + d.length ≤ cfgFlashBytes) ∧
      (chanRoom 16 (s.chan 16).ba 2 = true) ∧
      (((s.flashPut o d).modUpd fun x => { x with writing := none, blocks := o / 4096 :: x.blocks }).updReq = some r) ∧
      (t.cfgFlash = [(0, 1), (1, 2), (2, 3), (3, 4)] ∧ t.upd.blocks = [0] ∧ t.notice.readWord ramFill 0x1018 = 1) := by decide +kernel
theorem test_w_UpdateSessionsProceed_11 :
    let s : State := (updState 36 2 1 0 4 0).modUpd fun x => { x with st := .quick, imglen := 4, session := 1, sectors := [0], writing := some (0, [1, 2, 3, 4]) }
    let o : Nat := 0
    let d : List Byte := [1, 2, 3, 4]
    let spare : Bool := true
    let t := after (exec (.updBlockDone spare) s) s
    (s.alive = true) ∧ (s.upd.writing = some (o, d)) ∧ (o + d.length ≤ cfgFlashBytes) ∧
      (chanRoom 16 (s.chan 16).ba 2 = true) ∧
      (t.upd = { s.upd with writing := none, blocks := o / 4096 :: s.upd.blocks }) ∧
      (t.cfgFlash = s.cfgFlash.writeBytes flashFill o d) := by decide +kernel
theorem test_w_UpdateSessionsProceed_12 :
    let s : State := live
    let spare : Bool := true
    (s.alive = false ∨ s.upd.writing = none ∨ chanRoom 16 (s.chan 16).ba 2 = false) := by decide +kernel
theorem test_w_UpdateSessionsProceed_13 :
    let s : State := (updState 32 3 1 0 0 0).modUpd fun x => { x with st := .guarded, imglen := 4, session := 1, blocks := [0] }
    let r : Req := updReqOf 32 3 1 0 0 0
    let t := after (exec .updClose s) s
    (s.updReq = some r) ∧ (r.op = 3) ∧ (s.closeRefusal r = none) ∧ (s.upd.st = .guarded) ∧ (t.upd.st = .verifying ∧
      t.rd 0x38010 = 2) := by decide +kernel
theorem test_w_UpdateSessionsProceed_14 :
    let s : State := (updState 32 3 1 0 0 0).modUpd fun x => { x with st := .quick, imglen := 8192, session := 1, blocks := [0] }
    let r : Req := updReqOf 32 3 1 0 0 0
    let t := after (exec .updClose s) s
    (s.updReq = some r) ∧ (r.op = 3) ∧ (s.closeRefusal r = none) ∧ (s.upd.st ≠ .guarded) ∧ (t.upd.st = .idle ∧
      t.rd Reg.updResult = 0x80020000 ∧ t.notice.readWord ramFill 0x1018 = 1) := by decide +kernel
theorem test_w_UpdateSessionsProceed_15 :
    let s : State := updState 32 3 1 0 0 0
    let r : Req := updReqOf 32 3 1 0 0 0
    let c : Nat := 0x3823
    (s.updReq = some r) ∧ (r.op = 3) ∧ (s.closeRefusal r = some c) := by decide +kernel
theorem test_w_UpdateSessionsProceed_16 :
    let s : State := live
    (s.updReq = none ∨ ∀ r, s.updReq = some r → r.op ≠ 3) := by exact .inl (by decide +kernel)
theorem test_w_UpdateSessionsProceed_17 :
    let s : State := (updState 32 4 1 0 0 0).modUpd fun x => { x with st := .quick, imglen := 8192, session := 1, blocks := [0] }
    let r : Req := updReqOf 32 4 1 0 0 0
    let t := after (exec .updAbort s) s
    (s.updReq = some r) ∧ (r.op = 4) ∧ (s.sessOk r = true) ∧ (32 ≤ r.len) ∧ (s.upd.st ≠ .guarded) ∧
      (t.upd.st = .idle ∧ t.rd 0x38010 = 2) := by decide +kernel
theorem test_w_UpdateSessionsProceed_18 :
    let s : State := (updState 32 4 1 0 0 0).modUpd fun x => { x with st := .guarded, imglen := 8192, session := 1, blocks := [0] }
    let r : Req := updReqOf 32 4 1 0 0 0
    let t := after (exec .updAbort s) s
    (s.updReq = some r) ∧ (r.op = 4) ∧ (s.sessOk r = true) ∧ (32 ≤ r.len) ∧ (s.upd.st = .guarded) ∧
      (t = (s.updEnd 2).updRestore.updReply r 0 0) ∧ (t.upd.st = if s.imgRun then .restoring else .idle) := by decide +kernel
theorem test_w_UpdateSessionsProceed_19 :
    let s : State := updState 32 4 1 0 0 0
    let r : Req := updReqOf 32 4 1 0 0 0
    (s.updReq = some r) ∧ (r.op = 4) ∧ (s.sessOk r = false ∨ r.len < 32) := by decide +kernel
theorem test_w_UpdateSessionsProceed_20 :
    let s : State := live
    (s.updReq = none ∨ ∀ r, s.updReq = some r → r.op ≠ 4) := by exact .inl (by decide +kernel)
theorem test_w_KeysVerificationAndOtp_1 :
    let s : State := (updState 96 5 0 1 0 0).modUpd fun x => { x with otp := x.otp.set 1 ⟨BitVec.ofNat 256 (sha256Nat (List.replicate 64 0)), false⟩ }
    let r : Req := updReqOf 96 5 0 1 0 0
    (s.updReq = some r) ∧ (r.op = 5) ∧ (s.updOpened = false) ∧ (96 ≤ r.len) ∧
      ((s.otpSlot (fld r.a0 0 2)).hash.toNat = sha256Nat (s.reqData r 64)) := by decide +kernel
theorem test_w_KeysVerificationAndOtp_2 :
    let s : State := updState 96 5 0 1 0 0
    let r : Req := updReqOf 96 5 0 1 0 0
    (s.updReq = some r) ∧ (r.op = 5) ∧ (s.updOpened = false) ∧ (96 ≤ r.len) ∧
      ((s.otpSlot (fld r.a0 0 2)).hash.toNat ≠ sha256Nat (s.reqData r 64)) := by decide +kernel
theorem test_w_KeysVerificationAndOtp_3 :
    let s : State := updState 95 5 0 1 0 0
    let r : Req := updReqOf 95 5 0 1 0 0
    (s.updReq = some r) ∧ (r.op = 5) ∧ (s.updOpened = true ∨ r.len < 96) := by decide +kernel
theorem test_w_KeysVerificationAndOtp_4 :
    let s : State := live
    (s.updReq = none ∨ ∀ r, s.updReq = some r → r.op ≠ 5) := by exact .inl (by decide +kernel)
theorem test_w_KeysVerificationAndOtp_5 :
    let s : State := updState 104 6 0 1 0 0
    let r : Req := updReqOf 104 6 0 1 0 0
    let t := after (exec .updRevoke s) s
    (s.updReq = some r) ∧ (r.op = 6) ∧ (s.updOpened = false) ∧ (104 ≤ r.len) ∧
      ((s.reqData r 72).take 4 ≠ [0x52, 0x56, 0x4b, 0x45]) ∧ (t.rd Reg.updResult = 0x80063829) := by decide +kernel
theorem test_w_KeysVerificationAndOtp_6 :
    let s : State := updState 104 6 0 1 0 0
    let r : Req := updReqOf 104 6 0 1 0 0
    let k : Nat := 0
    let t := after (exec .updRevoke s) s
    (s.updReq = some r) ∧ (r.op = 6) ∧ (s.updOpened = false) ∧ (104 ≤ r.len) ∧
      (k = ((s.reqData r 72).getD 4 0).toNat % 4) ∧ (t.rd Reg.updResult = 0x80063829) := by decide +kernel
theorem test_w_KeysVerificationAndOtp_7 :
    let s : State := updState 95 6 0 1 0 0
    let r : Req := updReqOf 95 6 0 1 0 0
    (s.updReq = some r) ∧ (r.op = 6) ∧ (s.updOpened = true ∨ r.len < 104) := by decide +kernel
theorem test_w_KeysVerificationAndOtp_8 :
    let s : State := live
    (s.updReq = none ∨ ∀ r, s.updReq = some r → r.op ≠ 6) := by exact .inl (by decide +kernel)
theorem test_w_KeysVerificationAndOtp_9 :
    let s : State := stopd.modUpd fun x => { x with st := .verifying }
    let ok : Bool := true
    let t := after (exec (.guardedVerifyDone ok) s) s
    (s.alive = true) ∧ (s.upd.st = .verifying) ∧ (t.upd.st = .idle ∧ t.rd Reg.updResult = 0x80033810) := by decide +kernel
theorem test_w_KeysVerificationAndOtp_10 :
    let s : State := live
    let ok : Bool := true
    (s.alive = false ∨ s.upd.st ≠ .verifying) := by decide +kernel
theorem test_w_KeysVerificationAndOtp_11 :
    let s : State := stopd
    (s.safeLatch = false) ∧ (s.imgRun = false) ∧ (s.eng.mode = .stop) ∧
      (s.verified = s.modUpd fun x => { x with st := .activating }) := by decide +kernel
theorem test_w_KeysVerificationAndOtp_12 :
    let s : State := { stopd with safeLatch := true }
    (s.safeLatch = true) ∧ (s.verified = (s.modUpd fun x => { x with st := .idle, journal := 0 }).updResult 0 3) := by decide +kernel
theorem test_w_KeysVerificationAndOtp_13 :
    let s : State := stopd.modUpd fun x => { x with st := .activating }
    (s.alive = true) ∧ (s.upd.st = .activating) ∧ (s.eng.change = .none) := by decide +kernel
theorem test_w_KeysVerificationAndOtp_14 :
    let s : State := live
    (s.alive = false ∨ s.upd.st ≠ .activating ∨ s.eng.change ≠ .none) := by decide +kernel
theorem test_w_KeysVerificationAndOtp_15 :
    let s : State := { stopd.modUpd fun x => { x with st := .restoring, journal := 3 } with imgRun := true, pim := [(0, 9), (8, 12)], cfgFlash := [(5, 3)] }
    let t := after (exec (.restoreDone true) s) s
    (s.alive = true) ∧ (s.upd.st = .restoring) ∧ (s.regsOk) ∧
      (t.cfgFlash = [(0, 9), (1, 0), (2, 0), (3, 0), (4, 0), (5, 0), (6, 0), (7, 0), (8, 12), (9, 0), (10, 0), (11, 0)]
        ∧ t.upd.st = .idle) := by decide +kernel
theorem test_w_KeysVerificationAndOtp_16 :
    let s : State := stopd.modUpd fun x => { x with st := .restoring, journal := 3 }
    let t := after (exec (.restoreDone false) s) s
    (s.alive = true) ∧ (s.upd.st = .restoring) ∧ (s.regsOk) ∧ (t.upd.st = .idle) ∧ (t.cfgFlash = s.cfgFlash) ∧
      (t.rd Reg.updResult = 0x80053827) ∧ (bit (t.rd Reg.updStat) 3 = false) ∧ (s.reports t 0x3827 []) := by decide +kernel
theorem test_w_KeysVerificationAndOtp_17 :
    let s : State := live
    let ok : Bool := true
    (s.alive = false ∨ s.upd.st ≠ .restoring) := by decide +kernel
theorem test_w_KeysVerificationAndOtp_18 :
    let s : State := (List.range 32).foldl (fun s n => s.wr (Reg.mbxBind n) 0) (stopd.wr (Reg.hifSem 3) 2)
    let f : Bool := true
    let t := after (exec (.loaderRestart f) s) s
    (s.alive = true) ∧ (s.upd.st = .idle) ∧ (t.rd (Reg.hifSem 3) = 0 ∧ t.upd.st = .idle) := by decide +kernel
theorem test_w_KeysVerificationAndOtp_19 :
    let s : State := (List.range 32).foldl (fun s n => s.wr (Reg.mbxBind n) 0) (stopd.modUpd fun x => { x with st := .quick })
    let f : Bool := true
    let t := after (exec (.loaderRestart f) s) s
    (s.alive = true) ∧ (s.upd.st = .quick) ∧ (t.upd.st = .idle ∧ bit (t.rd 0x38010) 1 = true) := by decide +kernel
theorem test_w_KeysVerificationAndOtp_20 :
    let s : State := stopd.modUpd fun x => { x with st := .guarded }
    let f : Bool := true
    (s.alive = true) ∧ (s.upd.st = .guarded ∨ s.upd.st = .verifying) := by decide +kernel
theorem test_w_KeysVerificationAndOtp_21 :
    let s : State := stopd.modUpd fun x => { x with st := .restoring }
    let f : Bool := true
    (s.alive = true) ∧ (s.upd.st = .restoring) := by decide +kernel
theorem test_w_KeysVerificationAndOtp_22 :
    let s : State := stopd.modUpd fun x => { x with st := .activating }
    let f : Bool := true
    let t := after (exec (.loaderRestart f) s) s
    (s.alive = true) ∧ (s.safeLatch = false) ∧ (s.upd.st = .activating) ∧ (t.mstate = .safe) ∧ (t.safeLatch = true) := by decide +kernel
theorem test_w_KeysVerificationAndOtp_23 :
    let s : State := { live with supply := .off }
    let f : Bool := true
    (s.alive = false) := by decide +kernel
theorem test_w_KeysVerificationAndOtp_24 :
    let s : State := stopd.wr (Reg.updOtphash 0) 0x11223344
    let v : Word := 0x5a5a5a02
    let k : Fin 4 := 2
    let t := after (exec (.otpProvision .pf0 v) s) s
    (s.allowsWrite .pf0 Reg.updOtpcmd v = true) ∧ (fld v 8 24 = 0x5a5a5a) ∧ (fld v 0 2 = k.val) ∧
      (s.locked 0x38 = false) ∧ ((s.upd.otp[k]).hash = 0) ∧ (s.upd.otpBusy = none) ∧
      (t.upd.otpBusy = some (2, 0x1122334400000000000000000000000000000000000000000000000000000000)) := by decide +kernel
theorem test_w_KeysVerificationAndOtp_25 :
    let s : State := stopd.modUpd fun x => { x with otp := x.otp.set 2 ⟨7, false⟩ }
    let v : Word := 0x5a5a5a02
    let k : Fin 4 := 2
    let t := after (exec (.otpProvision .pf0 v) s) s
    (s.allowsWrite .pf0 Reg.updOtpcmd v = true) ∧ (fld v 0 2 = k.val) ∧ ((s.upd.otp[k]).hash ≠ 0) ∧
      (t.upd.otpBusy = none) := by decide +kernel
theorem test_w_KeysVerificationAndOtp_26 :
    let s : State := stopd.modUpd fun x => { x with otpBusy := some (2, 9) }
    let k : Fin 4 := 2
    let hsh : BitVec 256 := 9
    let t := after (exec .otpProgramDone s) s
    (s.alive = true) ∧ (s.upd.otpBusy = some (k, hsh)) ∧ (s.regsOk) ∧ ((t.upd.otp[k]).hash = hsh ∧
      (t.upd.otp[k]).revoked = (s.upd.otp[k]).revoked) ∧ (∀ j : Fin 4, j ≠ k → t.upd.otp[j] = s.upd.otp[j]) ∧
      (t.upd.otpBusy = none) ∧ (bit (t.rd 0x38010) 5 = true) ∧ (s.reports t 0x3806 []) := by decide +kernel
theorem test_w_KeysVerificationAndOtp_27 :
    let s : State := live
    (s.alive = false ∨ s.upd.otpBusy = none) := by decide +kernel
theorem test_w_TwinUnitsMirrorAndJoin_1 :
    let s : State := { live.wr Reg.twnCtrl 1 with now := 100007, twn := { Twn.reset with role := .active } }
    let m : Nat := 100000
    let t := after (exec .twinHbSend s) s
    (s.alive = true) ∧ (s.twnEn = true) ∧ (s.safeLatch = false) ∧ (m = s.now / 50000 * 50000) ∧ (s.twn.hbSent < m) ∧
      (s.twn.role = .active) ∧ (t.outbox.length = 2 ∧ t.twn.hbSent = 100000) := by decide +kernel
theorem test_w_TwinUnitsMirrorAndJoin_2 :
    let s : State := { live.wr Reg.twnCtrl 1 with now := 100007 }
    let m : Nat := 100000
    let t := after (exec .twinHbSend s) s
    (s.alive = true) ∧ (s.twnEn = true) ∧ (s.safeLatch = false) ∧ (m = s.now / 50000 * 50000) ∧ (s.twn.hbSent < m) ∧
      (s.twn.role ≠ .active) ∧ (t.outbox.length = 1) := by decide +kernel
theorem test_w_TwinUnitsMirrorAndJoin_3 :
    let s : State := live
    (s.alive = false ∨ s.twnEn = false ∨ s.safeLatch = true ∨ s.now / 50000 * 50000 ≤ s.twn.hbSent) := by decide +kernel
theorem test_w_TwinUnitsMirrorAndJoin_4 :
    let s : State := live.wr Reg.twnCtrl 1
    let f : TwinFrame := ⟨1, false⟩
    let r : TwinRx := ⟨f, f, f⟩
    let i : Instr := .twinMirRx r
    let t := after (exec i s) s
    (i ∈ [.twinHbRx r, .twinMirRx r, .twinTrgRx r, .twinMbwRx r, .twinCmpRx r, .twinXfrRx r]) ∧ (s.alive = true) ∧
      (s.twnEn = true) ∧ ((s.lanes.twinMaj r).crcOk = false) ∧ (s.regsOk) ∧
      (t.rd Reg.twnLinkerr = satInc (s.rd Reg.twnLinkerr) 0xffffffff) ∧ (t.twn = s.twn ∧ t.pim = s.pim) := by decide +kernel
theorem test_w_TwinUnitsMirrorAndJoin_5 :
    let s : State := { live.wr Reg.twnCtrl 1 with now := 70, twn := { Twn.reset with role := .wait } }
    let f : TwinFrame := (twinFrame [1, 2, 0, 0, 0, 0, 0, 0, 0, 0, 0, 0, 9, 0, 0, 0])
    let r : TwinRx := ⟨f, f, f⟩
    let t := after (exec (.twinHbRx r) s) s
    (s.alive = true) ∧ (s.twnEn = true) ∧ (s.lanes.twinMaj r = f) ∧ (f.crcOk = true) ∧ (twNum f 0 1 = 1) ∧
      (s.twn.role = .wait ∨ s.twn.role = .alone ∨ s.twn.role = .unfit) ∧ (s.regsOk) ∧ (t.twn.peerId = 9 ∧
      t.rd Reg.twnPeer = 2) := by decide +kernel
theorem test_w_TwinUnitsMirrorAndJoin_6 :
    let s : State := { live.wr Reg.twnCtrl 1 with now := 70, twn := { Twn.reset with role := .joining } }
    let f : TwinFrame := idFrame s.imageId
    let r : TwinRx := ⟨f, f, f⟩
    (s.alive = true) ∧ (s.twnEn = true) ∧ (s.lanes.twinMaj r = f) ∧ (f.crcOk = true) ∧ (twNum f 0 1 = 1) ∧
      (twNum f 1 1 % 8 = 2) ∧ (s.twn.role = .joining) ∧ (s.twn.joinAt = none) ∧ (s.joinDue = true) ∧
      (wd (twNum f 12 4) = s.imageId) ∧ (s.regsOk) := by exact ⟨by decide +kernel, by decide +kernel, twinMaj_same _ _, rfl, (idFrame_reads _).1, (idFrame_reads _).2.1, rfl, rfl, rfl, (idFrame_reads _).2.2, by decide +kernel⟩
theorem test_w_TwinUnitsMirrorAndJoin_7 :
    let s : State := live.wr Reg.twnCtrl 0
    let f : TwinFrame := ⟨1, false⟩
    let r : TwinRx := ⟨f, f, f⟩
    let i : Instr := .twinXfrRx r
    (i ∈ [.twinHbRx r, .twinMirRx r, .twinTrgRx r, .twinMbwRx r, .twinCmpRx r, .twinXfrRx r]) ∧
      (s.alive = false ∨ s.twnEn = false) := by decide +kernel
theorem test_w_TwinUnitsMirrorAndJoin_8 :
    let s : State := live.wr Reg.twnCtrl 1
    let f : TwinFrame := twinFrame [3]
    let r : TwinRx := ⟨f, f, f⟩
    let i : Instr := .twinCmpRx r
    let n : Nat := 5
    ((i, n) ∈ [(.twinHbRx r, 1), (.twinMirRx r, 2), (.twinTrgRx r, 3), (.twinMbwRx r, 4), (.twinCmpRx r, 5),
        (.twinXfrRx r, 6)]) ∧ (s.alive = true) ∧ (s.twnEn = true) ∧ ((s.lanes.twinMaj r).crcOk = true) ∧
      (twNum (s.lanes.twinMaj r) 0 1 ≠ n) := by decide +kernel
theorem test_w_TwinUnitsMirrorAndJoin_9 :
    let s : State := { live.wr Reg.twnCtrl 1 with now := 70, twn := { Twn.reset with role := .joining } }
    let f : TwinFrame := (twinFrame [1, 3, 0, 0, 0, 0, 0, 0, 0, 0, 0, 0, 9, 0, 0, 0])
    let r : TwinRx := ⟨f, f, f⟩
    let t := after (exec (.twinHbRx r) s) s
    (s.alive = true) ∧ (s.twnEn = true) ∧ (s.lanes.twinMaj r = f) ∧ (f.crcOk = true) ∧ (twNum f 0 1 = 1) ∧
      (s.twn.role = .joining) ∧ (twNum f 1 1 % 8 ≠ 2) ∧ (s.regsOk) ∧ (t.rd Reg.twnPeer = wd (twNum f 1 1) ∧
      t.twn = { s.twn with hbOk := true, hbAt := s.now, peerId := wd (twNum f 12 4), lostAt := none }) := by decide +kernel
theorem test_w_TwinUnitsMirrorAndJoin_10 :
    let s : State := { live.wr Reg.twnCtrl 1 with now := 70, twn := { Twn.reset with role := .joining } }
    let f : TwinFrame := idFrame (s.imageId + 1)
    let r : TwinRx := ⟨f, f, f⟩
    (s.alive = true) ∧ (s.twnEn = true) ∧ (s.lanes.twinMaj r = f) ∧ (f.crcOk = true) ∧ (twNum f 0 1 = 1) ∧
      (s.twn.role = .joining) ∧ (twNum f 1 1 % 8 = 2) ∧ (wd (twNum f 12 4) ≠ s.imageId) ∧ (s.regsOk) := by exact ⟨by decide +kernel, by decide +kernel, twinMaj_same _ _, rfl, (idFrame_reads _).1, rfl, (idFrame_reads _).2.1, idFrame_other _, by decide +kernel⟩
theorem test_w_TwinUnitsMirrorAndJoin_11 :
    let s : State := { live.wr Reg.twnCtrl 1 with now := 70, twn := { Twn.reset with role := .standby } }
    let f : TwinFrame := (twinFrame [1, 2, 0, 0, 0, 0, 0, 0, 0, 0, 0, 0, 9, 0, 0, 0])
    let r : TwinRx := ⟨f, f, f⟩
    let t := after (exec (.twinHbRx r) s) s
    (s.alive = true) ∧ (s.twnEn = true) ∧ (s.lanes.twinMaj r = f) ∧ (f.crcOk = true) ∧ (twNum f 0 1 = 1) ∧
      (s.twn.role = .standby) ∧ (twNum f 1 1 % 8 = 2) ∧ (s.twn.sync = false) ∧ (s.regsOk) ∧ (t.twn.role = .joining ∧
      t.twn.sync = false ∧ t.twn.joinAt = none ∧ t.twn.mir = []) := by decide +kernel
theorem test_w_TwinUnitsMirrorAndJoin_12 :
    let s : State := { live.wr Reg.twnCtrl 1 with now := 70, twn := { Twn.reset with role := .standby, sync := true } }
    let f : TwinFrame := (twinFrame [1, 2, 0, 0, 0, 0, 0, 0, 0, 0, 0, 0, 9, 0, 0, 0])
    let r : TwinRx := ⟨f, f, f⟩
    let t := after (exec (.twinHbRx r) s) s
    (s.alive = true) ∧ (s.twnEn = true) ∧ (s.lanes.twinMaj r = f) ∧ (f.crcOk = true) ∧ (twNum f 0 1 = 1) ∧
      (s.twn.role = .standby) ∧ (twNum f 1 1 % 8 = 2) ∧ (s.twn.sync = true) ∧ ((twNum f 1 1).testBit 4 = false) ∧
      (s.regsOk) ∧ (t.twn.role = .joining ∧ t.twn.sync = false ∧ t.twn.joinAt = none ∧ t.twn.mir = []) ∧
      (s.reports t 0x390a []) := by decide +kernel
theorem test_w_TwinUnitsMirrorAndJoin_13 :
    let s : State := { live.wr Reg.twnCtrl 1 with twn := { Twn.reset with role := .standby } }
    let f : TwinFrame := twinFrame [2, 1, 5, 0, 7, 0, 0, 0, 9, 0, 0, 0]
    let r : TwinRx := ⟨f, f, f⟩
    let t := after (exec (.twinMirRx r) s) s
    (s.alive = true) ∧ (s.twnEn = true) ∧ (s.lanes.twinMaj r = f) ∧ (f.crcOk = true) ∧ (twNum f 0 1 = 2) ∧
      (s.twn.role = .standby) ∧ (twNum f 2 2 < 16384) ∧ (t.twn.mir = [⟨5, 7, true, false, 9⟩]) := by decide +kernel
theorem test_w_TwinUnitsMirrorAndJoin_14 :
    let s : State := live.wr Reg.twnCtrl 1
    let f : TwinFrame := twinFrame [2]
    let r : TwinRx := ⟨f, f, f⟩
    (s.alive = true) ∧ (s.twnEn = true) ∧ (s.lanes.twinMaj r = f) ∧ (f.crcOk = true) ∧ (twNum f 0 1 = 2) ∧
      (s.twn.role ≠ .standby ∨ 16384 ≤ twNum f 2 2) := by decide +kernel
theorem test_w_TwinUnitsMirrorAndJoin_15 :
    let s : State := { live.wr Reg.twnCtrl 1 with twn := { Twn.reset with role := .standby } }
    let f : TwinFrame := twinFrame [3, 2, 0xa0, 0x0f, 0, 0, 0, 0, 0, 0, 1, 0, 0, 0]
    let r : TwinRx := ⟨f, f, f⟩
    let k : Fin 8 := 2
    let t := after (exec (.twinTrgRx r) s) s
    (s.alive = true) ∧ (s.twnEn = true) ∧ (s.lanes.twinMaj r = f) ∧ (f.crcOk = true) ∧ (twNum f 0 1 = 3) ∧
      (twNum f 1 1 = k.val) ∧ (s.twn.role = .standby) ∧
      (t.twn.trgs = s.twn.trgs ++ [⟨k, twNum f 2 8, wd (twNum f 10 4)⟩]) ∧ ((s.task k).trig = none →
      (t.task k).trig = some (twNum f 2 8 + s.mlag)) ∧ ((s.task k).trig.isSome = true →
      (t.task k).trig = (s.task k).trig) ∧ (((s.task k).rec').trig = 0 →
      (t.task k).grid = twNum f 2 8 + s.mlag + 1000 * ((s.task k).rec').period) ∧ (∀ j : Fin 8, j ≠ k →
      t.task j = s.task j) := by decide +kernel
theorem test_w_TwinUnitsMirrorAndJoin_16 :
    let s : State := live.wr Reg.twnCtrl 1
    let f : TwinFrame := twinFrame [3]
    let r : TwinRx := ⟨f, f, f⟩
    (s.alive = true) ∧ (s.twnEn = true) ∧ (s.lanes.twinMaj r = f) ∧ (f.crcOk = true) ∧ (twNum f 0 1 = 3) ∧
      (s.twn.role ≠ .standby ∨ 8 ≤ twNum f 1 1) := by decide +kernel
theorem test_w_TwinUnitsMirrorAndJoin_17 :
    let s : State := { live.wr Reg.twnCtrl 1 with twn := { Twn.reset with role := .standby, mbw := [(5, 1, [7])] } }
    let f : TwinFrame := twinFrame [4, 5, 1, 1, 8, 0, 0, 0]
    let r : TwinRx := ⟨f, f, f⟩
    let e : Byte := 1
    let ws : List Word := [7, 8]
    let t := after (exec (.twinMbwRx r) s) s
    (s.alive = true) ∧ (s.twnEn = true) ∧ (s.lanes.twinMaj r = f) ∧ (f.crcOk = true) ∧ (twNum f 0 1 = 4) ∧
      (twNum f 1 1 < 16) ∧ (twNum f 2 1 < 128) ∧ (s.twn.role = .standby) ∧ (e = BitVec.ofNat 8 (twNum f 3 1)) ∧
      (ws = (((s.twn.mbw.find? fun m => m.1 == twNum f 1 1).map fun m => m.2.2).getD []).take (twNum f 2 1) ++ [wd
        (twNum f 4 4)]) ∧ (t.twn.mbw = (twNum f 1 1, e, ws) :: s.twn.mbw.filter fun m => m.1 != twNum f 1 1) ∧
      (t.host = s.host) := by decide +kernel
theorem test_w_TwinUnitsMirrorAndJoin_18 :
    let s : State := { (live.wr Reg.twnCtrl 1).wr (Reg.mbxBind 5) 0x80000018 with twn := { Twn.reset with role := .standby, mbw := [(5, 1, [7])] } }
    let f : TwinFrame := twinFrame [4, 5, 129, 1, 8, 0, 0, 0]
    let r : TwinRx := ⟨f, f, f⟩
    let ws : List Word := [7, 8]
    let a : Bool := false
    let t := after (exec (.twinMbwRx r) s) s
    (s.alive = true) ∧ (s.twnEn = true) ∧ (s.lanes.twinMaj r = f) ∧ (f.crcOk = true) ∧ (twNum f 0 1 = 4) ∧
      (twNum f 1 1 < 16) ∧ (128 ≤ twNum f 2 1) ∧ (s.twn.role = .standby) ∧
      (ws = (((s.twn.mbw.find? fun m => m.1 == twNum f 1 1).map fun m => m.2.2).getD []).take (twNum f 2 1 % 128) ++
        [wd (twNum f 4 4)]) ∧ (s.engReceives (twNum f 1 1) = some a) ∧
      (chanRoom (twNum f 1 1) ((s.chan (twNum f 1 1)).txq (!a)) ws.length = true) ∧
      ((t.chan (twNum f 1 1)).txq (!a) = (s.chan (twNum f 1 1)).txq (!a) ++ [⟨BitVec.ofNat 8 (twNum f 3 1), ws⟩]) ∧
      (t.twn.mbw = s.twn.mbw.filter fun m => m.1 != twNum f 1 1) := by decide +kernel
theorem test_w_TwinUnitsMirrorAndJoin_19 :
    let s : State := live.wr Reg.twnCtrl 1
    let f : TwinFrame := twinFrame [4]
    let r : TwinRx := ⟨f, f, f⟩
    (s.alive = true) ∧ (s.twnEn = true) ∧ (s.lanes.twinMaj r = f) ∧ (f.crcOk = true) ∧ (twNum f 0 1 = 4) ∧
      (s.twn.role ≠ .standby ∨ 16 ≤ twNum f 1 1) := by decide +kernel
theorem test_w_TwinUnitsMirrorAndJoin_20 :
    let s : State := { live.wr Reg.twnCtrl 1 with twn := { Twn.reset with role := .standby } }
    let f : TwinFrame := twinFrame [5, 2, 1, 0, 0, 0, 8, 0, 0, 0, 0, 0, 0, 0]
    let r : TwinRx := ⟨f, f, f⟩
    let k : Fin 8 := 2
    let t := after (exec (.twinCmpRx r) s) s
    (s.alive = true) ∧ (s.twnEn = true) ∧ (s.lanes.twinMaj r = f) ∧ (f.crcOk = true) ∧ (twNum f 0 1 = 5) ∧
      (twNum f 1 1 = k.val) ∧ (s.twn.role = .standby) ∧
      ((s.twn.cmpOwn.find? fun e => e.1 == k && e.2.1 == wd (twNum f 2 4)) = none) ∧ (t.twn.cmpRx = [(2, 1, 8)]) := by decide +kernel
theorem test_w_TwinUnitsMirrorAndJoin_21 :
    let s : State := { live.wr Reg.twnCtrl 1 with twn := { Twn.reset with role := .standby, cmpOwn := [(2, 1, 8)] } }
    let f : TwinFrame := twinFrame [5, 2, 1, 0, 0, 0, 8, 0, 0, 0, 0, 0, 0, 0]
    let r : TwinRx := ⟨f, f, f⟩
    let k : Fin 8 := 2
    let d : Dword := 8
    let t := after (exec (.twinCmpRx r) s) s
    (s.alive = true) ∧ (s.twnEn = true) ∧ (s.lanes.twinMaj r = f) ∧ (f.crcOk = true) ∧ (twNum f 0 1 = 5) ∧
      (twNum f 1 1 = k.val) ∧ (s.twn.role = .standby) ∧
      ((s.twn.cmpOwn.find? fun e => e.1 == k && e.2.1 == wd (twNum f 2 4)) = some (k, wd (twNum f 2 4), d)) ∧
      (t =
        ({ (s.modTwn fun x => { x with cmpOwn := x.cmpOwn.filter fun e => e.1 != k }) with lanes := { s.lanes with bitDev := s.lanes.bitDev ||| s.lanes.twinDev r } }).cmpJudge
        k d (BitVec.ofNat 64 (twNum f 6 8))) := by decide +kernel
theorem test_w_TwinUnitsMirrorAndJoin_22 :
    let s : State := live.wr Reg.twnCtrl 1
    let f : TwinFrame := twinFrame [5]
    let r : TwinRx := ⟨f, f, f⟩
    (s.alive = true) ∧ (s.twnEn = true) ∧ (s.lanes.twinMaj r = f) ∧ (f.crcOk = true) ∧ (twNum f 0 1 = 5) ∧
      (s.twn.role ≠ .standby ∨ 8 ≤ twNum f 1 1) := by decide +kernel
theorem test_w_TwinUnitsMirrorAndJoin_23 :
    let s : State := { live.wr Reg.twnCtrl 1 with twn := { Twn.reset with role := .joining, joinAt := some 0 } }
    let f : TwinFrame := twinFrame ([6] ++ natBytesLE ((pimOpc - pimInst) / 8) 3 ++ [1, 7, 0, 0, 0, 0, 0, 0, 9])
    let r : TwinRx := ⟨f, f, f⟩
    let t := after (exec (.twinXfrRx r) s) s
    (s.alive = true) ∧ (s.twnEn = true) ∧ (s.lanes.twinMaj r = f) ∧ (f.crcOk = true) ∧ (twNum f 0 1 = 6) ∧
      (s.twn.role = .joining) ∧ (s.twn.joinAt.isSome = true) ∧ (twNum f 4 1 < 4) ∧
      (s.xfrLines.contains (twNum f 1 3) = true) ∧ (t.pim = [(4 * pimOpc + 8, 7), (4 * pimOpc + 15, 9)]) := by decide +kernel
theorem test_w_TwinUnitsMirrorAndJoin_24 :
    let s : State := live.wr Reg.twnCtrl 1
    let f : TwinFrame := twinFrame [6]
    let r : TwinRx := ⟨f, f, f⟩
    (s.alive = true) ∧ (s.twnEn = true) ∧ (s.lanes.twinMaj r = f) ∧ (f.crcOk = true) ∧ (twNum f 0 1 = 6) ∧
      (s.twn.role ≠ .joining ∨ s.twn.joinAt = none ∨ 4 ≤ twNum f 4 1 ∨ s.xfrLines.contains (twNum f 1 3) = false) := by decide +kernel
theorem test_w_TwinUnitsMirrorAndJoin_25 :
    let s : State := { (List.range 32).foldl (fun s n => s.wr (Reg.mbxBind n) 0) (live.wr Reg.twnCtrl 1) with now := 5000000, twn := { Twn.reset with role := .joining, joinAt := some 0 } }
    let a : Nat := 0
    let t := after (exec (.joinPassEnd true) s) s
    (s.alive = true) ∧ (s.twnEn = true) ∧ (s.twn.role = .joining) ∧ (s.twn.joinAt = some a) ∧ (s.regsOk) ∧
      (t.twn.role = .standby ∧ t.twn.sync = true ∧ t.twn.joinAt = none ∧ t.twn.mir = []) ∧
      (t.rd Reg.twnJointime = wd (satNat 0xffffffff ((s.now - a) / 1000000))) ∧ (bit (t.rd 0x39010) 4 = true) ∧
      (∀ k : Fin 8, (t.task k).act = none ∧ (t.task k).trig = none) := by decide +kernel
theorem test_w_TwinUnitsMirrorAndJoin_26 :
    let s : State := { live.wr Reg.twnCtrl 1 with twn := { Twn.reset with role := .joining, joinAt := some 0 } }
    let a : Nat := 0
    let t := after (exec (.joinPassEnd false) s) s
    (s.alive = true) ∧ (s.twnEn = true) ∧ (s.twn.role = .joining) ∧ (s.twn.joinAt = some a) ∧ (s.twn.pass < 16) ∧
      (t = s.modTwn fun x => { x with pass := x.pass + 1 }) := by decide +kernel
theorem test_w_TwinUnitsMirrorAndJoin_27 :
    let s : State := { stopd.wr Reg.twnCtrl 1 with twn := { Twn.reset with role := .active, sentPim := some [] } }
    let t := after (exec (.joinPassEnd true) s) s
    (s.alive = true) ∧ (s.twnEn = true) ∧ (s.twn.role = .active) ∧ (s.twn.sentPim.isSome = true) ∧
      (s.xfrMarked.length < 256) ∧ (s.taskBoundary = true) ∧
      (s.readLines 6 ((s.xfrMarked).map fun l => pimInst / 8 + l) = (s, true)) ∧
      (t = (s.xfrMarked.foldl State.xfrLine s).modTwn fun x => { x with sentPim := none, pass := 0, sync := true }) := by decide +kernel
theorem test_w_TwinUnitsMirrorAndJoin_28 :
    let s : State := { live.wr Reg.twnCtrl 1 with twn := { Twn.reset with role := .active, sentPim := some [] } }
    let t := after (exec (.joinPassEnd false) s) s
    (s.alive = true) ∧ (s.twnEn = true) ∧ (s.twn.role = .active) ∧ (s.twn.sentPim.isSome = true) ∧
      (s.twn.pass < 16) ∧ (s.readLines 6 ((s.xfrMarked).map fun l => pimInst / 8 + l) = (s, true)) ∧
      (t = (s.xfrMarked.foldl State.xfrLine s).modTwn fun x => { x with sentPim := some s.pim, pass := x.pass + 1 }) := by decide +kernel
theorem test_w_TwinUnitsMirrorAndJoin_29 :
    let s : State := { live.wr Reg.twnCtrl 1 with twn := { Twn.reset with role := .active } }
    let last : Bool := true
    (s.twn.role = .active) ∧ (s.twn.sentPim = none ∨ last = true ∧
      (256 ≤ s.xfrMarked.length ∨ s.taskBoundary = false) ∨ last = false ∧ 16 ≤ s.twn.pass) := by decide +kernel
theorem test_w_TwinUnitsMirrorAndJoin_30 :
    let s : State := live.wr Reg.twnCtrl 0
    let last : Bool := true
    (s.alive = false ∨ s.twnEn = false ∨ s.twn.role ≠ .active ∧ s.twn.role ≠ .joining ∨ s.twn.role = .joining ∧
      (s.twn.joinAt = none ∨ last = false ∧ 16 ≤ s.twn.pass)) := by decide +kernel
theorem test_w_TwinUnitsMirrorAndJoin_31 :
    let s : State := { live.wr Reg.twnCtrl 1 with twn := { Twn.reset with role := .active, sentPim := some [] }, pimc := { live.pimc with retry := some (1, 1, false) } }
    let u : State := s
    let last : Bool := false
    (s.alive = true) ∧ (s.twnEn = true) ∧ (s.twn.role = .active) ∧ (s.twn.sentPim.isSome = true) ∧
      (if last = true then s.xfrMarked.length < 256 ∧ s.taskBoundary = true else s.twn.pass < 16) ∧
      (s.readLines 6 ((s.xfrMarked).map fun l => pimInst / 8 + l) = (u, false)) := by decide +kernel
theorem test_w_TwinUnitsMirrorAndJoin_32 :
    let s : State := { live.wr Reg.twnCtrl 1 with twn := { Twn.reset with role := .joining, joinAt := some 0, pass := 16 } }
    let t := after (exec .joinRestart s) s
    (s.alive = true) ∧ (s.twnEn = true) ∧ (16 ≤ s.twn.pass) ∧ (s.twn.role = .active ∨ s.twn.role = .joining) ∧
      (t = s.modTwn fun x =>
        { x with pass := 0, joinAt := none, sentPim := none, retryAt := some (nextWhole s.now 1000000000) }) := by decide +kernel
theorem test_w_TwinUnitsMirrorAndJoin_33 :
    let s : State := live
    (s.alive = false ∨ s.twnEn = false ∨ s.twn.pass < 16 ∨ s.twn.role ≠ .active ∧ s.twn.role ≠ .joining) := by decide +kernel
theorem test_w_TwinUnitsMirrorAndJoin_34 :
    let s : State := { live.wr Reg.twnCtrl 1 with twn := { Twn.reset with role := .active, sync := true } }
    let t := after (exec .mirrorOverrun s) s
    (s.alive = true) ∧ (s.twnEn = true) ∧ (s.twn.role = .active) ∧ (s.twn.sync = true) ∧ (t.twn.sync = false ∧
      t.twn.role = .active ∧ t.twn.sentPim = none) ∧ (s.reports t 0x390a []) := by decide +kernel
theorem test_w_TwinUnitsMirrorAndJoin_35 :
    let s : State := live
    (s.alive = false ∨ s.twnEn = false ∨ s.twn.role ≠ .active ∨ s.twn.sync = false) := by decide +kernel
theorem test_w_TwinUnitsMirrorAndJoin_36 :
    let s : State := { ((live.pimWr 0x1d 0x1000).pimWr 0x1e 24).pimWrs 0x400 [1, 0, 0x1000005, 4, 0, 0] with imgRun := true, regs := (live.wr Reg.twnCtrl 1).regs, twn := { Twn.reset with role := .active } }
    let m : MapE := ⟨5, false, 1, 4, 0, 0, 0, 0⟩
    let t := after (exec .twinMirRefresh s) s
    (s.alive = true) ∧ (s.twnEn = true) ∧ (s.twn.role = .active) ∧
      ((s.maps.filter fun m => !m.out).find? s.mirDue = some m) ∧
      (s.readLines 6 [(pimIpi + m.piw) / 8, (pimIst + m.piw) / 8] = (s, true)) ∧
      (t.outbox = s.outbox ++ [.twin (mirFrame m.piw (s.pimRd (pimIpi + m.piw)) (s.pimRd (pimIst + m.piw)) (s.fresh
        m.piw))]) ∧ (t.pim = s.pim ∧ t.regs = s.regs) := by decide +kernel
theorem test_w_TwinUnitsMirrorAndJoin_37 :
    let s : State := live
    (s.alive = false ∨ s.twnEn = false ∨ s.twn.role ≠ .active ∨ (s.maps.filter fun m => !m.out).find? s.mirDue =
        none) := by decide +kernel
theorem test_w_TwinUnitsMirrorAndJoin_38 :
    let s : State := { ((live.pimWr 0x1d 0x1000).pimWr 0x1e 24).pimWrs 0x400 [1, 0, 0x1000005, 4, 0, 0] with imgRun := true, regs := (live.wr Reg.twnCtrl 1).regs, twn := { Twn.reset with role := .active }, pimc := { live.pimc with retry := some (1, 1, false) } }
    let u : State := s
    let m : MapE := ⟨5, false, 1, 4, 0, 0, 0, 0⟩
    (s.alive = true) ∧ (s.twnEn = true) ∧ (s.twn.role = .active) ∧
      ((s.maps.filter fun m => !m.out).find? s.mirDue = some m) ∧
      (s.readLines 6 [(pimIpi + m.piw) / 8, (pimIst + m.piw) / 8] = (u, false)) := by decide +kernel
theorem test_w_TwinUnitsMirrorAndJoin_39 :
    let s : State := { (List.range 32).foldl (fun s n => s.wr (Reg.mbxBind n) 0) ((live.wr Reg.twnCtrl 1).wr (Reg.clkGate 15) 1) with twn := { Twn.reset with role := .unfit } }
    let t := after (exec (.twinRejoin .pf0) s) s
    (s.allowsWrite .pf0 Reg.twnRejoin 1 = true) ∧ (s.twnEn = true) ∧ (t.twn.role = .joining ∧ t.twn.fit = true) := by decide +kernel
theorem test_w_TwinUnitsMirrorAndJoin_40 :
    let s : State := (live.wr Reg.twnCtrl 0).wr (Reg.clkGate 15) 1
    (s.allowsWrite .pf0 Reg.twnRejoin 1 = true) ∧ (s.twnEn = false) := by decide +kernel
theorem test_w_GrantDecidesTheActiveUnit_1 :
    let s : State := { (live.wr Reg.twnCtrl 1).wr Reg.twnPairid 77 with twn := { Twn.reset with role := .wait } }
    let t := after (exec .twinGrantRequest s) s
    (s.alive = true) ∧ (s.twnEn = true) ∧ (s.twn.role = .wait) ∧ (s.twn.askAt ≤ s.now) ∧
      (t = (s.owlTell 3).modTwn fun x => { x with askAt := s.now + 1000000 }) ∧
      (t.outbox = s.outbox ++ [.owl 3
        ⟨BitVec.ofBool s.twnUnit, s.pairId, s.twn.owlSeq + 1, BitVec.ofNat 64 s.now, 0, false, true⟩]) := by decide +kernel
theorem test_w_GrantDecidesTheActiveUnit_2 :
    let s : State := live
    (s.alive = false ∨ s.twnEn = false ∨ s.twn.role ≠ .wait ∨ s.now < s.twn.askAt) := by decide +kernel
theorem test_w_GrantDecidesTheActiveUnit_3 :
    let s : State := { live.wr Reg.twnCtrl 1 with now := 150000, twn := { Twn.reset with role := .standby, hbOk := true, fit := true, sync := true } }
    let t := after (exec .heartbeatLost s) s
    (s.alive = true) ∧ (s.twnEn = true) ∧ (s.twn.hbOk = true) ∧
      (s.twn.hbAt + 150000 ≤ s.now ∨ bit (s.rd Reg.twnPeer) 5 = true) ∧ (s.twn.role = .standby) ∧ (s.regsOk) ∧
      (t.twn.hbOk = false ∧ t.twn.lostAt = some s.now ∧ t.twn.told308 = false) ∧ (bit (t.rd 0x39010) 0 = true) ∧
      (s.reports t 0x3901 []) ∧ (s.twn.fit = true → s.twn.sync = true → t.twn.reqAt = some s.now ∧
      t.outbox = s.outbox ++ [.owl 3
        ⟨BitVec.ofBool s.twnUnit, s.pairId, s.twn.owlSeq + 1, BitVec.ofNat 64 s.now, 0, false, true⟩]) ∧
      (s.twn.fit = false ∨ s.twn.sync = false → t.twn.reqAt = s.twn.reqAt ∧ t.outbox = s.outbox) := by decide +kernel
theorem test_w_GrantDecidesTheActiveUnit_4 :
    let s : State := { live.wr Reg.twnCtrl 1 with now := 150000, twn := { Twn.reset with role := .active, hbOk := true } }
    (s.alive = true) ∧ (s.twnEn = true) ∧ (s.twn.hbOk = true) ∧
      (s.twn.hbAt + 150000 ≤ s.now ∨ bit (s.rd Reg.twnPeer) 5 = true) ∧ (s.twn.role ≠ .standby) := by decide +kernel
theorem test_w_GrantDecidesTheActiveUnit_5 :
    let s : State := live
    (s.alive = false ∨ s.twnEn = false ∨ s.twn.hbOk = false ∨ s.now < s.twn.hbAt + 150000 ∧
      bit (s.rd Reg.twnPeer) 5 = false) := by decide +kernel
theorem test_w_GrantDecidesTheActiveUnit_6 :
    let s : State := { live.wr Reg.twnCtrl 1 with now := 80000, twn := { Twn.reset with role := .standby, reqAt := some 60000, lostAt := some 0 } }
    let r : Nat := 60000
    let l : Nat := 0
    let t := after (exec .requestRepeat s) s
    (s.alive = true) ∧ (s.twnEn = true) ∧ (s.twn.role = .standby) ∧ (s.twn.reqAt = some r) ∧ (r + 20000 ≤ s.now) ∧
      (s.twn.lostAt = some l) ∧ (l + 60000 ≤ s.now) ∧ (s.twn.told308 = false) ∧ (s.regsOk) ∧
      (t.twn.reqAt = some s.now ∧ t.twn.told308 = true ∧ t.twn.refOk = false) ∧ (bit (t.rd 0x39010) 6 = true) ∧
      (s.reports t 0x3908 []) := by decide +kernel
theorem test_w_GrantDecidesTheActiveUnit_7 :
    let s : State := { live.wr Reg.twnCtrl 1 with now := 20000, twn := { Twn.reset with role := .standby, reqAt := some 0, lostAt := some 0 } }
    let r : Nat := 0
    let l : Nat := 0
    let t := after (exec .requestRepeat s) s
    (s.alive = true) ∧ (s.twnEn = true) ∧ (s.twn.role = .standby) ∧ (s.twn.reqAt = some r) ∧ (r + 20000 ≤ s.now) ∧
      (s.twn.lostAt = some l) ∧ (s.now < l + 60000 ∨ s.twn.told308 = true) ∧
      (t = (s.owlTell 3).modTwn fun x => { x with reqAt := some s.now }) := by decide +kernel
theorem test_w_GrantDecidesTheActiveUnit_8 :
    let s : State := { live with supply := .off }
    (s.alive = false ∨ s.twnEn = false ∨ s.twn.role ≠ .standby ∨ s.twn.reqAt = none ∨ ∃ r, s.twn.reqAt = some r ∧
      s.now < r + 20000) := by exact .inl (by decide +kernel)
theorem test_w_GrantDecidesTheActiveUnit_9 :
    let s : State := { (List.range 32).foldl (fun s n => s.wr (Reg.mbxBind n) 0) ((live.wr Reg.twnCtrl 1).wr Reg.twnPairid 77) with twn := { Twn.reset with role := .wait } }
    let m : OwlMsg := ⟨0, 77, 1, 0, 0, true, true⟩
    let t := after (exec (.refGrantRx m) s) s
    (s.owlMine m = true) ∧ (m.valid = true) ∧ (m.holder = m.unit) ∧ (s.twn.role = .wait) ∧ (t.twn.role = .active ∧
      t.twn.refOk = true ∧ t.twn.ackAt = s.now) ∧ (t.mstate = s.mstate) := by decide +kernel
theorem test_w_GrantDecidesTheActiveUnit_10 :
    let s : State := { (List.range 32).foldl (fun s n => s.wr (Reg.mbxBind n) 0) ((live.wr Reg.twnCtrl 1).wr Reg.twnPairid 77) with now := 5000, twn := { Twn.reset with role := .standby, reqAt := some 0, lostAt := some 0 } }
    let m : OwlMsg := ⟨0, 77, 1, 0, 0, true, true⟩
    let l : Nat := 0
    let t := after (exec (.refGrantRx m) s) s
    (s.owlMine m = true) ∧ (m.valid = true) ∧ (m.holder = m.unit) ∧ (s.twn.role = .standby) ∧
      (s.twn.reqAt.isSome = true) ∧ (s.twn.lostAt = some l) ∧ (s.regsOk) ∧ (t.twn.role = .active ∧
      t.rd Reg.twnLastto = 5 ∧ t.rd Reg.twnTakeovers = 1) := by decide +kernel
theorem test_w_GrantDecidesTheActiveUnit_11 :
    let s : State := { (live.wr Reg.twnCtrl 1).wr Reg.twnPairid 77 with twn := { Twn.reset with role := .joining } }
    let m : OwlMsg := ⟨0, 77, 1, 0, 0, true, true⟩
    (s.owlMine m = true) ∧ (m.valid = true) ∧ (m.holder = m.unit) ∧ (s.twn.role ≠ .wait ∧
      (s.twn.role = .standby → s.twn.reqAt = none)) := by decide +kernel
theorem test_w_GrantDecidesTheActiveUnit_12 :
    let s : State := live
    let m : OwlMsg := ⟨0, 77, 1, 0, 0, true, false⟩
    (s.owlMine m = false ∨ m.valid = false ∨ m.holder ≠ m.unit) := by decide +kernel
theorem test_w_GrantDecidesTheActiveUnit_13 :
    let s : State := { (live.wr Reg.twnCtrl 1).wr Reg.twnPairid 77 with twn := { Twn.reset with role := .standby, reqAt := some 0, sync := true } }
    let m : OwlMsg := ⟨0, 77, 1, 0, 1, true, true⟩
    let t := after (exec (.refDenyRx m) s) s
    (s.owlMine m = true) ∧ (s.twn.role = .standby) ∧ (s.twn.reqAt.isSome = true) ∧ (s.regsOk) ∧
      (t.twn.role = .standby ∧ t.twn.sync = false ∧ t.twn.reqAt = none ∧ t.twn.refOk = true) ∧
      (bit (t.rd 0x39010) 5 = true) ∧ (s.reports t 0x3907 []) := by decide +kernel
theorem test_w_GrantDecidesTheActiveUnit_14 :
    let s : State := { (List.range 32).foldl (fun s n => s.wr (Reg.mbxBind n) 0) ((live.wr Reg.twnCtrl 1).wr Reg.twnPairid 77) with twn := { Twn.reset with role := .wait } }
    let m : OwlMsg := ⟨0, 77, 1, 0, 1, true, true⟩
    let t := after (exec (.refDenyRx m) s) s
    (s.owlMine m = true) ∧ (s.twn.role = .wait) ∧ (m.valid = true) ∧ (m.holder ≠ m.unit) ∧ (t.twn.role = .joining ∧
      t.twn.sync = false ∧ t.twn.joinAt = none ∧ t.twn.refOk = true) := by decide +kernel
theorem test_w_GrantDecidesTheActiveUnit_15 :
    let s : State := { (live.wr Reg.twnCtrl 1).wr Reg.twnPairid 77 with twn := { Twn.reset with role := .joining } }
    let m : OwlMsg := ⟨0, 77, 1, 0, 1, true, true⟩
    (s.owlMine m = true) ∧ (s.twn.role = .wait → m.valid = false ∨ m.holder = m.unit) ∧ (s.twn.role = .standby →
      s.twn.reqAt = none) := by decide +kernel
theorem test_w_GrantDecidesTheActiveUnit_16 :
    let s : State := live
    let m : OwlMsg := ⟨0, 77, 1, 0, 0, true, false⟩
    (s.owlMine m = false) := by decide +kernel
theorem test_w_GrantDecidesTheActiveUnit_17 :
    let s : State := { (live.wr Reg.twnCtrl 1).wr Reg.twnPairid 77 with now := 5, twn := { Twn.reset with role := .active } }
    let m : OwlMsg := ⟨0, 77, 1, 0, 0, true, true⟩
    let t := after (exec (.renewAckRx m) s) s
    (s.owlMine m = true) ∧
      (t = s.modTwn fun x => { x with refOk := true, ansAt := s.now + 1, ackAt := s.now, told30b := false }) := by decide +kernel
theorem test_w_GrantDecidesTheActiveUnit_18 :
    let s : State := live
    let m : OwlMsg := ⟨0, 77, 1, 0, 0, true, false⟩
    (s.owlMine m = false) := by decide +kernel
theorem test_w_GrantDecidesTheActiveUnit_19 :
    let s : State := { live.wr Reg.twnCtrl 1 with now := 100000, twn := { Twn.reset with role := .active } }
    let t := after (exec .renewAckTimeout s) s
    (s.alive = true) ∧ (s.twnEn = true) ∧ (s.twn.role = .active) ∧ (s.twn.ackAt + 100000 ≤ s.now) ∧
      (s.twn.told30b = false) ∧ (t.twn = { s.twn with told30b := true, refOk := false }) ∧ (s.reports t 0x390b []) := by decide +kernel
theorem test_w_GrantDecidesTheActiveUnit_20 :
    let s : State := live
    (s.alive = false ∨ s.twnEn = false ∨ s.twn.role ≠ .active ∨ s.now < s.twn.ackAt + 100000 ∨ s.twn.told30b = true) := by decide +kernel
theorem test_w_GrantDecidesTheActiveUnit_21 :
    let s : State := { live.wr Reg.twnCtrl 1 with safeLatch := true, twn := { Twn.reset with tellSafe := true } }
    let t := after (exec .safeTwinRelinquish s) s
    (s.alive = true) ∧ (s.safeLatch = true) ∧ (s.twn.tellSafe = true) ∧ (t.outbox.length = 2 ∧
      t.twn.tellSafe = false) := by decide +kernel
theorem test_w_GrantDecidesTheActiveUnit_22 :
    let s : State := live
    (s.alive = false ∨ s.safeLatch = false ∨ s.twn.tellSafe = false) := by decide +kernel
theorem test_w_GrantDecidesTheActiveUnit_23 :
    let s : State := (live.wr Reg.twnCtrl 4).wr (Reg.twnRefpair 2) 0x8000004d
    let m : OwlMsg := ⟨1, 77, 1, 0, 0, false, true⟩
    let k : Fin 8 := 2
    let t := after (exec (.refereeRequestRx m) s) s
    (s.refPair m = some k) ∧ ((s.twn.pairs[k]).held s.now = false) ∧
      (t.twn.pairs[k] = ⟨m.unit == 1, true, s.now + 100000⟩) ∧
      (t.outbox = s.outbox ++ [.owl 4
        ⟨BitVec.ofBool (m.unit == 1), m.pair, s.twn.owlSeq + 1, BitVec.ofNat 64 s.now, BitVec.ofBool (m.unit == 1), true, true⟩])
        ∧ (∀ j : Fin 8, j ≠ k → t.twn.pairs[j] = s.twn.pairs[j]) := by decide +kernel
theorem test_w_GrantDecidesTheActiveUnit_24 :
    let s : State := { (live.wr Reg.twnCtrl 4).wr (Reg.twnRefpair 2) 0x8000004d with twn := { Twn.reset with pairs := Twn.reset.pairs.set 2 ⟨false, true, 100000⟩ } }
    let m : OwlMsg := ⟨1, 77, 1, 0, 0, false, true⟩
    let k : Fin 8 := 2
    let t := after (exec (.refereeRequestRx m) s) s
    (s.refPair m = some k) ∧ ((s.twn.pairs[k]).held s.now = true) ∧ (t.twn.pairs = s.twn.pairs) ∧
      (t.outbox = s.outbox ++ [.owl (if (s.twn.pairs[k]).heldBy m then 4 else 5)
        ⟨BitVec.ofBool (m.unit == 1), m.pair, s.twn.owlSeq + 1, BitVec.ofNat 64 s.now, BitVec.ofBool (s.twn.pairs[k]).holder, true, true⟩]) := by decide +kernel
theorem test_w_GrantDecidesTheActiveUnit_25 :
    let s : State := live
    let m : OwlMsg := ⟨0, 77, 1, 0, 0, true, false⟩
    (s.refPair m = none) := by decide +kernel
theorem test_w_GrantDecidesTheActiveUnit_26 :
    let s : State := { (live.wr Reg.twnCtrl 4).wr (Reg.twnRefpair 2) 0x8000004d with twn := { Twn.reset with pairs := Twn.reset.pairs.set 2 ⟨true, true, 100000⟩ } }
    let m : OwlMsg := ⟨1, 77, 1, 0, 0, false, true⟩
    let k : Fin 8 := 2
    let t := after (exec (.refereeRenewRx m) s) s
    (s.refPair m = some k) ∧ ((s.twn.pairs[k]).heldBy m = true) ∧
      (t.twn.pairs[k] = ⟨(s.twn.pairs[k]).holder, true, s.now + 100000⟩) ∧
      (t.outbox = s.outbox ++ [.owl 2
        ⟨BitVec.ofBool (m.unit == 1), m.pair, s.twn.owlSeq + 1, BitVec.ofNat 64 s.now, BitVec.ofBool (s.twn.pairs[k]).holder, true, true⟩]) := by decide +kernel
theorem test_w_GrantDecidesTheActiveUnit_27 :
    let s : State := { (live.wr Reg.twnCtrl 4).wr (Reg.twnRefpair 2) 0x8000004d with twn := { Twn.reset with pairs := Twn.reset.pairs.set 2 ⟨false, true, 100000⟩ } }
    let m : OwlMsg := ⟨1, 77, 1, 0, 0, false, true⟩
    let k : Fin 8 := 2
    let t := after (exec (.refereeRenewRx m) s) s
    (s.refPair m = some k) ∧ ((s.twn.pairs[k]).heldBy m = false) ∧ (t.twn.pairs = s.twn.pairs) ∧
      (t.outbox = s.outbox ++ [.owl 5
        ⟨BitVec.ofBool (m.unit == 1), m.pair, s.twn.owlSeq + 1, BitVec.ofNat 64 s.now, BitVec.ofBool (s.twn.pairs[k]).holder, (s.twn.pairs[k]).valid, true⟩]) := by decide +kernel
theorem test_w_GrantDecidesTheActiveUnit_28 :
    let s : State := live
    let m : OwlMsg := ⟨0, 77, 1, 0, 0, true, false⟩
    (s.refPair m = none) := by decide +kernel
theorem test_w_GrantDecidesTheActiveUnit_29 :
    let s : State := { (live.wr Reg.twnCtrl 4).wr (Reg.twnRefpair 2) 0x8000004d with twn := { Twn.reset with pairs := Twn.reset.pairs.set 2 ⟨true, true, 100000⟩ } }
    let m : OwlMsg := ⟨1, 77, 1, 0, 0, false, true⟩
    let k : Fin 8 := 2
    let t := after (exec (.refereeRelinquishRx m) s) s
    (s.refPair m = some k) ∧ ((s.twn.pairs[k]).heldBy m = true) ∧
      (t.twn.pairs[k] = ⟨(s.twn.pairs[k]).holder, false, s.now⟩) ∧ (t.outbox = s.outbox) := by decide +kernel
theorem test_w_GrantDecidesTheActiveUnit_30 :
    let s : State := live
    let m : OwlMsg := ⟨0, 77, 1, 0, 0, true, false⟩
    (s.refPair m = none) := by decide +kernel
theorem test_w_GrantDecidesTheActiveUnit_31 :
    let s : State := (live.wr Reg.twnCtrl 4).wr (Reg.twnRefpair 2) 0x8000004d
    let m : OwlMsg := ⟨1, 77, 1, 0, 0, false, true⟩
    let k : Fin 8 := 2
    (s.refPair m = some k) ∧ ((s.twn.pairs[k]).heldBy m = false) := by decide +kernel
theorem test_w_GrantDecidesTheActiveUnit_32 :
    let s : State := { live with now := 100000, twn := { Twn.reset with pairs := Twn.reset.pairs.set 2 ⟨true, true, 100000⟩ } }
    let k : Fin 8 := 2
    let t := after (exec (.refereeGrantExpiry k) s) s
    (s.alive = true) ∧ ((s.twn.pairs[k]).valid = true) ∧ ((s.twn.pairs[k]).expiry ≤ s.now) ∧
      (t.twn.pairs[k] = ⟨(s.twn.pairs[k]).holder, false, (s.twn.pairs[k]).expiry⟩) ∧
      ((t.twn.pairs[k]).held t.now = false) ∧ (t.regs = s.regs) := by decide +kernel
theorem test_w_GrantDecidesTheActiveUnit_33 :
    let s : State := live
    let k : Fin 8 := 2
    (s.alive = false ∨ (s.twn.pairs[k]).valid = false ∨ s.now < (s.twn.pairs[k]).expiry) := by decide +kernel
theorem test_w_GrantDecidesTheActiveUnit_34 :
    let s : State := { live.wr Reg.diaGsmax 0 with now := 7300000000000 }
    let g : Fin 4 := 1
    let t := after (exec .gsageHour s) s
    (s.alive = true) ∧ (fld (s.rd Reg.diaGsmax) 0 16 = 0) ∧ (s.regsOk) ∧ (t.rd (Reg.diaGsage 1) = 2) := by decide +kernel
theorem test_w_GrantDecidesTheActiveUnit_35 :
    let s : State := { live with supply := .off }
    (s.alive = false) := by decide +kernel
theorem test_w_GrantDecidesTheActiveUnit_36 :
    let s : State := { (live.wr Reg.diaGsmax 1).wr 0x13000 0xf with now := 7300000000000 }
    let g : Fin 4 := 1
    let h : Nat := 2
    let m : Nat := 1
    let was : Nat := 0
    let t := after (exec .gsageHour s) s
    (s.alive = true) ∧ (s.regsOk) ∧ (h = satNat 0xffff ((s.now - (s.fioG g).gswAt) / 3600000000000)) ∧
      (m = fld (s.rd Reg.diaGsmax) 0 16) ∧ (was = (s.rd (Reg.diaGsage g)).toNat) ∧ (t.rd (Reg.diaGsage g) = wd h) ∧
      (m ≠ 0 ∧ was < h ∧ h / m ≠ was / m ∧ (∃ k : Fin 4, s.fioOuten g k = true) → bit (t.rd 0x04010) 3 = true) := by decide +kernel
theorem test_w_GrantDecidesTheActiveUnit_37 :
    let s : State := (live.raise 0x2003 []).raise 0x2003 []
    let i : Fin 64 := 0x20
    let t := after (exec (.diaCounterClear .pf0) s) s
    (s.allowsWrite .pf0 Reg.diaCntclr 1 = true) ∧ (s.regsOk) ∧ (t.rd Reg.diaFltcnt = 0 ∧ t.rd Reg.diaEvtcnt = 0 ∧
      t.rd (Reg.diaFcnt i) = 0) ∧ (t.rd Reg.diaLastflt = s.rd Reg.diaLastflt) := by decide +kernel
theorem test_v_StepRunsTheFrontCommand_1 :
    (stopd.pending = [] → { stopd with pending := [.stopCommand .pf0] }.pending = .stopCommand .pf0 :: []) := by decide +kernel
theorem test_v_StepRunsTheFrontCommand_2 :
    after (step { live with pending := [.stopCommand .pf0, .startCommand .pf0] }) live =
    after (exec (.stopCommand .pf0) { live with pending := [.startCommand .pf0] }) live := by decide +kernel
theorem test_v_EveryCommandCompletes_1 :
    isNext (exec .mainSupplyUp State.reset) = true ∧ isNext (exec (.startCommand .pf0) stopd) = true ∧
    (after (exec .mainSupplyUp { live with pending := [.mainRailsFall] }) live).pending = [.mainRailsFall] := by decide +kernel
theorem test_v_IdleStepIsAClockEdge_1 :
    live.pending = [] ∧ live.alive = true ∧ (after (step live) live).now = 4 := by decide +kernel
theorem test_v_IdleStepIsAClockEdge_2 :
    { live with supply := .off }.alive = false := by decide +kernel
theorem test_v_ResetState_1 :
    State.reset.rd Reg.sysRstcause = 1 := by decide +kernel
theorem test_v_UndefinedOffsetsAreInert_1 :
    (0x1fff < 0x2000 ∧ 0x5 ∉ [0x0, 0x1, 0x2, 0x3, 0x4, 0x8]) := by decide +kernel
theorem test_v_UndefinedOffsetsAreInert_2 :
    (∀ i < 8, regDef ((0x0ffc + i) - (0x0ffc + i) % 4) = none ∨ 4 ≤ i) ∧ (∀ i < 8, regDef ((0x5000 + i) - (0x5000 + i) % 4) = none) ∧
    (∀ i < 4, regDef ((0x0068 + i) - (0x0068 + i) % 4) = none) := by decide +kernel
theorem test_v_HostAccessSizes_1 :
    stopd.booted = true ∧ stopd.regsOk ∧ (regDef (0x14 - 0x14 % 4)).isSome = true ∧ regDef 0x5000 = none := by decide +kernel
theorem test_v_HostAccessSizes_2 :
    let u := after (exec (.regWrite .pf0 0x14 4 5) stopd) stopd
    (0x14 : BitVec 20).toNat % 4 = 0 ∧ u.rd 0x14 = 1 ∧ (0x18 : BitVec 20).toNat = (0x14 : BitVec 20).toNat + 4 ∧
    (after (exec (.regWrite .pf0 0x14 8 5) stopd) stopd) = after (exec (.regWrite .pf0 0x18 4 0) u) u := by decide +kernel
theorem test_v_NoticeSramPartitions_1 :
    stopd.booted = true ∧ Memory.wf ramFill stopd.notice = true ∧ (0x1ffffe : BitVec 24).toNat + [(1 : Byte), 2].length ≤ 0x200000 := by decide +kernel
theorem test_v_NoticeSramPartitions_2 :
    (0x7fffff : BitVec 24).toNat + [(1 : Byte)].length ≤ 0x800000 ∧
    (after (exec (.noticeSramWrite .pf0 0x7fffff [1]) stopd) stopd).notice.read ramFill 0x7fffff = 1 := by decide +kernel
theorem test_v_NoticeSramPartitions_3 :
    let r : AtomicReq := ⟨.fetchAdd, 8, true, 0x1ffff8, 1, 0⟩
    stopd.booted = true ∧ r.bar2 = true ∧ r.off.toNat < 0x200000 ∧ (after (exec (.atomicOp .pf1 r) stopd) stopd).notice = [] := by decide +kernel
theorem test_v_PackingBlocks_1 :
    (blkPack.sem (binOf tBOOL [1, 0, 1])).outs = [some 5] := by decide +kernel
theorem test_v_PackingBlocks_2 :
    tyWidth tWORD = 16 ∧ (blkBswap.sem (binOf tWORD [0x1234])).outs = [some 0x3412] := by decide +kernel
theorem test_v_CompareBlocks_1 :
    (fIsNaN 0x7fc00000 || fIsNaN 0) = true ∧ (blkNe.sem (binOf tREAL [0x7fc00000, 0])).outs = [some 1] := by decide +kernel
theorem test_v_CompareBlocks_2 :
    tySI tINT = true ∧ (blkLt.sem (binOf tINT [0xffff, 1])).outs = [some 1] ∧ tySI tUINT = false ∧ tUINT ≠ tREAL ∧ tUINT ≠ tBOOL ∧
    (blkLt.sem (binOf tUINT [0xffff, 1])).outs = [some 0] := by decide +kernel
theorem test_v_CompareBlocks_3 :
    tINT ≠ tREAL ∧ (binOf tINT [0xffffffff, 1]).w 0 = tyExt tINT ((binOf tINT [0xffffffff, 1]).w 0) ∧
    (binOf tINT [0xffffffff, 1]).w 1 = tyExt tINT ((binOf tINT [0xffffffff, 1]).w 1) ∧
    (blkNe.sem (binOf tINT [0xffffffff, 1])).outs = [some 1] ∧ (binOf tINT [0xffffffff, 1]).v 0 = -1 := by decide +kernel
theorem test_v_EnteringSafe_1 :
    live.safeLatch = false ∧ live.regsOk ∧ live.sett.stopped = false ∧ live.sett.restart = false ∧ live.sett.intake.length < 1000 := by decide +kernel
theorem test_v_EnteringSafe_2 :
    let t := live.enterSafe 0x0802 3 [7]
    t.mstate = .safe ∧ t.rd Reg.diaSafecause = 0x80000802 ∧ t.rd Reg.diaSafepay = 7 ∧ t.sett.intake.length = 3 ∧ t.eng.mode = .stop ∧
    (t.sett.intake.getD 1 .seal = .event ⟨mkSource 4 0 false, 0x0401, pay8 [0x0802, 7, 3], 0, none⟩) := by decide +kernel
theorem test_v_EnteringSafe_3 :
    { live with safeLatch := true }.safeLatch = true := by decide +kernel
theorem test_v_BlockFrame_1 :
    let s := blkState 0x0c1 tDINT 0 [0x300000, 0x300001, 0x40300002]
    let a := (s.task 1).act.getD wAct
    (s.task 1).act = some a ∧ a.pe + fld (s.pimRd (s.descAt 0)) 24 8 ≤ (s.task 1).rec'.wcpe ∧ Memory.wf ramFill s.pim = true ∧ s.safeLatch = false ∧
    (∀ w ∈ s.blockOuts blkAdd 0 (blkAdd.sem (s.blockIn blkAdd 1 a 0 [])), refPim (slotRef w.1) = true → pimInst ≤ slotRef w.1) ∧
    (s.blockOuts blkAdd 0 (blkAdd.sem (s.blockIn blkAdd 1 a 0 []))).length = 1 ∧
    (blkAdd.sem (s.blockIn blkAdd 1 a 0 [])).inst = [] ∧ (s.ranBlock blkAdd 1 a 0).safeLatch = false := by decide +kernel
theorem test_v_FieldSideCommandsFrame_1 :
    (∃ g : Fin 4, Instr.supplyReady 2 = .supplyReady g) := by decide +kernel
theorem test_v_UnpoweredModule_1 :
    { live with supply := .off }.dark ∧ (after (step { live with supply := .off }) live).dark := by decide +kernel
theorem test_v_UnpoweredModule_2 :
    after (exec (.startCommand .pf0) { stopd with supply := .off }) live = { stopd with supply := .off } := by decide +kernel
theorem test_v_UnpoweredModule_3 :
    Instr.startCommand .pf0 ≠ .mainSupplyUp ∧ Instr.mainSupplyUp ∉ [Instr.startCommand .pf0] := by decide +kernel
theorem test_v_PlantFrame_1 :
    isNext (exec (.testPulseStart 0 0) live) = true ∧ isNext (exec (.fieldDownstreamMissing 0) live) = true ∧ isNext (exec (.fieldDownstreamRx 0 0 false) live) = true ∧ isNext (exec (.testPulseRequest .pf0 0 0) live) = true ∧ isNext (exec (.openLoad 0 0) live) = true ∧ isNext (exec (.zMark 0 0) live) = true ∧ isNext (exec (.ssiFrameStart 0 false) live) = true ∧ isNext (exec (.scrubLine .none) live) = true ∧ isNext (exec .pimWriteback live) = true ∧ isNext (exec .resyncStart live) = true ∧ isNext (exec .resyncStarved live) = true ∧ isNext (exec (.resetButtonStuck 0) live) = true := by decide +kernel
theorem test_v_NetworkAndTimeFrame_1 :
    isNext (exec (.canTxStart 0) live) = true ∧ isNext (exec (.canTxDone 0 .sent) live) = true ∧ isNext (exec (.canBusoffRecovery 0) live) = true ∧ isNext (exec (.canBusError 0 ⟨8, 0⟩) live) = true ∧ isNext (exec (.mvbMasterFrame 0 0) live) = true ∧ isNext (exec (.mvbLineBad .a) live) = true ∧ isNext (exec (.mvbSinkStale 0) live) = true ∧ isNext (exec (.addressAgeing .a 0) live) = true ∧ isNext (exec (.ethLinkChange .a 0 0) live) = true ∧ isNext (exec (.hostTxSend .a) live) = true ∧ isNext (exec (.pdPublish 0) live) = true ∧ isNext (exec (.ptpDelayRespRx ⟨.a, 77, 0, 5, 0⟩ 0) live) = true ∧ isNext (exec .holdoverLong live) = true ∧ isNext (exec (.tpinPulseEnd 0) live) = true ∧ isNext (exec (.tpinPulseStart 0) live) = true ∧ isNext (exec (.tpinCaptureEdge 0 false 0 0 0) live) = true := by decide +kernel
theorem test_v_HostAndRecorderFrame_1 :
    isNext (exec (.configSpaceWrite .pf0 false false) live) = true ∧ isNext (exec (.noticeSramWrite .pf0 0 [1]) live) = true ∧ isNext (exec (.atomicOp .pf0 ⟨.swap, 4, true, 0, 1, 0⟩) live) = true ∧ isNext (exec (.privVectorSend .pf0 0) live) = true ∧ isNext (exec .settMb2Command live) = true ∧ isNext (exec .extractRequest live) = true ∧ isNext (exec .settRestartDone live) = true := by decide +kernel
theorem test_v_SystemAndTwinFrame_1 :
    isNext (exec .opPgood live) = true ∧ isNext (exec .opPgoodTimeout live) = true ∧ isNext (exec .rtcCrystalReady live) = true ∧ isNext (exec .rtcCrystalFail live) = true ∧ isNext (exec .rtcSet live) = true ∧ isNext (exec .wakeFallingEdge live) = true ∧ isNext (exec .dormouseQuietClear live) = true ∧ isNext (exec .chainTrainSend live) = true ∧ isNext (exec (.chainTrainRx 0 false 0 0) live) = true ∧ isNext (exec (.addressingDone false) live) = true ∧ isNext (exec .supplyFail live) = true ∧ isNext (exec .otpProgramDone live) = true ∧ isNext (exec (.restoreDone false) live) = true ∧ isNext (exec (.taskPeriodicTrigger 0) live) = true ∧ isNext (exec (.shadowCopyDone 0) live) = true ∧ isNext (exec (.refereeRelinquishRx ⟨0, 0, 0, 0, 0, true, true⟩) live) = true ∧ isNext (exec .renewAckTimeout live) = true ∧ isNext (exec .twinGrantRequest live) = true ∧ isNext (exec (.twinXfrRx ⟨⟨0, true⟩, ⟨0, true⟩, ⟨0, true⟩⟩) live) = true ∧ isNext (exec (.twinMirRx ⟨⟨0, true⟩, ⟨0, true⟩, ⟨0, true⟩⟩) live) = true ∧ isNext (exec (.twinTrgRx ⟨⟨0, true⟩, ⟨0, true⟩, ⟨0, true⟩⟩) live) = true ∧ isNext (exec .heartbeatLost live) = true := by decide +kernel

end Sys2Proof.Tests
end

section
/-!
PROOFS. What the host sees of BAR0 and of the notice SRAM (spec/02_register_pages.md R30, R31, R35, R41, R42): undefined
offsets are inert, accesses of every size act as R42 says, and the secure partition is closed to PF1.
-/
namespace Sys2Proof.Machine

/-! ## The register map -/

/-- An offset of a page slot that R34 does not list is defined by no page's map. -/
theorem regDef_eq_none_of_page {a : Nat} (h : ∀ p ∈ pageTable, p.page ≠ a / 0x1000) : regDef a = none := by
  have hp : pageOf a = none := by
    rw [pageOf, List.find?_eq_none]
    intro p hm
    simpa using h p hm
  simp [regDef, hp]

/-- The page slots of R34. -/
theorem pageTable_slots : pageTable.map PageDef.page =
    [0x0, 0x1, 0x2, 0x3, 0x4, 0x8, 0x9, 0xa, 0xb, 0xc, 0xd, 0x10, 0x11, 0x12, 0x13, 0x14, 0x15, 0x16, 0x17, 0x18, 0x19,
      0x20, 0x21, 0x22, 0x23, 0x24, 0x28, 0x29, 0x2a, 0x2b, 0x2c, 0x2d, 0x30, 0x31, 0x32, 0x34, 0x38, 0x39] := rfl

/-! ## Reads of BAR0 -/

/-- An undefined register reads zero (R35). -/
theorem State.readReg_undefined {s : State} {a : Nat} (h : regDef a = none) : s.readReg a = 0 := by
  unfold State.readReg
  split
  · rfl
  · simp [h]

/-- Every byte of a zero word is zero, and so is the default behind its end. -/
theorem bytesLE_zero_getD (n k : Nat) : (bytesLE (0 : Word) n).getD k 0 = 0 := by
  by_cases hk : k < n <;> simp [bytesLE, byteOf, hk]

/-- Byte `i` of a read is the addressed byte of the register that it lies in (R42). -/
theorem State.readBar0_getElem? {s : State} {a n i : Nat} (hi : i < n) :
    (s.readBar0 a n)[i]? = some ((bytesLE (s.readReg ((a + i) / 4 * 4)) 4).getD ((a + i) % 4) 0) := by
  have ha : (a + i) - (a + i) % 4 = (a + i) / 4 * 4 := by omega
  simp only [State.readBar0, List.getElem?_map, List.getElem?_range hi, Option.map_some, ha]

/-- A read of bytes none of which a map defines returns zeros (R35). -/
theorem State.readBar0_undefined {s : State} {a n : Nat} (h : ∀ i < n, regDef ((a + i) - (a + i) % 4) = none) :
    s.readBar0 a n = List.replicate n 0 := by
  refine List.eq_replicate_iff.mpr ⟨by simp [State.readBar0], fun b hb => ?_⟩
  obtain ⟨i, hi, rfl⟩ := List.mem_map.mp hb
  rw [State.readReg_undefined (h i (List.mem_range.mp hi)), bytesLE_zero_getD]

/-! ## Writes of BAR0 -/

/-- REG_WRITE in a booted module is the host write of R42. -/
theorem exec_regWrite_booted {s : State} {pf : Pf} {a : BitVec 20} {size : Nat} {v : Dword} (hb : s.booted = true) :
    exec (.regWrite pf a size v) s = .next (s.hostWriteN pf a.toNat size v) := by
  show execRegWrite pf a size v s = _
  rw [execRegWrite, if_pos hb]

/-- Before BOOT has ended, REG_WRITE changes nothing. -/
theorem exec_regWrite_unbooted {s : State} {pf : Pf} {a : BitVec 20} {size : Nat} {v : Dword} (hb : ¬ s.booted = true) :
    exec (.regWrite pf a size v) s = .next s := by
  show execRegWrite pf a size v s = _
  rw [execRegWrite, if_neg hb]

/-- A 4-byte write to an undefined register is ignored (R35). -/
theorem State.hostWrite_undefined {s : State} {pf : Pf} {a : Nat} {v : Word} (h : regDef a = none) :
    s.hostWrite pf a v = s := by
  simp [State.hostWrite, h]

/-- An aligned 4-byte write. -/
theorem State.hostWriteN_four {s : State} {pf : Pf} {a : Nat} {v : Dword} (ha : a % 4 = 0) :
    s.hostWriteN pf a 4 v = s.hostWrite pf a (v.truncate 32) := by
  simp [State.hostWriteN, ha]

/-- An aligned 8-byte write: the high word follows unless the low word's write ends in a module that is not booted. -/
theorem State.hostWriteN_eight {s : State} {pf : Pf} {a : Nat} {v : Dword} (ha : a % 4 = 0) :
    s.hostWriteN pf a 8 v =
      if (s.hostWrite pf a (v.truncate 32)).booted then
        (s.hostWrite pf a (v.truncate 32)).hostWrite pf (a + 4) ((v >>> 32).truncate 32)
      else s.hostWrite pf a (v.truncate 32) := by
  simp [State.hostWriteN, ha]

/-- A write of another size or alignment to a defined register is refused. -/
theorem State.hostWriteN_misfit {s : State} {pf : Pf} {a size : Nat} {v : Dword} {d : RegDef}
    (hm : ¬ (a % 4 = 0 ∧ (size = 4 ∨ size = 8))) (hd : regDef (a - a % 4) = some d) :
    s.hostWriteN pf a size v = s.refuseWrite (a - a % 4) := by
  rw [State.hostWriteN, if_neg (by tauto), if_neg (by tauto), hd]

/-- A write of another size or alignment to an undefined register is ignored. -/
theorem State.hostWriteN_misfit_undefined {s : State} {pf : Pf} {a size : Nat} {v : Dword}
    (hm : ¬ (a % 4 = 0 ∧ (size = 4 ∨ size = 8))) (hd : regDef (a - a % 4) = none) : s.hostWriteN pf a size v = s := by
  rw [State.hostWriteN, if_neg (by tauto), if_neg (by tauto), hd]

/-- A write none of whose bytes a map defines is ignored (R35). -/
theorem State.hostWriteN_undefined {s : State} {pf : Pf} {a size : Nat} {v : Dword} (hs : size ∈ [1, 2, 4, 8])
    (h : ∀ i < size, regDef ((a + i) - (a + i) % 4) = none) : s.hostWriteN pf a size v = s := by
  have hpos : 0 < size := by
    simp only [List.mem_cons, List.not_mem_nil, or_false] at hs
    omega
  have h0 : regDef (a - a % 4) = none := h 0 hpos
  by_cases hf : a % 4 = 0 ∧ (size = 4 ∨ size = 8)
  · obtain ⟨ha, rfl | rfl⟩ := hf
    · rw [State.hostWriteN_four ha]
      exact State.hostWrite_undefined (by rwa [ha] at h0)
    · have hlo : regDef a = none := by rwa [ha] at h0
      have hhi : regDef (a + 4) = none := by
        have h4 := h 4 (by decide)
        rwa [show (a + 4) % 4 = 0 by omega] at h4
      rw [State.hostWriteN_eight ha, State.hostWrite_undefined hlo, State.hostWrite_undefined hhi, ite_self]
  · exact State.hostWriteN_misfit_undefined hf h0

/-- Settles O47: R34's page slots leave every other offset out of the map, and both reads and writes look the map up. -/
theorem undefinedOffsetsAreInert : Obligations.UndefinedOffsetsAreInert := by
  unfold Obligations.UndefinedOffsetsAreInert
  refine ⟨fun p off hoff hp => regDef_eq_none_of_page fun q hq hpq => hp ?_,
    fun s a n h => State.readBar0_undefined h, fun s pf a size v hs h => ?_⟩
  · have hslot : q.page = p := by omega
    rw [← pageTable_slots, ← hslot]
    exact List.mem_map_of_mem hq
  · by_cases hb : s.booted = true
    · rw [exec_regWrite_booted hb, State.hostWriteN_undefined hs h]
    · exact exec_regWrite_unbooted hb

/-! ## Refusals -/

/-- Away from a sealed DBG.CMD, a refused write sets WREFUSED of its page. -/
theorem State.refuseWrite_plain {s : State} {a : Nat} (h : ¬ (a = Reg.dbgCmd ∧ s.sealRo 13 = true)) :
    s.refuseWrite a = s.refuse (a / 0x1000) := by
  have hc : ¬ (a = Reg.dbgCmd ∧ s.sealRo (a / 0x1000) = true) := by
    rintro ⟨rfl, hs⟩
    exact h ⟨rfl, hs⟩
  rw [State.refuseWrite, if_neg hc]

/-- At a sealed DBG.CMD, a refused write sets HOLDREF besides (R41). -/
theorem State.refuseWrite_sealedDbg {s : State} (h : s.sealRo 13 = true) :
    s.refuseWrite Reg.dbgCmd = (s.refuse 13).holdRef := by
  have hc : Reg.dbgCmd = Reg.dbgCmd ∧ s.sealRo (Reg.dbgCmd / 0x1000) = true := ⟨rfl, h⟩
  rw [State.refuseWrite, if_pos hc]
  rfl

/-- A refusal writes the register file only. -/
theorem State.refuse_regs (s : State) (p : Nat) : ∃ r, s.refuse p = { s with regs := r } := ⟨_, rfl⟩
theorem State.refuse_holdRef_regs (s : State) (p : Nat) : ∃ r, (s.refuse p).holdRef = { s with regs := r } := ⟨_, rfl⟩

/-- What the refusal and the hold refusal of DBG leave in its EVT_RAW. -/
theorem State.rd_refuse_holdRef_same {s : State} (h : s.regsOk) :
    (s.refuse 13).holdRef.rd 0xd010 = s.rd 0xd010 ||| 0x40000002 := by
  calc (s.refuse 13).holdRef.rd 0xd010
      = (s.refuse 13).rd 0xd010 ||| 2 := State.rd_evt_same (State.regsOk_refuse h)
    _ = (s.rd 0xd010 ||| 0x40000000) ||| 2 := by rw [State.refuse, State.rd_evt_same (p := 13) h]
    _ = s.rd 0xd010 ||| 0x40000002 := BitVec.or_assoc ..

/-- They leave every other register as it was. -/
theorem State.rd_refuse_holdRef_ne {s : State} {x : Nat} (h : s.regsOk) (hx : x ≠ 0xd010) :
    (s.refuse 13).holdRef.rd x = s.rd x := by
  rw [State.holdRef, State.rd_evt_ne (State.regsOk_refuse h) hx, State.refuse, State.rd_evt_ne h hx]

/-- An aligned 8-byte REG_WRITE is the 4-byte one of its low word followed by that of its high word (R42). -/
theorem exec_regWrite_eight {s u : State} {pf : Pf} {a b : BitVec 20} {v : Dword} (ha : a.toNat % 4 = 0)
    (hab : b.toNat = a.toNat + 4) (hu : exec (.regWrite pf a 4 ((v.truncate 32 : Word).zeroExtend 64)) s = .next u) :
    exec (.regWrite pf a 8 v) s = exec (.regWrite pf b 4 (v >>> 32)) u := by
  by_cases hb : s.booted = true
  · have hlo : (((v.truncate 32 : Word).zeroExtend 64).truncate 32 : Word) = v.truncate 32 := by
      simp
    rw [exec_regWrite_booted hb, State.hostWriteN_four ha, hlo, Host.Outcome.next.injEq] at hu
    rw [exec_regWrite_booted hb, State.hostWriteN_eight ha, hu]
    by_cases hub : u.booted = true
    · rw [exec_regWrite_booted hub, State.hostWriteN_four (by omega), hab, if_pos hub]
    · rw [exec_regWrite_unbooted hub, if_neg hub]
  · rw [exec_regWrite_unbooted hb, Host.Outcome.next.injEq] at hu
    subst hu
    rw [exec_regWrite_unbooted hb, exec_regWrite_unbooted hb]

/-- Settles O48: the sizes of R42 one by one; a misfit ends in the refusal of its register, or in nothing. -/
theorem hostAccessSizes : Obligations.HostAccessSizes := by
  unfold Obligations.HostAccessSizes
  refine ⟨fun s a n i _ hi => State.readBar0_getElem? hi, fun s a h => State.readReg_undefined h,
    fun s u pf a b v ha hab hu => exec_regWrite_eight ha hab hu, ?misfit, ?sealedDbg, ?undefined⟩
  case misfit =>
    intro s pf a size v d hb hr hm hd hn
    have hpage : (a.toNat - a.toNat % 4) / 0x1000 = a.toNat / 0x1000 := by omega
    refine ⟨s.refuse (a.toNat / 0x1000), ?_, s.refuse_regs _, State.rd_evt_same hr, fun x hx => State.rd_evt_ne hr hx⟩
    rw [exec_regWrite_booted hb, State.hostWriteN_misfit hm hd, State.refuseWrite_plain hn, hpage]
  case sealedDbg =>
    intro s pf a size v hb hr hs hm ha
    obtain ⟨d, hd⟩ : ∃ d, regDef Reg.dbgCmd = some d := ⟨_, rfl⟩
    refine ⟨(s.refuse 13).holdRef, ?_, s.refuse_holdRef_regs 13, State.rd_refuse_holdRef_same hr,
      fun x hx => State.rd_refuse_holdRef_ne hr hx⟩
    rw [exec_regWrite_booted hb, State.hostWriteN_misfit hm (by rw [ha, hd]), ha, State.refuseWrite_sealedDbg hs]
  case undefined =>
    intro s pf a size v hb hm hd
    rw [exec_regWrite_booted hb, State.hostWriteN_misfit_undefined hm hd]

/-! ## The notice SRAM -/

/-- PF1 reads zeros in the secure partition (R31). -/
theorem State.readBar2_secure {s : State} {a n : Nat} (h : a + n ≤ 0x200000) :
    s.readBar2 .pf1 a n = List.replicate n 0 := by
  refine List.eq_replicate_iff.mpr ⟨by simp [State.readBar2], fun b hb => ?_⟩
  obtain ⟨i, hi, rfl⟩ := List.mem_map.mp hb
  have hin : a + i < 0x200000 := by have := List.mem_range.mp hi; omega
  exact if_pos (.inr ⟨rfl, hin⟩)

/-- PF0 reads every byte of both partitions. -/
theorem State.readBar2_pf0 {s : State} {a : Nat} (h : a < 0x800000) :
    s.readBar2 .pf0 a 1 = [s.notice.read ramFill a] := by
  have hc : ¬ 0x800000 ≤ a := by omega
  simp [State.readBar2, hc]

/-- One byte of NOTICE_SRAM_WRITE, with its index in the write: what the partitions keep of it. -/
def noticePut (pf : Pf) (off : Nat) (m : Memory) (p : Byte × Nat) : Memory :=
  if decide (0x800000 ≤ off + p.2) || (pf == .pf1 && decide (off + p.2 < 0x200000)) then m
  else m.write ramFill (off + p.2) p.1

/-- A byte of the secure partition that PF1 writes is dropped (R31). -/
theorem noticePut_secure {off : Nat} {m : Memory} {p : Byte × Nat} (h : off + p.2 < 0x200000) :
    noticePut .pf1 off m p = m := by
  simp [noticePut, h]

/-- A byte of either partition that PF0 writes is kept. -/
theorem noticePut_pf0 {off : Nat} {m : Memory} {p : Byte × Nat} (h : off + p.2 < 0x800000) :
    noticePut .pf0 off m p = m.write ramFill (off + p.2) p.1 := by
  have hc : ¬ 0x800000 ≤ off + p.2 := by omega
  simp [noticePut, hc]

/-- NOTICE_SRAM_WRITE in a booted module puts its bytes one after another. -/
theorem exec_noticeSramWrite_booted {s : State} {pf : Pf} {off : BitVec 24} {data : List Byte} (hb : s.booted = true) :
    exec (.noticeSramWrite pf off data) s =
      .next { s with notice := data.zipIdx.foldl (noticePut pf off.toNat) s.notice } := by
  show execNoticeSramWrite pf off data s = _
  rw [execNoticeSramWrite, hb]
  rfl

/-- A PF1 write within the secure partition keeps no byte (R31). -/
theorem noticeFold_secure {off : Nat} (data : List Byte) : ∀ {k : Nat} {m : Memory}, off + k + data.length ≤ 0x200000 →
    (data.zipIdx k).foldl (noticePut .pf1 off) m = m := by
  induction data with
  | nil => intros; rfl
  | cons b r ih =>
    intro k m h
    simp only [List.length_cons] at h
    rw [List.zipIdx_cons, List.foldl_cons, noticePut_secure (by simp only; omega), ih (by omega)]

/-- A PF0 write within the two partitions writes its bytes one after another. -/
theorem noticeFold_pf0 {off : Nat} (data : List Byte) : ∀ {k : Nat} {m : Memory}, off + k + data.length ≤ 0x800000 →
    (data.zipIdx k).foldl (noticePut .pf0 off) m = m.writeBytes ramFill (off + k) data := by
  induction data with
  | nil => intros; rfl
  | cons b r ih =>
    intro k m h
    simp only [List.length_cons] at h
    rw [List.zipIdx_cons, List.foldl_cons, noticePut_pf0 (by simp only; omega), ih (by omega)]
    rfl

/-- NOTICE_SRAM_WRITE by PF1 within the secure partition leaves the state as it was. -/
theorem exec_noticeSramWrite_secure {s : State} {off : BitVec 24} {data : List Byte} (hb : s.booted = true)
    (h : off.toNat + data.length ≤ 0x200000) : exec (.noticeSramWrite .pf1 off data) s = .next s := by
  rw [exec_noticeSramWrite_booted hb, noticeFold_secure data (by omega)]

/-- NOTICE_SRAM_WRITE by PF0 writes its bytes. -/
theorem exec_noticeSramWrite_pf0 {s : State} {off : BitVec 24} {data : List Byte} (hb : s.booted = true)
    (h : off.toNat + data.length ≤ 0x800000) : exec (.noticeSramWrite .pf0 off data) s =
      .next { s with notice := s.notice.writeBytes ramFill off.toNat data } := by
  rw [exec_noticeSramWrite_booted hb, noticeFold_pf0 data (by omega), Nat.add_zero]

/-- A PF1 AtomicOp on the secure partition is an Unsupported Request: counted, reported and completed (R31). -/
theorem exec_atomicOp_secure {s : State} {r : AtomicReq} (hb : s.booted = true) (h : r.off.toNat < 0x200000) :
    exec (.atomicOp .pf1 r) s =
      .next ((((s.evt 0x30 8).count Reg.hifUrcnt).raise 0x3004 []).emit (.atomic .pf1 true 0)) := by
  have hc : ¬ 0x200000 ≤ r.off.toNat := by omega
  show execAtomicOp .pf1 r s = _
  simp [execAtomicOp, hb, hc]

/-- Settles O49: the partition test stands on every read, write and AtomicOp; PF0's bytes go through the memory laws. -/
theorem noticeSramPartitions : Obligations.NoticeSramPartitions := by
  unfold Obligations.NoticeSramPartitions
  refine ⟨fun s a n h => State.readBar2_secure h, fun s a h => State.readBar2_pf0 h,
    fun s off data hb h => exec_noticeSramWrite_secure hb h, ?pf0Write, ?atomic⟩
  case pf0Write =>
    intro s off data hb hw h
    refine ⟨_, exec_noticeSramWrite_pf0 hb h, Memory.writeBytes_wf hw, fun i hi => ?_,
      fun a ha => Memory.read_writeBytes_ne hw ha⟩
    rw [Memory.read_writeBytes_at hw hi, List.getD_eq_getElem _ _ hi]
  case atomic =>
    intro s r hb _ h
    exact ⟨_, exec_atomicOp_secure hb h, by simp [State.emit], by simp⟩

end Sys2Proof.Machine
end

section
/-!
PROOFS. Values of the block library (spec/04_block_library.md R96 to R98, R100, R126; spec/03_program_image.md R57, R63):
integer arithmetic, the packing blocks and QCHK, and the compare blocks.
-/
namespace Sys2Proof.Machine

/-! ## Ranges of the integer types (R56) -/

theorem tyINT_ne_real {t : Nat} (h : tyINT t = true) : t ≠ tREAL := by
  rintro rfl
  exact absurd h (by decide)

theorem tySI_ne_real {t : Nat} (h : tySI t = true) : t ≠ tREAL :=
  tyINT_ne_real (by rw [tyINT, h, Bool.true_or])

/-- Zero stands for zero in every type. -/
@[simp] theorem tyVal_zero (t : Nat) : tyVal t 0#32 = 0 := by
  simp [tyVal, sfld, fld]

/-- Zero lies in the range of every integer type. -/
theorem tyRange_zero {t : Nat} (h : tyINT t = true) : tyMin t ≤ 0 ∧ 0 ≤ tyMax t := by
  simpa using tyVal_range h 0#32

/-- A signed type reaches one step further down than up. -/
theorem tyMax_of_signed {t : Nat} (h : tySI t = true) : tyMax t = -tyMin t - 1 := by
  simp [tyMax, tyMin, h]

theorem tyMin_of_unsigned {t : Nat} (h : tySI t = false) : tyMin t = 0 := by
  simp [tyMin, h]

/-! ## Wrapping and saturating results (R96, R97) -/

/-- On an integer type a wrapping block writes the exact result modulo the width, with OVF when it is out of range. -/
theorem arith_int {f : Word → Word → Word} {g : Int → Int → Int} {x : BIn} (h : tyINT x.dty = true) :
    ∃ q, arith f g x = ⟨[some q], [], decide (g (x.v 0) (x.v 1) < tyMin x.dty ∨ tyMax x.dty < g (x.v 0) (x.v 1)), []⟩ ∧
      tyExt x.dty q = q ∧ (tyVal x.dty q - g (x.v 0) (x.v 1)) % 2 ^ tyWidth x.dty = 0 := by
  refine ⟨tyOf x.dty (g (x.v 0) (x.v 1)), ?_, tyExt_tyOf h _, tyVal_tyOf_mod h _⟩
  rw [arith, if_neg (tyINT_ne_real h)]
  rfl

/-- The nearest limit of an integer type. -/
theorem tyClamp_eq {t : Nat} (h : tyINT t = true) (v : Int) : tyClamp t v = max (tyMin t) (min (tyMax t) v) := by
  have hz := tyRange_zero h
  rw [tyClamp]
  split
  · omega
  · split <;> omega

/-- A saturating result stands for the exact one clamped to the range. -/
theorem tyVal_satRes {t : Nat} (h : tyINT t = true) (v : Int) :
    tyVal t (satRes t v) = max (tyMin t) (min (tyMax t) v) := by
  have hz := tyRange_zero h
  rw [satRes, tyClamp_eq h, tyVal_tyOf h (by omega) (by omega)]

/-- What a saturating block writes. -/
theorem satRes_int {t : Nat} (h : tyINT t = true) (v : Int) :
    ∃ q, BOut.q (satRes t v) = ⟨[some q], [], false, []⟩ ∧ tyExt t q = q ∧
      tyVal t q = max (tyMin t) (min (tyMax t) v) :=
  ⟨satRes t v, rfl, tyExt_tyOf h _, tyVal_satRes h v⟩

/-! ## Division and remainder (R98) -/

/-- A quotient by two or more, in either sign, is at most half as far from zero as the dividend. -/
theorem natAbs_tdiv_le_half {a b : Int} (hb : 2 ≤ b.natAbs) : (a.tdiv b).natAbs ≤ a.natAbs / 2 := by
  rw [Int.natAbs_tdiv]
  exact Nat.div_le_div_left hb (by decide)

/-- Of the quotients in a type only the minimum by -1 leaves the range. -/
theorem tdiv_in_range {t : Nat} {a b : Int} (h : tyINT t = true) (ha : tyMin t ≤ a ∧ a ≤ tyMax t) (hb : tyMin t ≤ b)
    (hne : ¬ (tySI t = true ∧ a = tyMin t ∧ b = -1)) : tyMin t ≤ a.tdiv b ∧ a.tdiv b ≤ tyMax t := by
  have hz := tyRange_zero h
  cases hs : tySI t with
  | false =>
    rw [tyMin_of_unsigned hs] at ha hb ⊢
    exact ⟨Int.tdiv_nonneg ha.1 hb, (Int.tdiv_le_self b ha.1).trans ha.2⟩
  | true =>
    have hmax := tyMax_of_signed hs
    by_cases h2 : 2 ≤ b.natAbs
    · have hq := natAbs_tdiv_le_half (a := a) h2
      omega
    · obtain rfl | rfl | rfl : b = 0 ∨ b = 1 ∨ b = -1 := by omega
      · simpa using hz
      · simpa using ha
      · have hna : a ≠ tyMin t := fun e => hne ⟨hs, e, rfl⟩
        rw [Int.tdiv_neg, Int.tdiv_one]
        omega

/-- A remainder lies between zero and the dividend, so it has the dividend's sign. -/
theorem tmod_between (a b : Int) : min a 0 ≤ a.tmod b ∧ a.tmod b ≤ max a 0 := by
  have habs : (a.tmod b).natAbs ≤ a.natAbs := by
    rw [Int.natAbs_tmod]
    exact Nat.mod_le ..
  rcases le_total 0 a with ha | ha
  · have := Int.tmod_nonneg b ha
    omega
  · have := Int.tmod_nonneg b (Int.neg_nonneg.mpr ha)
    rw [Int.neg_tmod] at this
    omega

theorem tyVal_divRes {t : Nat} {a b : Int} (h : tyINT t = true) (ha : tyMin t ≤ a ∧ a ≤ tyMax t) (hb : tyMin t ≤ b) :
    tyVal t (divRes t a b).1 =
      if b = 0 then 0 else if tySI t = true ∧ a = tyMin t ∧ b = -1 then tyMax t else a.tdiv b := by
  have hz := tyRange_zero h
  rw [divRes]
  by_cases h0 : b = 0
  · simp [h0]
  · rw [if_neg h0, if_neg h0]
    by_cases hm : tySI t = true ∧ a = tyMin t ∧ b = -1
    · rw [if_pos hm, if_pos hm]
      exact tyVal_tyOf h (by omega) le_rfl
    · rw [if_neg hm, if_neg hm]
      obtain ⟨hlo, hhi⟩ := tdiv_in_range h ha hb hm
      exact tyVal_tyOf h hlo hhi

/-- ERR of DIV. -/
theorem divRes_err (t : Nat) (a b : Int) :
    (divRes t a b).2 = (b == 0 || (tySI t && a == tyMin t && b == -1)) := by
  rw [divRes]
  by_cases h0 : b = 0
  · simp [h0]
  · by_cases hm : tySI t = true ∧ a = tyMin t ∧ b = -1
    · simp [hm]
    · have hf : (tySI t && a == tyMin t && b == -1) = false := by
        rw [Bool.eq_false_iff]
        simpa [and_assoc] using hm
      simp [h0, hm, hf]

theorem tyVal_modRes {t : Nat} {a b : Int} (h : tyINT t = true) (ha : tyMin t ≤ a ∧ a ≤ tyMax t) :
    tyVal t (modRes t a b).1 = if b = 0 then 0 else a - b * a.tdiv b := by
  have hz := tyRange_zero h
  rw [modRes]
  by_cases h0 : b = 0
  · simp [h0]
  · rw [if_neg h0, if_neg h0, ← Int.tmod_def]
    have hr := tmod_between a b
    exact tyVal_tyOf h (by omega) (by omega)

/-- ERR of MOD. -/
theorem modRes_err (t : Nat) (a b : Int) : (modRes t a b).2 = (b == 0) := by
  by_cases h0 : b = 0 <;> simp [modRes, h0]

theorem blkDiv_int {x : BIn} (h : tyINT x.dty = true) : blkDiv.sem x =
    ⟨[some (divRes x.dty (x.v 0) (x.v 1)).1, some (b2w (divRes x.dty (x.v 0) (x.v 1)).2)], [], false, []⟩ := by
  simp [blkDiv, BOut.q2, tyINT_ne_real h]

/-- Settles O12: each result is the word of an integer in range, or of one modulo the width. -/
theorem integerArithmeticBlocks : Obligations.IntegerArithmeticBlocks := by
  unfold Obligations.IntegerArithmeticBlocks
  intro x h
  have ha : tyMin x.dty ≤ x.v 0 ∧ x.v 0 ≤ tyMax x.dty := tyVal_range h _
  have hb : tyMin x.dty ≤ x.v 1 := (tyVal_range h _).1
  refine ⟨?wrapping, ?saturating, ⟨_, ?div, tyVal_divRes h ha hb⟩, ⟨_, ?mod, tyVal_modRes h ha⟩⟩
  case wrapping =>
    simp only [List.forall_mem_cons, List.not_mem_nil, false_implies, implies_true, and_true]
    exact ⟨arith_int h, arith_int h, arith_int h⟩
  case saturating =>
    simp only [List.forall_mem_cons, List.not_mem_nil, false_implies, implies_true, and_true]
    exact ⟨satRes_int h _, satRes_int h _, satRes_int h _⟩
  case div => rw [blkDiv_int h, divRes_err]
  case mod =>
    rw [← modRes_err x.dty (x.v 0)]
    rfl

/-! ## The status word of an input (R63, R126) -/

/-- A reference below bit 24 is the slot's reference as it stands (R66). -/
theorem slotRef_wd {n : Nat} (h : n < 2 ^ 24) : slotRef (wd n) = n := by
  rw [slotRef, fld_eq, wd_toNat]
  omega

/-- A reference of part 6 reads the status word of the input with its index, whatever disturbs PIM addresses (R63). -/
theorem State.readRef_inputStatus {s : State} {k : Fin 8} {a : Act} {i dtype x : Nat} (h : i < 0x4000) :
    s.readRef k a (0xe00000 + i) dtype x = s.pimRd (pimShadowSt k + i) := by
  have hpim : refPim (0xe00000 + i) = false := decide_eq_false (by omega)
  have hpart : refPart (0xe00000 + i) = 6 := by rw [refPart]; omega
  have hidx : refIdx (0xe00000 + i) = i := by rw [refIdx]; omega
  simp only [State.readRef, hpim, hpart, hidx, Bool.false_eq_true, if_false]

/-- A UDINT is its whole word. -/
theorem tyExt_udint (w : Word) : tyExt tUDINT w = w := by
  have hw : fld w 0 32 = w.toNat := by rw [fld_eq]; omega
  show wd (fld w 0 32) = w
  rw [hw, wd, BitVec.ofNat_toNat, BitVec.setWidth_eq]

/-- The low bits of a whole word, sign-extended, are its signed value. -/
theorem sfld_whole (w : Word) : sfld w 0 32 = w.toInt := by
  have := w.isLt
  rw [sfld, fld_eq, BitVec.toInt_eq_toNat_cond]
  split <;> split <;> omega

/-! ## Bits into a word (R126) -/

theorem packBits_succ (n : Nat) (f : Nat → Bool) :
    packBits (n + 1) f = if f n then packBits n f ||| wd (2 ^ n) else packBits n f := by
  simp [packBits, List.range_succ]

theorem bit_wd_two_pow {n : Nat} (h : n < 32) (k : Nat) : bit (wd (2 ^ n)) k = decide (k = n) := by
  rw [bit, wd, BitVec.getLsbD_ofNat, Nat.testBit_two_pow]
  by_cases hk : k = n
  · simp [hk, h]
  · simp [hk, Ne.symm hk]

/-- The word of `n` bits has bit `k` of them at `k`, and zeros above. -/
theorem bit_packBits {n : Nat} (h : n ≤ 32) (f : Nat → Bool) (k : Nat) :
    bit (packBits n f) k = (decide (k < n) && f k) := by
  induction n with
  | zero => simp [packBits, bit]
  | succ n ih =>
    have hlow := ih (by omega)
    have hor : bit (packBits n f ||| wd (2 ^ n)) k = (bit (packBits n f) k || bit (wd (2 ^ n)) k) :=
      BitVec.getLsbD_or
    have hk : decide (k < n + 1) = (decide (k < n) || decide (k = n)) := by
      rw [← Bool.decide_or, decide_eq_decide]
      omega
    rw [packBits_succ, hk]
    cases hf : f n with
    | true =>
      rw [if_pos rfl, hor, hlow, bit_wd_two_pow (by omega)]
      by_cases he : k = n
      · simp [he, hf]
      · simp [he]
    | false =>
      rw [if_neg (by decide), hlow]
      by_cases he : k = n
      · simp [he, hf]
      · simp [he]

/-! ## Byte order (R126) -/

/-- The digits of a number to the base 256 are its bytes. -/
theorem leNat_byte (bs : List Byte) : ∀ i : Nat, leNat bs / 2 ^ (8 * i) % 256 = (bs.getD i 0).toNat := by
  induction bs with
  | nil => simp [leNat]
  | cons b r ih =>
    have hcons : leNat (b :: r) = leNat r * 256 + b.toNat := rfl
    have hb := b.isLt
    rintro (_ | i)
    · rw [hcons, Nat.mul_zero, Nat.pow_zero, Nat.div_one, List.getD_cons_zero]
      omega
    · have hshift : (leNat r * 256 + b.toNat) / 2 ^ 8 = leNat r := by omega
      rw [hcons, List.getD_cons_succ, ← ih i, Nat.mul_add_one 8 i, Nat.pow_add', ← Nat.div_div_eq_div_mul, hshift]

theorem beNat_eq_leNat_reverse (bs : List Byte) : beNat bs = leNat bs.reverse := by
  rw [leNat, List.foldr_reverse]
  rfl

/-- Byte `i` of a number's word is the number's digit. -/
theorem fld_wd_byte {i : Nat} (h : i < 4) (n : Nat) : fld (wd n) (8 * i) 8 = n / 2 ^ (8 * i) % 256 := by
  rw [fld, wd_toNat, Nat.shiftRight_eq_div_pow]
  interval_cases i <;> omega

/-- The `n` bytes in reverse order: byte `i` of the result is byte `n - 1 - i` of the value, and zeros stand above. -/
theorem fld_byteSwap {i : Nat} (h : i < 4) (w : Word) (n : Nat) :
    fld (wd (beNat (bytesLE w n))) (8 * i) 8 = if i < n then fld w (8 * (n - 1 - i)) 8 else 0 := by
  rw [fld_wd_byte h, beNat_eq_leNat_reverse, leNat_byte]
  by_cases hi : i < n
  · simp [hi, bytesLE, byteOf, fld]
  · simp [hi, bytesLE]

/-- Settles O50: the status word by its reference, PACK by induction on its operands, BSWAP by the bytes of a number. -/
theorem packingBlocks : Obligations.PackingBlocks := by
  unfold Obligations.PackingBlocks
  refine ⟨fun s k a i x hi => ?status, fun x => ?qchk, fun x hx => ⟨_, rfl, fun k _ => bit_packBits hx _ k⟩,
    fun x => rfl, fun x _ => ⟨_, rfl, fun i hi => fld_byteSwap hi _ _⟩⟩
  case status =>
    rw [State.readSlot, slotRef_wd (by omega), State.readRef_inputStatus hi]
    exact tyExt_udint _
  case qchk =>
    rw [← sfld_whole, ← fld_eq]
    rfl

/-! ## Compares of numbers (R100) -/

theorem cmpLt_number {t : Nat} (h : t ≠ tREAL) (a b : Word) : cmpLt t a b = decide (tyVal t a < tyVal t b) := if_neg h
theorem cmpLe_number {t : Nat} (h : t ≠ tREAL) (a b : Word) : cmpLe t a b = decide (tyVal t a ≤ tyVal t b) := if_neg h

/-- The extension of a word of any type is the word of its value. -/
theorem tyExt_eq_wi_tyVal (t : Nat) (w : Word) : tyExt t w = wi (tyVal t w) := by
  cases hs : tySI t with
  | true =>
    have h0 : t ≠ 0 := by rintro rfl; exact absurd hs (by decide)
    simp [tyExt, tyVal, hs, h0]
  | false =>
    by_cases h0 : t = 0
    · subst h0
      apply BitVec.eq_of_toNat_eq
      simp [tyExt, tyVal_UI hs, tyWidth, wi]
      omega
    · simp [tyExt, tyVal, hs, h0, wi, wd]

/-- Words that their type extends are equal exactly when they stand for the same number. -/
theorem cmpEq_number {t : Nat} {a b : Word} (h : t ≠ tREAL) (ha : a = tyExt t a) (hb : b = tyExt t b) :
    cmpEq t a b = decide (tyVal t a = tyVal t b) := by
  have hiff : a = b ↔ tyVal t a = tyVal t b := by
    refine ⟨fun e => e ▸ rfl, fun e => ?_⟩
    rw [ha, hb, tyExt_eq_wi_tyVal, tyExt_eq_wi_tyVal, e]
  rw [cmpEq, if_neg h, Bool.beq_eq_decide_eq, decide_eq_decide]
  exact hiff

/-! ## Compares of REALs (R100) -/

/-- No compare holds with a NaN. -/
theorem cmp_nan {a b : Word} (h : (fIsNaN a || fIsNaN b) = true) :
    cmpEq tREAL a b = false ∧ cmpLt tREAL a b = false ∧ cmpLe tREAL a b = false := by
  have hn : (!fIsNaN a && !fIsNaN b) = false := by rw [← Bool.not_or, h, Bool.not_true]
  simp [cmpEq, cmpLt, cmpLe, fEq, fLt, fLe, hn]

/-- Both zeros have the key 0. -/
theorem fKey_zeros {w : Word} (h : w ∈ [(0 : Word), 0x80000000]) : fIsNaN w = false ∧ fKey w = 0 := by
  simp only [List.mem_cons, List.not_mem_nil, or_false] at h
  obtain rfl | rfl := h
  · decide
  · decide

/-- The zeros are equal, whatever their signs. -/
theorem cmp_zeros {a b : Word} (ha : a ∈ [(0 : Word), 0x80000000]) (hb : b ∈ [(0 : Word), 0x80000000]) :
    cmpEq tREAL a b = true ∧ cmpLt tREAL a b = false ∧ cmpLe tREAL a b = true := by
  obtain ⟨hna, hka⟩ := fKey_zeros ha
  obtain ⟨hnb, hkb⟩ := fKey_zeros hb
  simp [cmpEq, cmpLt, cmpLe, fEq, fLt, fLe, hna, hnb, hka, hkb]

/-- A REAL operand that is NaN, as MIN, MAX and LIMIT look for it. -/
theorem any_nanOf_real {t : Nat} (h : t = tREAL) (l : List Word) : l.any (nanOf t) = l.any fun w => fIsNaN w := by
  subst h
  rfl

/-! ## What the compare blocks write -/

@[simp] theorem blkEq_outs (x : BIn) : (blkEq.sem x).outs = [some (b2w (cmpEq x.dty (x.w 0) (x.w 1)))] := rfl
@[simp] theorem blkNe_outs (x : BIn) : (blkNe.sem x).outs = [some (b2w (!cmpEq x.dty (x.w 0) (x.w 1)))] := rfl
@[simp] theorem blkLt_outs (x : BIn) : (blkLt.sem x).outs = [some (b2w (cmpLt x.dty (x.w 0) (x.w 1)))] := rfl
@[simp] theorem blkLe_outs (x : BIn) : (blkLe.sem x).outs = [some (b2w (cmpLe x.dty (x.w 0) (x.w 1)))] := rfl
@[simp] theorem blkGt_outs (x : BIn) : (blkGt.sem x).outs = [some (b2w (cmpLt x.dty (x.w 1) (x.w 0)))] := rfl
@[simp] theorem blkGe_outs (x : BIn) : (blkGe.sem x).outs = [some (b2w (cmpLe x.dty (x.w 1) (x.w 0)))] := rfl

/-- MIN and MAX with a NaN operand. -/
theorem extreme_nan {x : BIn} (better : Word → Word → Bool) (h : x.ins.any (nanOf x.dty) = true) :
    (extreme better x).outs = [some fNaN] := by
  rw [extreme, if_pos h]
  rfl

/-- LIMIT with a NaN operand. -/
theorem blkLimit_nan {x : BIn} (h : x.ins.any (nanOf x.dty) = true) : (blkLimit.sem x).outs = [some fNaN] := by
  simp only [blkLimit, h, if_true, BOut.q]

/-- The value of an operand of a signed type. -/
theorem BIn.v_signed {x : BIn} (h : tySI x.dty = true) (i : Nat) :
    x.v i = if (x.w i).toNat % 2 ^ tyWidth x.dty < 2 ^ (tyWidth x.dty - 1)
      then (((x.w i).toNat % 2 ^ tyWidth x.dty : Nat) : Int)
      else (((x.w i).toNat % 2 ^ tyWidth x.dty : Nat) : Int) - 2 ^ tyWidth x.dty := by
  simp only [BIn.v, tyVal_SI h, ← not_lt, ite_not]

/-- Settles O51: NaN and the zeros by the order key of R100; numbers by the value of their words. -/
theorem compareBlocks : Obligations.CompareBlocks := by
  unfold Obligations.CompareBlocks
  refine ⟨?nan, ?zeros, ?extremes, ?unsigned, ?signed, ?equality⟩
  case nan =>
    intro x hr hn
    obtain ⟨heq, hlt, hle⟩ := cmp_nan hn
    obtain ⟨-, hgt, hge⟩ := cmp_nan (Bool.or_comm .. ▸ hn)
    simp [hr, heq, hlt, hle, hgt, hge, b2w]
  case zeros =>
    intro x hr h0 h1
    obtain ⟨heq, hlt, hle⟩ := cmp_zeros h0 h1
    obtain ⟨-, hgt, hge⟩ := cmp_zeros h1 h0
    simp [hr, heq, hlt, hle, hgt, hge, b2w]
  case extremes =>
    intro x hr _ hn
    rw [← any_nanOf_real hr] at hn
    exact ⟨extreme_nan _ hn, extreme_nan _ hn, blkLimit_nan hn⟩
  case unsigned =>
    rintro x n hr _ hs rfl
    simp only [blkLt_outs, blkLe_outs, blkGt_outs, blkGe_outs, cmpLt_number hr, cmpLe_number hr, tyVal_UI hs, Nat.cast_lt,
      Nat.cast_le, and_self]
  case signed =>
    intro x hs
    have hr := tySI_ne_real hs
    simp only [blkLt_outs, blkLe_outs, blkGt_outs, blkGe_outs, cmpLt_number hr, cmpLe_number hr]
    refine ⟨rfl, rfl, rfl, rfl, ?_⟩
    rintro i n m rfl rfl
    exact BIn.v_signed hs i
  case equality =>
    intro x hr h0 h1
    simp only [blkEq_outs, blkNe_outs, cmpEq_number hr h0 h1, ← decide_not, ne_eq]
    exact ⟨rfl, rfl⟩

end Sys2Proof.Machine
end
